-- ==== Sys2Proof/Word.lean ====
section
/-! DEFINITION. The word types of the model and their plainest arithmetic: registers are 32 bits wide (R468), data in
memory are bytes, TRNG words are 64 bits (R603). -/

namespace Sys2Proof

/-- A register word (R468). -/
abbrev Word := BitVec 32

/-- A byte of memory or an octet of a frame. -/
abbrev Byte := BitVec 8

/-- A 64-bit word: TRNG words, addresses of the extended mode. -/
abbrev Word64 := BitVec 64

/-- The register word of a natural number, modulo 2^32. -/
abbrev w32 (n : Nat) : Word := BitVec.ofNat 32 n

/-- The byte of a natural number, modulo 256. -/
abbrev b8 (n : Nat) : Byte := BitVec.ofNat 8 n

end Sys2Proof
end

