-- ==== Sys2Proof/Syntax.lean ====
section
/-! DEFINITION. The commands of the block: one constructor of Instr per row of the table of operations and events,
with the operands the row's rule gives it, and the types of those operands. What only the world outside the part
knows (the octets of a frame on the air, the result of an FCS check, an LT, a measured power) is an operand; what the
part knows is read from the state. -/

namespace Sys2Proof

/-- The two sides (chapter 1). -/
inductive SideId where
  | a | b
  deriving DecidableEq, Repr

/-- The three RF ports (R78). -/
inductive RPort where
  | s | m | h
  deriving DecidableEq, Repr

/-- Who makes a register access: a host port, the chain port, JTAG, or the cores of a side (R19, R314, R476, R477). -/
inductive Requester where
  | hostA | hostB | chain | jtag
  | core (x : SideId)
  deriving DecidableEq, Repr

/-- The sources whose inputs wait at the ingress sequencer (R15, R16, R21). -/
inductive InputSource where
  | radio | eth0 | eth1 | hostA | hostB | chain | lath | units
  deriving DecidableEq, Repr

/-- The loss conditions of the clocks of R549. -/
inductive ClockId where
  | pllA | pllB | pllC | pllRf | pllSds | xtal | pcieRef | sdsRef
  deriving DecidableEq, Repr

/-- A transaction that software on a side's core makes towards the commons (R19, R24, R578): a register write, a
register read, a pin write. -/
inductive CoreTxn where
  | write (page off : Nat) (v : Word) (be : Nat)
  | read (page off : Nat)
  | pinWrite (off : Nat) (v : Word)
  deriving DecidableEq, Repr

/-- What a PHR decodes to (R126 to R128): whether its check passes, its mode-switch bit, the frame length and the
PHY_OPT byte of R129 that its option bits give. -/
structure PhrData where
  checkOk : Bool
  modeSwitch : Bool
  len : Nat
  phyOpt : Nat
  deriving DecidableEq, Repr

/-- What the lane has at the end of a frame (R146, R150): whether the FCS is good, the octets of the PSDU with its
FCS, and the RSSI code, carrier offset in 10 Hz units and LQI that it measured. -/
structure RxEnd where
  fcsOk : Bool
  psdu : List Byte
  rssi : Nat
  freqOfs : Int
  lqi : Nat
  deriving DecidableEq, Repr

/-- Where a memory error of R450 lies. -/
inductive MemLoc where
  | cell (n : Nat)
  | nodeEntry (n : Nat)
  | skimEntry (n : Nat)
  | keyEntry (n : Nat)
  | poolFrame (n : Nat)
  | other (bank : Nat)
  | rxBuffer (n : Nat)
  deriving DecidableEq, Repr

/-- The places of a reset of a host port (R496). -/
inductive PortReset where
  | flr | perst | linkLoss
  deriving DecidableEq, Repr

/-- The three results a side's self-check reports (R428): input digest, logic test and bank scan good. -/
structure SelfCheck where
  digestOk : Bool
  logicOk : Bool
  scanOk : Bool
  deriving DecidableEq, Repr

/-- The commands of the block. -/
inductive Instr where
  -- registers, sequencer and outputs
  | registerWrite (r : Requester) (off : Nat) (v : Word) (be : Nat)
  | sideRangeWrite (r : Requester) (off : Nat) (v : Word) (be : Nat)
  | pairedWindowWrite (r : Requester) (off : Nat) (v : Word) (be : Nat)
  | pairedWindowRead (r : Requester) (off : Nat)
  | cntClr (r : Requester) (page : Nat)
  | lockWrite (r : Requester) (page : Nat) (v : Word)
  | errStickyClear (r : Requester) (page : Nat) (v : Word)
  | errMaskWrite (r : Requester) (page : Nat) (v : Word)
  | inputSequenced (src : InputSource)
  | timeInput (lt : Nat)
  | sideTimeInput (x : SideId)
  | trngWord (w : Word64)
  | outputOffer (x : SideId) (txn : Option CoreTxn) (readbackOk : Bool)
  | skewTimeout
  | sideCommonsEvent (x : SideId)
  -- network time
  | ltLoRead (r : Requester)
  | lossCfgWrite (r : Requester) (off : Nat) (v : Word) (be : Nat)
  | sourceLost (code : Nat)
  | revertHoldoffExpiry
  | ppsEdge
  | hostTimeWrite (r : Requester) (v : Word)
  | ptpMeasurement (w3 : Word)
  | slewComplete
  | acceptStep (r : Requester)
  | acceptSlew (r : Requester)
  | holdoverExpired
  | xtalStop
  | xtalRestart (coarse : Nat)
  | timerSlotArm (r : Requester) (n : Nat) (v : Word)
  | timerSlotExpiry (n : Nat)
  | tpoCtrlWrite (r : Requester) (n : Nat) (v : Word)
  | tpoEdge (n : Nat)
  -- radio ports
  | loFreqWrite (r : Requester) (p : RPort) (v : Word)
  | retuneStart (p : RPort)
  | retuneEnd (p : RPort)
  | chWrite (r : Requester) (p : RPort)
  | chRead (r : Requester) (p : RPort)
  | launchArrival (p : RPort) (c : Nat)
  | carrierFree (p : RPort) (c : Nat)
  | launchCheckDue (p : RPort) (c : Nat)
  | lbtListen (p : RPort) (c : Nat) (rssi : Nat)
  | lbtDeferExpiry (p : RPort) (c : Nat)
  | feLineEdge (n : Nat)
  | blankingStart (p : RPort) (c : Nat)
  | burstStart (p : RPort) (c : Nat)
  | burstEnd (p : RPort) (c : Nat)
  | blankingEnd (p : RPort) (c : Nat)
  | ackBurstStart (p : RPort) (c : Nat)
  | ackBurstEnd (p : RPort) (c : Nat)
  | feCfgApply (n : Nat)
  | startupCalDone (p : RPort) (converged : Bool)
  | calNotice (p : RPort)
  | gapNow (r : Requester) (p : RPort)
  | calGapStart (p : RPort)
  | calGapEnd (p : RPort) (cancOk : Bool)
  | dutyBucketBoundary
  | dwellSubbucketBoundary (p : RPort)
  | portCfgWrite (r : Requester) (p : RPort) (v : Word)
  -- lanes
  | detection (p : RPort) (ch mode freq quality power : Nat)
  | mergeWindowClose (p : RPort)
  | sfdFound (p : RPort) (lane lt : Nat)
  | sfdTimeout (p : RPort) (lane : Nat)
  | phrReceived (p : RPort) (lane : Nat) (phr : PhrData)
  | syncLost (p : RPort) (lane : Nat)
  | fcsDecision (p : RPort) (lane : Nat) (rx : RxEnd)
  | chLanesWrite (r : Requester) (p : RPort) (v : Word)
  | portLimitWrite (r : Requester) (p : RPort) (v : Word)
  -- pending list, uplink, pending pool
  | pendingListSet
  | pendingListClear
  | pendingListClearAll
  | pendingListQuery (r : Requester) (v : Word)
  | pendingUpdateCompletion (x : SideId)
  | rxFrameConsume (x : SideId)
  | ackWaitExpiry (x : SideId)
  | scheduledWindow (x : SideId)
  | parkedFrameExpiry (x : SideId)
  | pendingSetRetry (x : SideId)
  | winRead (r : Requester)
  | winWrite (r : Requester)
  | winDelete (r : Requester)
  | relayDecision (x : SideId)
  | reassemblyTimeout (x : SideId)
  | skimSweep (x : SideId)
  | ctxRead (r : Requester)
  | ctxWrite (r : Requester)
  -- tables
  | sanderVisit (x : SideId)
  | restart (r : Requester)
  | sanderEnWrite (r : Requester) (v : Word)
  | hashSeedWrite (r : Requester) (v : Word)
  | ntRead (x : SideId) (strand : Nat)
  | ntLock (x : SideId) (strand : Nat)
  | ntWrite (x : SideId) (strand : Nat)
  | ntDelete (x : SideId) (strand : Nat)
  | ntScan (x : SideId) (strand : Nat)
  | skimRead (x : SideId) (strand : Nat)
  | pcRead (x : SideId) (strand : Nat)
  | pcInsert (x : SideId) (strand : Nat)
  | pcDelete (x : SideId) (strand : Nat)
  | camMovesDone (x : SideId)
  | lockLong (x : SideId) (slot : Nat)
  -- keys
  | enrol (r : Requester)
  | remaskPass (x : SideId)
  | derivationComplete (x : SideId)
  | tenMapWrite (r : Requester) (v : Word)
  | keyInfo (x : SideId) (strand : Nat)
  | keyInvalidate (x : SideId) (strand : Nat)
  | tenInvalidate (x : SideId) (strand : Nat)
  | nodeInvalidate (x : SideId) (strand : Nat)
  | cacheFlush (x : SideId) (strand : Nat)
  | keyExport (x : SideId) (strand : Nat)
  | keyUpdate (x : SideId) (strand : Nat)
  -- tamper and debug
  | tamperTrip (source : Nat)
  | sideTamper (x : SideId)
  | loupeChallenge (r : Requester)
  | loupeOpen (r : Requester)
  | loupeClose (r : Requester)
  | loupeLockoutEnd
  | sideLoupeOpen (x : SideId)
  | sideLoupeClose (x : SideId)
  -- downlink and shaping
  | hostFrameItem (x : SideId) (strand : Nat)
  | ethFrameConsume (x : SideId)
  | releaseDecision (x : SideId) (carrier : Nat)
  | hostPortRelease (x : SideId) (port : Nat)
  | launchCompletion (x : SideId)
  | gateSwap (r : Requester)
  | gateAbort (r : Requester)
  | gateSwapApply (x : SideId) (carrier : Nat)
  | gateEnWrite (r : Requester) (v : Word)
  -- images
  | fwWrite (x : SideId) (strand : Nat)
  | fwCommit (x : SideId) (strand : Nat)
  | fwUpdate (x : SideId) (strand : Nat)
  | fwuSwap
  | fwConfirm (x : SideId) (strand : Nat)
  | trialExpired (x : SideId)
  | slotVerifyDone (x : SideId)
  | imgWrite (x : SideId) (strand : Nat)
  | imgCommit (x : SideId) (strand : Nat)
  | imgErase (x : SideId) (strand : Nat)
  | imgRead (x : SideId) (strand : Nat)
  | ibeStart (x : SideId) (strand : Nat)
  | ibeStop (x : SideId) (strand : Nat)
  | ibeLoadDone
  | symNext
  | reportAdd (v : Word)
  | ibeStopLt
  -- strands
  | strandPush (r : Requester) (v : Word)
  | cellWrite (r : Requester) (off : Nat) (data : List Byte)
  | pop (r : Requester)
  | mark (r : Requester)
  | rewind (r : Requester)
  | release (r : Requester)
  | dropRest (r : Requester)
  | flush (r : Requester)
  | strandEnable (r : Requester) (v : Word)
  | strandPopUnblock (x : SideId) (strand : Nat)
  | strandPushResume (x : SideId) (strand : Nat)
  -- dispatcher
  | create (x : SideId) (core : Nat) (arg0 arg1 : Nat)
  | resume (x : SideId) (core : Nat) (arg0 arg1 : Nat)
  | wait (x : SideId) (core : Nat) (arg0 arg1 : Nat)
  | trywait (x : SideId) (core : Nat) (arg0 arg1 : Nat)
  | signal (x : SideId) (core : Nat) (arg0 arg1 : Nat)
  | cancel (x : SideId) (core : Nat) (arg0 arg1 : Nat)
  | delete (x : SideId) (core : Nat) (arg0 arg1 : Nat)
  | yield (x : SideId) (core : Nat)
  | exit (x : SideId) (core : Nat)
  | setprio (x : SideId) (core : Nat) (arg0 arg1 : Nat)
  | objInit (x : SideId) (core : Nat) (arg0 arg1 : Nat)
  | dnext (x : SideId) (core : Nat)
  | coreEnWrite (r : Requester) (v : Word)
  | waitTimeout (x : SideId)
  | tsliceExpiry (x : SideId) (core : Nat)
  -- semaphores
  | semAcq (r : Requester) (n : Nat)
  | semRel (r : Requester) (n : Nat)
  | semForce (r : Requester) (v : Word)
  -- redundancy
  | sready (x : SideId)
  | grantWaitExpiry
  | renew (v : Word)
  | leaseExpiry
  | claspSwap (r : Requester)
  | swapMarker
  | selfCheckReport (x : SideId) (res : SelfCheck)
  | selfCheckTimeout (x : SideId)
  | outX (r : Requester) (x : SideId)
  | inX (r : Requester) (x : SideId)
  | recover (r : Requester)
  | pathClr (r : Requester)
  | transferMarker
  | refillCopyDone
  | join
  | refillRetry
  | drillStart
  | drillDwellEnd
  -- errors and disabling
  | memoryError (x : SideId) (loc : MemLoc) (correctable : Bool)
  | lossMarkerPush (x : SideId)
  | unitDisable (r : Requester) (page : Nat)
  | disableComplete (page : Nat)
  | unitEnable (r : Requester) (page : Nat)
  | stall (x : SideId) (strand : Nat)
  -- events and host ports
  | rearm (r : Requester) (second : Bool) (src : Nat)
  | modIntervalEnd (second : Bool) (vec : Nat)
  | msixUnmask (second : Bool) (vec : Nat)
  | hostPortReset (second : Bool) (kind : PortReset)
  | chainWrite (frame : List Byte)
  | chainRead (frame : List Byte)
  | fetch (frame : List Byte)
  | setAddress (frame : List Byte) (eni : Bool)
  | clrAddr (r : Requester)
  | winData (r : Requester) (write : Option Word)
  | ethFrameRx (second : Bool) (frame : List Byte) (fcsOk : Bool) (ts : Nat)
  | vidMapWrite (r : Requester) (second : Bool) (v : Word)
  | hbootData (r : Requester) (v : Word)
  | hbootGo (r : Requester)
  -- power, wake, PMBus
  | pdRequest (r : Requester) (v : Word)
  | quiesceDone
  | quiesceTimeout
  | pmbAck (status : Nat)
  | pmbTimeout
  | retentionScanDone (x : SideId) (lostBanks : Nat) (locketLost : Bool) (corrected : Nat)
  | wake (n : Nat)
  | wakeI2cMatch (addr : Nat)
  | wakeGo (v : Nat)
  | intClr (v : Nat)
  | rawCmd (r : Requester) (page : Nat) (v : Word)
  | pmbAlert (page : Nat)
  -- resets, clocks, pins
  | porstAssert
  | porstRelease (straps : Nat) (tamper : Nat)
  | imageVerifyDone (x : SideId) (slotOk : Bool)
  | wrst (tamper : Nat)
  | warm (r : Requester)
  | sideReset (r : Requester) (x : SideId)
  | x32Switch
  | clockLoss (c : ClockId)
  | gpioWrite (r : Requester) (dir : Bool) (v : Word)
  | ref10Valid
  | ethLinkChange (second : Bool) (up : Bool) (speed : Nat)
  | ethTxComplete (second : Bool) (ts : Nat)
  | adcClip (p : RPort)
  | rawDone (page : Nat) (nak pecErr : Bool) (data : Nat)
  | replicaDisagree (n : Nat) (holder token expiry : Nat)
  | railInRange (bank : Nat)
  deriving DecidableEq, Repr

end Sys2Proof
end

