-- ==== Sys2Proof/Config.lean ====
section
/-! DEFINITION. What an implementation fixes and what the spec leaves open: constants without a body, which no proof
can evaluate. Each is named in the assumption log. -/

namespace Sys2Proof.Config

open Sys2Proof

/-- FREE VALUE: the frequency correction that the servo reaches after a measurement; the servo's law is not given
(PLUMB.FREQ_ADJ, PLUMB.LOOP_BW). -/
opaque freqAdj : Nat → Int

/-- FREE VALUE: PLUMB.STAT.LOCKED after a measurement; the spec does not say when the servo counts as locked. -/
opaque servoLocked : Nat → Bool

/-- FREE VALUE: how far REF10_IN lies from 10 MHz, in ppm, at an observation of it (R43, R604). -/
opaque ref10Dev : Nat → Nat

/-- FREE VALUE: which free lane of the port a binding takes (R139 gives how many may bind, not which one). -/
opaque pickLane : Nat → Nat

/-- FREE VALUE: the gain that the AGC of a receiving port sets, in 2 dB steps, by port, LT and setpoint: it follows from the
signal at the ADC (R89). -/
opaque agcGain : Nat → Nat → Nat → Nat

/-- FREE VALUE: cancellation achieved per carrier after a calibration (RFx.CANC_STAT). -/
opaque cancStat : Nat → Nat

/-- FREE VALUE: the mean and the peak RSSI code of a channel that CHZ.RSSI reads (R90). -/
opaque rssiCode : Nat → Nat → Nat

/-- Config: how many bytes of the catch-up buffer an input takes (R433, R434). -/
opaque inputBytes : Nat → Nat

/-- Config: duration in ns of the preamble and SFD of a burst of codes 12 and 13: the standard gives it (R125), the spec
states no number. -/
opaque stdShrNs : Nat → Nat

/-- Config: duration in ns from the end of the SFD to the last symbol of a burst of codes 12 and 13, by mode, rate mode and
spreading as in PHY_OPT, and PSDU octets: the standard gives it (R341), the spec states no number. -/
opaque stdBodyNs : Nat → Nat → Nat → Nat

/-- Config: one octet period in ns of codes 12 and 13 (R137): the spec states no number. -/
opaque stdOctetNs : Nat → Nat

/-- Config: the minimum preamble for detection in ns of codes 12 to 14, "as the standard defines" (R140, R152). -/
opaque stdPreambleNs : Nat → Nat

/-- FREE VALUE: FREQ_OFS corrected by Plumb's frequency adjustment, from the adjustment, the channel centre in Hz and
the measured offset (R151); the spec does not give the formula. -/
opaque foCorrect : Int → Nat → Int → Int

/-- FREE VALUE: which FREE thread slot CREATE takes (R401 says that it takes one). -/
opaque pickThread : Nat → Nat

/-- FREE VALUE: which free frame cell is taken (R377 and its like say that one is). -/
opaque pickCell : Nat → Nat

/-- FREE VALUE: which global places a strand takes (R497 numbers them and does not say which are given). -/
opaque pickPlace : Nat → Nat

/-- FREE VALUE: a block of 255 bits of a PUF region at a power-up, by side, power-up and block (R253, R254): it follows from the
physical state of the region. -/
opaque pufBlock : Nat → Nat → Nat → Nat

/-- Config: the codeword of 255 bits of a message of 131 bits under the BCH code that corrects 18 errors (R254); the spec does not
say which code. -/
opaque bchCode : Nat → Nat

/-- FREE VALUE: the message that a block of more than 18 errors decodes to (R254). -/
opaque bchMiss : Nat → Nat

/-- Config: the 32-bit check value of a root (R254); the spec gives no function. -/
opaque rootCheck : List (BitVec 8) → Nat

/-- FREE VALUE: the tamper sources active at an LT (R306, R317). -/
opaque tamperNow : Nat → Nat

/-- FREE VALUE: which free way of a bucket an insertion takes (R228), by bucket and key; and which way of a Skim set
that holds no live entry (R205). -/
opaque pickWay : Nat → Nat → Nat

/-- FREE VALUE: an average whose step is not whole rounds up (R191, R227: the spec gives no rounding). -/
opaque roundUp : Nat → Nat → Nat → Bool

/-- Config: the Skim set of an originator and sequence number; the spec does not give the hash (R201). -/
opaque skimSet : Nat → Nat → Nat

/-- FREE VALUE: the MAC sequence number of a frame that a side builds, by the count of its frames. -/
opaque macSeq : Nat → Nat

/-- Config: the strand of frames of class HOST; R163 says a host strand and names no register. -/
opaque hostClassStrand : Nat

/-- Config: the descriptor fields (service, AR, PARK, PHY_OPT, TX_LEVEL, FE_PROFILE, TTL, SEL) of a packet that reaches
Trowel without a host descriptor: an uplink or Ethernet packet that the CAM routes on. The spec names none. Its FE_PROFILE is also
that of relay frames (R211) and of the symbol frames of a broadcast, whose registers hold none. -/
opaque routedDesc : BitVec 256

/-- FREE VALUE: the completion code of a host packet that its route delivers to a strand (R250, R251): the table of
completion codes gives none. -/
opaque strandRouteCode : Nat

/-- FREE VALUE: which of the shortest encodings of a header the compressor takes, by source and destination address
(R218 asks for a shortest one). -/
opaque pickEncoding : Nat → Nat → Nat

/-- Config: the fused operator key hash, HALL.OPK_HASH (R302). -/
opaque opkHash : List Byte

/-- Config: how many frames an Ethernet MAC holds beyond one (R331 asks for room and the spec gives no number). -/
opaque ethTxRoom : Nat

/-- FREE VALUE: the status with which a disabled unit refuses a command or a frame (R458 names no code for it). -/
opaque refusalStatus : Nat

/-- Config: the fused firmware key hash, MRAM.FWK_HASH (R356). -/
opaque fwkHash : List Byte

/-- Config: a repair symbol of RFC 6330, from K, T, the ESI and the source octets of its block. The spec names the RFC and
does not repeat its code. -/
opaque repairSymbol : Nat → Nat → Nat → List Byte → List Byte

/-- Config: the number of intermediate symbols of a block of K source symbols (RFC 6330). -/
opaque interSymbols : Nat → Nat

/-- Config: HALL.SERIAL of a side, fused at manufacture (R300): 1 side A, 2 side B. -/
opaque serial : Nat → Nat

/-- Config: the fused debug key hash of a KEYSEL, 0 operator, 1 vendor (R314). -/
opaque dbgHash : Nat → List Byte

/-- FREE VALUE: whether a firmware slot that nothing has written verifies: what the part leaves the factory with is not
given (R357). -/
opaque factorySlot : Nat → Bool

/-- Input from outside: TCK, TMS, TDI and TRST_N in bits 0 to 3, by LT (R313). -/
opaque jtagPins : Nat → BitVec 4

/-- Config: bits of the JTAG instruction register; the boundary-scan description file gives it (R576). -/
opaque jtagIrLen : Nat

/-- Config: the JTAG instruction codes of IDCODE, SAMPLE/PRELOAD and EXTEST, 1 to 3; the description file gives them (R576). -/
opaque jtagCode : Nat → Nat

/-- Config: the identification code of a variant, 0 KL9620, 1 KL9640, 2 KL9680; the description file gives it (R576). -/
opaque jtagId : Nat → Nat

/-- Input from outside: the level of a ball of the boundary-scan register that the part does not drive, by LT and ball (R576). -/
opaque scanLevel : Nat → Nat → Bool

/-- Input from outside: the levels of the GPIO balls that the part does not drive, by LT (R580). -/
opaque ballLevels : Nat → Nat

/-- FREE VALUE: the reason with which a request that names a domain with FAULT set is refused (R541 names none). -/
opaque faultReason : Nat

/-- Config: which bank of its region a frame cell or a parked frame lies in (R450; the spec gives no layout of the regions
of R14 over their banks). -/
opaque memBank : Nat → Nat

end Sys2Proof.Config
end

