-- ==== Sys2Proof/Machine/RegMap.lean ====
section
/-! DEFINITION. The register maps of the pages: every register row of the spec's page tables with its offset,
repetition, level, reset value and fields (R467, R474 and the page table of each subject chapter). -/

namespace Sys2Proof.Machine

/-- Access codes of R10. -/
inductive Acc where
  | rw | ro | w1c | w1s | wo | rwl
  deriving DecidableEq, Repr

/-- One field of a register: bits hi down to lo, its access code (R10), and where the map states a range the
limits to which R602 moves a written value. -/
structure RegField where
  hi : Nat
  lo : Nat
  acc : Acc
  lim : Option (Nat × Nat)
  deriving DecidableEq, Repr

/-- One row of a page table: offset of its first register, how many registers the row stands for and their
spacing, the expert level (R6), the reset value and the fields. -/
structure RegRow where
  off : Nat
  cnt : Nat
  stride : Nat
  expert : Bool
  reset : Nat
  fields : List RegField
  deriving DecidableEq, Repr

/-- The kinds of page of R474. -/
inductive PageKind where
  | lath | plumb | tpo | rf | chz | duty | facet | air | pend | dml | skim | lowpan | node | pcam | sander | locket | filig | sec | hall | tamp | loupe | trowel | gate | mram | ibe | strand | disp | sem | clasp | bezel | err | evtc | evts | host | chain | eth | pd | pmb | wake | clk | rst
  deriving DecidableEq, Repr

/-- The LATH page table. Part 1 of 1 (spec file 02_network_time.md). -/
def rows_lath_0 : List RegRow :=
  [ ⟨0x040, 1, 0, false, 0x0, [⟨31, 0, .ro, none⟩]⟩,
    ⟨0x044, 1, 0, false, 0x0, [⟨31, 0, .ro, none⟩]⟩,
    ⟨0x048, 1, 0, false, 0x1, [⟨0, 0, .ro, none⟩, ⟨1, 1, .ro, none⟩, ⟨2, 2, .ro, none⟩, ⟨3, 3, .ro, none⟩, ⟨6, 4, .ro, none⟩, ⟨7, 7, .ro, none⟩]⟩,
    ⟨0x04C, 1, 0, false, 0x0, [⟨0, 0, .w1c, none⟩, ⟨1, 1, .w1c, none⟩, ⟨2, 2, .w1c, none⟩, ⟨3, 3, .w1c, none⟩, ⟨4, 4, .w1c, none⟩, ⟨5, 5, .w1c, none⟩]⟩,
    ⟨0x050, 1, 0, false, 0x0, [⟨0, 0, .wo, none⟩, ⟨1, 1, .wo, none⟩]⟩,
    ⟨0x100, 32, 16, false, 0x0, [⟨31, 0, .rw, none⟩]⟩,
    ⟨0x104, 32, 16, false, 0x0, [⟨7, 0, .rw, none⟩]⟩,
    ⟨0x108, 32, 16, false, 0x0, [⟨0, 0, .rw, none⟩, ⟨1, 1, .rw, none⟩, ⟨2, 2, .w1c, none⟩, ⟨3, 3, .w1c, none⟩]⟩,
    ⟨0x400, 1, 0, true, 0x1, [⟨0, 0, .rw, none⟩]⟩ ]

/-- All rows: The LATH page table. -/
def rows_lath : List RegRow := rows_lath_0

/-- The PLUMB page table. Part 1 of 2 (spec file 02_network_time.md). -/
def rows_plumb_0 : List RegRow :=
  [ ⟨0x040, 1, 0, false, 0x58D1, [⟨2, 0, .rw, none⟩, ⟨5, 3, .rw, none⟩, ⟨8, 6, .rw, none⟩, ⟨11, 9, .rw, none⟩, ⟨14, 12, .rw, none⟩]⟩,
    ⟨0x044, 1, 0, false, 0xF4240, [⟨29, 0, .rw, some (1000, 1000000000)⟩]⟩,
    ⟨0x048, 1, 0, false, 0x64, [⟨8, 0, .rw, some (1, 500)⟩]⟩,
    ⟨0x04C, 1, 0, false, 0x0, [⟨5, 1, .ro, none⟩, ⟨8, 8, .ro, none⟩]⟩,
    ⟨0x050, 1, 0, false, 0x0, [⟨31, 0, .ro, none⟩]⟩,
    ⟨0x054, 1, 0, false, 0x0, [⟨31, 0, .ro, none⟩]⟩,
    ⟨0x058, 1, 0, false, 0x0, [⟨31, 0, .ro, none⟩]⟩,
    ⟨0x05C, 1, 0, false, 0x0, [⟨31, 0, .ro, none⟩]⟩,
    ⟨0x060, 1, 0, false, 0x0, [⟨31, 0, .rw, none⟩]⟩,
    ⟨0x064, 1, 0, false, 0x0, [⟨31, 0, .rw, none⟩]⟩,
    ⟨0x068, 1, 0, false, 0x0, [⟨31, 0, .rw, none⟩]⟩,
    ⟨0x06C, 1, 0, false, 0x0, [⟨2, 0, .rw, none⟩]⟩ ]

/-- The PLUMB page table. Part 2 of 2 (spec file 02_network_time.md). -/
def rows_plumb_1 : List RegRow :=
  [ ⟨0x070, 1, 0, false, 0x3C0A000C, [⟨7, 0, .rw, some (2, 240)⟩, ⟨23, 16, .rw, none⟩, ⟨31, 24, .rw, none⟩]⟩,
    ⟨0x080, 1, 0, false, 0x0, [⟨31, 0, .wo, none⟩]⟩,
    ⟨0x400, 1, 0, true, 0x4, [⟨3, 0, .rw, none⟩]⟩,
    ⟨0x404, 1, 0, true, 0x0, [⟨31, 0, .rw, none⟩]⟩,
    ⟨0x408, 1, 0, true, 0x3E8, [⟨31, 0, .rw, none⟩]⟩,
    ⟨0x40C, 1, 0, true, 0x14, [⟨31, 0, .rw, none⟩]⟩ ]

/-- All rows: The PLUMB page table. -/
def rows_plumb : List RegRow := rows_plumb_0 ++ rows_plumb_1

/-- The TPO page table. Part 1 of 2 (spec file 02_network_time.md, 20_pins_package.md). -/
def rows_tpo_0 : List RegRow :=
  [ ⟨0x040, 4, 32, false, 0x0, [⟨0, 0, .rw, none⟩, ⟨1, 1, .rw, none⟩, ⟨2, 2, .rw, none⟩]⟩,
    ⟨0x044, 4, 32, false, 0x0, [⟨31, 0, .rw, none⟩]⟩,
    ⟨0x048, 4, 32, false, 0x0, [⟨7, 0, .rw, none⟩]⟩,
    ⟨0x04C, 4, 32, false, 0x0, [⟨31, 0, .rw, none⟩]⟩,
    ⟨0x050, 4, 32, false, 0x1, [⟨23, 0, .rw, some (1, 16777215)⟩]⟩,
    ⟨0x054, 4, 32, false, 0x0, [⟨0, 0, .ro, none⟩, ⟨1, 1, .w1c, none⟩, ⟨2, 2, .w1c, none⟩, ⟨3, 3, .w1c, none⟩, ⟨31, 16, .ro, none⟩]⟩,
    ⟨0x400, 4, 4, true, 0x0, [⟨7, 0, .rw, none⟩]⟩,
    ⟨0x100, 1, 0, false, 0x0, [⟨15, 0, .rw, none⟩, ⟨31, 16, .rw, none⟩]⟩,
    ⟨0x104, 1, 0, false, 0x0, [⟨15, 0, .rw, none⟩, ⟨31, 16, .rw, none⟩]⟩,
    ⟨0x108, 1, 0, false, 0x0, [⟨15, 0, .ro, none⟩]⟩,
    ⟨0x10C, 1, 0, false, 0x0, [⟨15, 0, .rwl, none⟩]⟩,
    ⟨0x110, 1, 0, false, 0xFFFF, [⟨15, 0, .rw, none⟩, ⟨31, 16, .rw, none⟩]⟩ ]

/-- The TPO page table. Part 2 of 2 (spec file 02_network_time.md, 20_pins_package.md). -/
def rows_tpo_1 : List RegRow :=
  [ ⟨0x114, 1, 0, false, 0x0, [⟨15, 0, .rw, none⟩]⟩,
    ⟨0x118, 1, 0, false, 0x0, [⟨15, 0, .w1c, none⟩]⟩ ]

/-- All rows: The TPO page table. -/
def rows_tpo : List RegRow := rows_tpo_0 ++ rows_tpo_1

/-- The RF page table. Part 1 of 3 (spec file 03_radio_ports.md). -/
def rows_rf_0 : List RegRow :=
  [ ⟨0x040, 1, 0, false, 0x11DF0, [⟨16, 0, .rw, none⟩]⟩,
    ⟨0x044, 1, 0, false, 0xC, [⟨0, 0, .rw, none⟩, ⟨1, 1, .rw, none⟩, ⟨2, 2, .rw, none⟩, ⟨3, 3, .rw, none⟩]⟩,
    ⟨0x048, 1, 0, false, 0x8, [⟨0, 0, .ro, none⟩, ⟨1, 1, .ro, none⟩, ⟨2, 2, .ro, none⟩, ⟨3, 3, .ro, none⟩, ⟨7, 4, .ro, none⟩, ⟨13, 8, .ro, none⟩]⟩,
    ⟨0x04C, 1, 0, false, 0xC0000, [⟨0, 0, .rw, none⟩, ⟨13, 8, .rw, none⟩, ⟨21, 16, .rw, none⟩]⟩,
    ⟨0x050, 1, 0, false, 0x7F, [⟨3, 0, .rw, none⟩, ⟨5, 4, .rw, none⟩, ⟨6, 6, .rw, none⟩, ⟨11, 8, .rw, none⟩]⟩,
    ⟨0x054, 1, 0, false, 0x50, [⟨8, 0, .rw, none⟩]⟩,
    ⟨0x058, 1, 0, false, 0x0, [⟨15, 0, .rw, none⟩]⟩,
    ⟨0x05C, 1, 0, false, 0x0, [⟨15, 0, .rw, none⟩]⟩,
    ⟨0x060, 1, 0, false, 0x0, [⟨7, 0, .rw, none⟩]⟩,
    ⟨0x064, 1, 0, false, 0x258, [⟨15, 0, .rw, none⟩, ⟨31, 16, .rw, none⟩]⟩,
    ⟨0x068, 1, 0, false, 0x0, [⟨0, 0, .wo, none⟩]⟩,
    ⟨0x06C, 1, 0, false, 0x0, [⟨0, 0, .wo, none⟩]⟩ ]

/-- The RF page table. Part 2 of 3 (spec file 03_radio_ports.md). -/
def rows_rf_1 : List RegRow :=
  [ ⟨0x080, 1, 0, false, 0x0, [⟨31, 0, .ro, none⟩]⟩,
    ⟨0x084, 1, 0, false, 0x0, [⟨31, 0, .ro, none⟩]⟩,
    ⟨0x088, 1, 0, false, 0x0, [⟨31, 0, .ro, none⟩]⟩,
    ⟨0x08C, 1, 0, false, 0x0, [⟨31, 0, .ro, none⟩]⟩,
    ⟨0x090, 1, 0, false, 0x0, [⟨31, 0, .ro, none⟩]⟩,
    ⟨0x094, 1, 0, false, 0x0, [⟨31, 0, .ro, none⟩]⟩,
    ⟨0x098, 1, 0, false, 0x0, [⟨31, 0, .ro, none⟩]⟩,
    ⟨0x09C, 1, 0, false, 0x0, [⟨31, 0, .ro, none⟩]⟩,
    ⟨0x0A0, 1, 0, false, 0x0, [⟨31, 0, .ro, none⟩]⟩,
    ⟨0x0A4, 1, 0, false, 0x0, [⟨31, 0, .ro, none⟩]⟩,
    ⟨0x0A8, 1, 0, false, 0x0, [⟨31, 0, .ro, none⟩]⟩,
    ⟨0x0AC, 1, 0, false, 0x0, [⟨31, 0, .ro, none⟩]⟩ ]

/-- The RF page table. Part 3 of 3 (spec file 03_radio_ports.md). -/
def rows_rf_2 : List RegRow :=
  [ ⟨0x0B0, 1, 0, false, 0x0, [⟨31, 0, .ro, none⟩]⟩,
    ⟨0x200, 24, 4, false, 0x3, [⟨1, 0, .rw, none⟩, ⟨4, 2, .rw, none⟩, ⟨5, 5, .rw, none⟩, ⟨6, 6, .rw, none⟩, ⟨10, 7, .rw, none⟩, ⟨12, 11, .rw, none⟩, ⟨23, 16, .rw, none⟩, ⟨31, 24, .rw, none⟩]⟩,
    ⟨0x400, 1, 0, true, 0x4, [⟨3, 0, .rw, none⟩]⟩,
    ⟨0x404, 1, 0, true, 0x0, [⟨31, 0, .ro, none⟩]⟩,
    ⟨0x408, 1, 0, true, 0x808, [⟨7, 0, .rw, none⟩, ⟨15, 8, .rw, none⟩]⟩ ]

/-- All rows: The RF page table. -/
def rows_rf : List RegRow := rows_rf_0 ++ rows_rf_1 ++ rows_rf_2

/-- The CHZ page table. Part 1 of 2 (spec file 03_radio_ports.md). -/
def rows_chz_0 : List RegRow :=
  [ ⟨0x040, 1, 0, false, 0x0, [⟨7, 0, .rw, none⟩]⟩,
    ⟨0x044, 1, 0, false, 0x7C00000, [⟨11, 0, .rw, none⟩, ⟨18, 12, .rw, none⟩, ⟨19, 19, .rw, none⟩, ⟨20, 20, .rw, none⟩, ⟨21, 21, .rw, none⟩, ⟨26, 22, .rw, none⟩]⟩,
    ⟨0x048, 1, 0, false, 0x0, [⟨31, 0, .rw, none⟩]⟩,
    ⟨0x04C, 1, 0, false, 0x55, [⟨7, 0, .rw, none⟩, ⟨23, 8, .rw, none⟩]⟩,
    ⟨0x050, 1, 0, false, 0x0, [⟨0, 0, .wo, none⟩, ⟨1, 1, .wo, none⟩]⟩,
    ⟨0x054, 1, 0, false, 0x0, [⟨2, 0, .ro, none⟩]⟩,
    ⟨0x058, 1, 0, false, 0x0, [⟨10, 0, .ro, none⟩, ⟨26, 16, .ro, none⟩]⟩,
    ⟨0x05C, 1, 0, false, 0x3200A0, [⟨15, 0, .rw, none⟩, ⟨31, 16, .rw, none⟩]⟩,
    ⟨0x060, 1, 0, false, 0x4E20, [⟨15, 0, .rw, none⟩]⟩,
    ⟨0x064, 1, 0, false, 0x0, [⟨7, 0, .rw, none⟩]⟩,
    ⟨0x068, 1, 0, false, 0x0, [⟨8, 0, .ro, none⟩, ⟨24, 16, .ro, none⟩]⟩,
    ⟨0x06C, 1, 0, false, 0x0, [⟨7, 0, .rw, none⟩]⟩ ]

/-- The CHZ page table. Part 2 of 2 (spec file 03_radio_ports.md). -/
def rows_chz_1 : List RegRow :=
  [ ⟨0x070, 8, 4, false, 0x0, [⟨31, 0, .ro, none⟩]⟩,
    ⟨0x400, 1, 0, true, 0x4, [⟨3, 0, .rw, none⟩]⟩ ]

/-- All rows: The CHZ page table. -/
def rows_chz : List RegRow := rows_chz_0 ++ rows_chz_1

/-- The DUTY page table. Part 1 of 1 (spec file 03_radio_ports.md). -/
def rows_duty_0 : List RegRow :=
  [ ⟨0x040, 16, 16, false, 0x0, [⟨0, 0, .rw, none⟩, ⟨2, 1, .rw, none⟩]⟩,
    ⟨0x044, 16, 16, false, 0x0, [⟨21, 0, .rw, none⟩]⟩,
    ⟨0x048, 16, 16, false, 0x0, [⟨21, 0, .ro, none⟩]⟩,
    ⟨0x04C, 16, 16, false, 0x0, [⟨31, 0, .ro, none⟩]⟩,
    ⟨0x400, 1, 0, true, 0x0, [⟨5, 0, .ro, none⟩]⟩ ]

/-- All rows: The DUTY page table. -/
def rows_duty : List RegRow := rows_duty_0

/-- The FACET page table. Part 1 of 3 (spec file 04_facet_lanes.md). -/
def rows_facet_0 : List RegRow :=
  [ ⟨0x040, 1, 0, false, 0x2, [⟨0, 0, .rw, none⟩, ⟨1, 1, .rw, none⟩]⟩,
    ⟨0x044, 1, 0, false, 0xC0, [⟨8, 0, .rw, none⟩]⟩,
    ⟨0x048, 1, 0, false, 0x20, [⟨9, 0, .rw, some (1, 1023)⟩]⟩,
    ⟨0x04C, 1, 0, false, 0x0, [⟨7, 0, .rw, none⟩]⟩,
    ⟨0x050, 1, 0, false, 0x0, [⟨1, 0, .rw, none⟩, ⟨5, 4, .rw, none⟩]⟩,
    ⟨0x054, 1, 0, false, 0x0, [⟨8, 0, .ro, none⟩, ⟨24, 16, .ro, none⟩]⟩,
    ⟨0x058, 1, 0, false, 0x0, [⟨8, 0, .rw, none⟩]⟩,
    ⟨0x05C, 1, 0, false, 0x0, [⟨0, 0, .wo, none⟩]⟩,
    ⟨0x060, 1, 0, false, 0x0, [⟨8, 0, .ro, none⟩, ⟨24, 16, .ro, none⟩]⟩,
    ⟨0x080, 1, 0, false, 0x0, [⟨31, 0, .ro, none⟩]⟩,
    ⟨0x084, 1, 0, false, 0x0, [⟨31, 0, .ro, none⟩]⟩,
    ⟨0x088, 1, 0, false, 0x0, [⟨31, 0, .ro, none⟩]⟩ ]

/-- The FACET page table. Part 2 of 3 (spec file 04_facet_lanes.md). -/
def rows_facet_1 : List RegRow :=
  [ ⟨0x08C, 1, 0, false, 0x0, [⟨31, 0, .ro, none⟩]⟩,
    ⟨0x090, 1, 0, false, 0x0, [⟨31, 0, .ro, none⟩]⟩,
    ⟨0x094, 1, 0, false, 0x0, [⟨31, 0, .ro, none⟩]⟩,
    ⟨0x098, 1, 0, false, 0x0, [⟨31, 0, .ro, none⟩]⟩,
    ⟨0x09C, 1, 0, false, 0x0, [⟨31, 0, .ro, none⟩]⟩,
    ⟨0x0A0, 1, 0, false, 0x0, [⟨31, 0, .ro, none⟩]⟩,
    ⟨0x0A4, 1, 0, false, 0x0, [⟨31, 0, .ro, none⟩]⟩,
    ⟨0x0A8, 1, 0, false, 0x0, [⟨31, 0, .ro, none⟩]⟩,
    ⟨0x0AC, 1, 0, false, 0x0, [⟨31, 0, .ro, none⟩]⟩,
    ⟨0x0B0, 1, 0, false, 0x0, [⟨31, 0, .ro, none⟩]⟩,
    ⟨0x0B4, 1, 0, false, 0x0, [⟨31, 0, .ro, none⟩]⟩,
    ⟨0x0B8, 1, 0, false, 0x0, [⟨31, 0, .ro, none⟩]⟩ ]

/-- The FACET page table. Part 3 of 3 (spec file 04_facet_lanes.md). -/
def rows_facet_2 : List RegRow :=
  [ ⟨0x0BC, 1, 0, false, 0x0, [⟨31, 0, .ro, none⟩]⟩,
    ⟨0x400, 1, 0, true, 0x20, [⟨7, 0, .rw, none⟩]⟩,
    ⟨0x404, 1, 0, true, 0xC, [⟨5, 0, .rw, none⟩]⟩,
    ⟨0x408, 1, 0, true, 0x0, [⟨7, 0, .rw, none⟩]⟩ ]

/-- All rows: The FACET page table. -/
def rows_facet : List RegRow := rows_facet_0 ++ rows_facet_1 ++ rows_facet_2

/-- The AIR page table. Part 1 of 3 (spec file 05_air_access.md). -/
def rows_air_0 : List RegRow :=
  [ ⟨0x040, 1, 0, false, 0x30, [⟨0, 0, .rw, none⟩, ⟨1, 1, .rw, none⟩, ⟨4, 4, .rw, none⟩, ⟨5, 5, .rw, none⟩]⟩,
    ⟨0x044, 1, 0, false, 0x0, [⟨15, 0, .rw, none⟩]⟩,
    ⟨0x048, 1, 0, false, 0x0, [⟨5, 0, .rw, none⟩, ⟨13, 8, .rw, none⟩, ⟨21, 16, .rw, none⟩]⟩,
    ⟨0x04C, 1, 0, false, 0x0, [⟨23, 0, .rw, none⟩]⟩,
    ⟨0x050, 1, 0, false, 0x0, [⟨9, 0, .ro, none⟩, ⟨25, 16, .ro, none⟩]⟩,
    ⟨0x054, 1, 0, false, 0x0, [⟨15, 0, .ro, none⟩, ⟨31, 16, .ro, none⟩]⟩,
    ⟨0x058, 1, 0, false, 0x0, [⟨31, 0, .rw, none⟩]⟩,
    ⟨0x05C, 1, 0, false, 0x0, [⟨31, 0, .rw, none⟩]⟩,
    ⟨0x060, 1, 0, false, 0x0, [⟨0, 0, .rw, none⟩, ⟨1, 1, .wo, none⟩]⟩,
    ⟨0x064, 1, 0, false, 0x0, [⟨0, 0, .ro, none⟩, ⟨1, 1, .ro, none⟩]⟩,
    ⟨0x068, 1, 0, false, 0x0, [⟨0, 0, .wo, none⟩]⟩,
    ⟨0x080, 1, 0, false, 0x0, [⟨31, 0, .ro, none⟩]⟩ ]

/-- The AIR page table. Part 2 of 3 (spec file 05_air_access.md). -/
def rows_air_1 : List RegRow :=
  [ ⟨0x084, 1, 0, false, 0x0, [⟨31, 0, .ro, none⟩]⟩,
    ⟨0x088, 1, 0, false, 0x0, [⟨31, 0, .ro, none⟩]⟩,
    ⟨0x08C, 1, 0, false, 0x0, [⟨31, 0, .ro, none⟩]⟩,
    ⟨0x090, 1, 0, false, 0x0, [⟨31, 0, .ro, none⟩]⟩,
    ⟨0x094, 1, 0, false, 0x0, [⟨31, 0, .ro, none⟩]⟩,
    ⟨0x098, 1, 0, false, 0x0, [⟨31, 0, .ro, none⟩]⟩,
    ⟨0x09C, 1, 0, false, 0x0, [⟨31, 0, .ro, none⟩]⟩,
    ⟨0x0A0, 1, 0, false, 0x0, [⟨31, 0, .ro, none⟩]⟩,
    ⟨0x0A4, 1, 0, false, 0x0, [⟨31, 0, .ro, none⟩]⟩,
    ⟨0x0A8, 1, 0, false, 0x0, [⟨31, 0, .ro, none⟩]⟩,
    ⟨0x0AC, 1, 0, false, 0x0, [⟨31, 0, .ro, none⟩]⟩,
    ⟨0x0B0, 1, 0, false, 0x0, [⟨31, 0, .ro, none⟩]⟩ ]

/-- The AIR page table. Part 3 of 3 (spec file 05_air_access.md). -/
def rows_air_2 : List RegRow :=
  [ ⟨0x100, 16, 16, false, 0x0, [⟨31, 0, .rw, none⟩]⟩,
    ⟨0x104, 16, 16, false, 0x0, [⟨31, 0, .rw, none⟩]⟩,
    ⟨0x108, 16, 16, false, 0x0, [⟨0, 0, .rw, none⟩, ⟨1, 1, .rw, none⟩]⟩,
    ⟨0x400, 1, 0, true, 0x3E8, [⟨10, 0, .rw, some (500, 2000)⟩]⟩,
    ⟨0x404, 1, 0, true, 0x8, [⟨7, 0, .rw, some (4, 255)⟩]⟩,
    ⟨0x408, 1, 0, true, 0x0, [⟨0, 0, .rw, none⟩, ⟨1, 1, .rw, none⟩]⟩ ]

/-- All rows: The AIR page table. -/
def rows_air : List RegRow := rows_air_0 ++ rows_air_1 ++ rows_air_2

/-- The PEND page table. Part 1 of 4 (spec file 05_air_access.md). -/
def rows_pend_0 : List RegRow :=
  [ ⟨0x040, 1, 0, false, 0x240, [⟨0, 0, .rw, none⟩, ⟨1, 1, .rw, none⟩, ⟨2, 2, .rw, none⟩, ⟨7, 4, .rw, none⟩, ⟨11, 8, .rw, none⟩]⟩,
    ⟨0x044, 1, 0, false, 0x1388, [⟨15, 0, .rw, some (500, 65535)⟩]⟩,
    ⟨0x048, 1, 0, false, 0x4E20, [⟨19, 0, .rw, none⟩]⟩,
    ⟨0x04C, 1, 0, false, 0x15180, [⟨23, 0, .rw, none⟩]⟩,
    ⟨0x050, 1, 0, false, 0x10, [⟨7, 0, .rw, none⟩]⟩,
    ⟨0x054, 1, 0, false, 0x1F4, [⟨15, 0, .rw, none⟩]⟩,
    ⟨0x058, 1, 0, false, 0xC8, [⟨15, 0, .rw, none⟩]⟩,
    ⟨0x05C, 1, 0, false, 0xC83220, [⟨7, 0, .rw, none⟩, ⟨15, 8, .rw, none⟩, ⟨31, 16, .rw, none⟩]⟩,
    ⟨0x060, 1, 0, false, 0x0, [⟨15, 0, .ro, none⟩, ⟨31, 16, .ro, none⟩]⟩,
    ⟨0x064, 1, 0, false, 0x0, [⟨15, 0, .ro, none⟩, ⟨31, 16, .ro, none⟩]⟩,
    ⟨0x068, 1, 0, false, 0x0, [⟨0, 0, .wo, none⟩]⟩,
    ⟨0x080, 1, 0, false, 0x0, [⟨31, 0, .ro, none⟩]⟩ ]

/-- The PEND page table. Part 2 of 4 (spec file 05_air_access.md). -/
def rows_pend_1 : List RegRow :=
  [ ⟨0x084, 1, 0, false, 0x0, [⟨31, 0, .ro, none⟩]⟩,
    ⟨0x088, 1, 0, false, 0x0, [⟨31, 0, .ro, none⟩]⟩,
    ⟨0x08C, 1, 0, false, 0x0, [⟨31, 0, .ro, none⟩]⟩,
    ⟨0x090, 1, 0, false, 0x0, [⟨31, 0, .ro, none⟩]⟩,
    ⟨0x094, 1, 0, false, 0x0, [⟨31, 0, .ro, none⟩]⟩,
    ⟨0x098, 1, 0, false, 0x0, [⟨31, 0, .ro, none⟩]⟩,
    ⟨0x09C, 1, 0, false, 0x0, [⟨31, 0, .ro, none⟩]⟩,
    ⟨0x0A0, 1, 0, false, 0x0, [⟨31, 0, .ro, none⟩]⟩,
    ⟨0x0A4, 1, 0, false, 0x0, [⟨31, 0, .ro, none⟩]⟩,
    ⟨0x0A8, 1, 0, false, 0x0, [⟨31, 0, .ro, none⟩]⟩,
    ⟨0x0AC, 1, 0, false, 0x0, [⟨31, 0, .ro, none⟩]⟩,
    ⟨0x0B0, 1, 0, false, 0x0, [⟨31, 0, .ro, none⟩]⟩ ]

/-- The PEND page table. Part 3 of 4 (spec file 05_air_access.md). -/
def rows_pend_2 : List RegRow :=
  [ ⟨0x0B4, 1, 0, false, 0x0, [⟨31, 0, .ro, none⟩]⟩,
    ⟨0x0B8, 1, 0, false, 0x0, [⟨31, 0, .ro, none⟩]⟩,
    ⟨0x0BC, 1, 0, false, 0x0, [⟨31, 0, .ro, none⟩]⟩,
    ⟨0x100, 1, 0, false, 0x0, [⟨13, 0, .rw, none⟩]⟩,
    ⟨0x104, 1, 0, false, 0x0, [⟨31, 0, .rw, none⟩]⟩,
    ⟨0x108, 1, 0, false, 0x0, [⟨31, 0, .rw, none⟩]⟩,
    ⟨0x10C, 1, 0, false, 0x0, [⟨31, 0, .rw, none⟩]⟩,
    ⟨0x110, 1, 0, false, 0x0, [⟨31, 0, .rw, none⟩]⟩,
    ⟨0x114, 1, 0, false, 0x0, [⟨19, 0, .rw, none⟩]⟩,
    ⟨0x118, 1, 0, false, 0x0, [⟨31, 0, .rw, none⟩]⟩,
    ⟨0x11C, 1, 0, false, 0x0, [⟨31, 0, .rw, none⟩]⟩,
    ⟨0x120, 1, 0, false, 0x0, [⟨31, 0, .rw, none⟩]⟩ ]

/-- The PEND page table. Part 4 of 4 (spec file 05_air_access.md). -/
def rows_pend_3 : List RegRow :=
  [ ⟨0x124, 1, 0, false, 0x0, [⟨0, 0, .wo, none⟩, ⟨1, 1, .wo, none⟩, ⟨2, 2, .wo, none⟩]⟩,
    ⟨0x128, 1, 0, false, 0x0, [⟨1, 0, .ro, none⟩, ⟨30, 16, .ro, none⟩]⟩,
    ⟨0x400, 1, 0, true, 0x1, [⟨2, 0, .rw, none⟩]⟩ ]

/-- All rows: The PEND page table. -/
def rows_pend : List RegRow := rows_pend_0 ++ rows_pend_1 ++ rows_pend_2 ++ rows_pend_3

/-- The DML page table. Part 1 of 3 (spec file 06_mesh_relay.md). -/
def rows_dml_0 : List RegRow :=
  [ ⟨0x040, 1, 0, false, 0x0, [⟨0, 0, .rw, none⟩, ⟨3, 1, .rw, none⟩, ⟨13, 8, .rw, none⟩]⟩,
    ⟨0x044, 1, 0, false, 0x0, [⟨31, 0, .rw, none⟩]⟩,
    ⟨0x048, 1, 0, false, 0x8, [⟨3, 0, .rw, none⟩]⟩,
    ⟨0x04C, 1, 0, false, 0x6405, [⟨7, 0, .rw, none⟩, ⟨23, 8, .rw, some (0, 10000)⟩]⟩,
    ⟨0x050, 1, 0, false, 0x2, [⟨3, 0, .rw, none⟩]⟩,
    ⟨0x054, 1, 0, false, 0x0, [⟨15, 0, .ro, none⟩]⟩,
    ⟨0x058, 1, 0, false, 0x0, [⟨0, 0, .wo, none⟩]⟩,
    ⟨0x060, 1, 0, false, 0x0, [⟨7, 0, .rw, none⟩, ⟨12, 8, .rw, none⟩, ⟨23, 16, .rw, none⟩, ⟨29, 24, .rw, none⟩, ⟨31, 31, .rw, none⟩]⟩,
    ⟨0x064, 1, 0, false, 0x0, [⟨7, 0, .rw, none⟩, ⟨12, 8, .rw, none⟩, ⟨23, 16, .rw, none⟩, ⟨29, 24, .rw, none⟩, ⟨31, 31, .rw, none⟩]⟩,
    ⟨0x068, 1, 0, false, 0x0, [⟨7, 0, .rw, none⟩, ⟨12, 8, .rw, none⟩, ⟨23, 16, .rw, none⟩, ⟨29, 24, .rw, none⟩, ⟨31, 31, .rw, none⟩]⟩,
    ⟨0x080, 1, 0, false, 0x0, [⟨31, 0, .ro, none⟩]⟩,
    ⟨0x084, 1, 0, false, 0x0, [⟨31, 0, .ro, none⟩]⟩ ]

/-- The DML page table. Part 2 of 3 (spec file 06_mesh_relay.md). -/
def rows_dml_1 : List RegRow :=
  [ ⟨0x088, 1, 0, false, 0x0, [⟨31, 0, .ro, none⟩]⟩,
    ⟨0x08C, 1, 0, false, 0x0, [⟨31, 0, .ro, none⟩]⟩,
    ⟨0x090, 1, 0, false, 0x0, [⟨31, 0, .ro, none⟩]⟩,
    ⟨0x094, 1, 0, false, 0x0, [⟨31, 0, .ro, none⟩]⟩,
    ⟨0x098, 1, 0, false, 0x0, [⟨31, 0, .ro, none⟩]⟩,
    ⟨0x09C, 1, 0, false, 0x0, [⟨31, 0, .ro, none⟩]⟩,
    ⟨0x0A0, 1, 0, false, 0x0, [⟨31, 0, .ro, none⟩]⟩,
    ⟨0x0A4, 1, 0, false, 0x0, [⟨31, 0, .ro, none⟩]⟩,
    ⟨0x0A8, 1, 0, false, 0x0, [⟨31, 0, .ro, none⟩]⟩,
    ⟨0x0AC, 1, 0, false, 0x0, [⟨31, 0, .ro, none⟩]⟩,
    ⟨0x0B0, 1, 0, false, 0x0, [⟨31, 0, .ro, none⟩]⟩,
    ⟨0x0B4, 1, 0, false, 0x0, [⟨31, 0, .ro, none⟩]⟩ ]

/-- The DML page table. Part 3 of 3 (spec file 06_mesh_relay.md). -/
def rows_dml_2 : List RegRow :=
  [ ⟨0x0B8, 1, 0, false, 0x0, [⟨31, 0, .ro, none⟩]⟩,
    ⟨0x0BC, 1, 0, false, 0x0, [⟨31, 0, .ro, none⟩]⟩,
    ⟨0x100, 32, 4, false, 0xFFFFFFFF, [⟨31, 0, .rw, none⟩]⟩,
    ⟨0x180, 64, 4, false, 0x0, [⟨5, 0, .rw, none⟩, ⟨8, 8, .rw, none⟩]⟩,
    ⟨0x400, 1, 0, true, 0xF, [⟨3, 0, .rw, none⟩, ⟨4, 4, .rw, none⟩]⟩ ]

/-- All rows: The DML page table. -/
def rows_dml : List RegRow := rows_dml_0 ++ rows_dml_1 ++ rows_dml_2

/-- The SKIM page table. Part 1 of 2 (spec file 06_mesh_relay.md). -/
def rows_skim_0 : List RegRow :=
  [ ⟨0x040, 1, 0, false, 0x14001E, [⟨9, 0, .rw, some (1, 1023)⟩, ⟨25, 16, .rw, some (1, 1023)⟩]⟩,
    ⟨0x044, 1, 0, false, 0x0, [⟨17, 0, .ro, none⟩]⟩,
    ⟨0x048, 1, 0, false, 0x0, [⟨17, 0, .ro, none⟩]⟩,
    ⟨0x04C, 1, 0, false, 0x0, [⟨17, 0, .ro, none⟩]⟩,
    ⟨0x050, 1, 0, false, 0x0, [⟨0, 0, .wo, none⟩]⟩,
    ⟨0x080, 1, 0, false, 0x0, [⟨31, 0, .ro, none⟩]⟩,
    ⟨0x084, 1, 0, false, 0x0, [⟨31, 0, .ro, none⟩]⟩,
    ⟨0x088, 1, 0, false, 0x0, [⟨31, 0, .ro, none⟩]⟩,
    ⟨0x08C, 1, 0, false, 0x0, [⟨31, 0, .ro, none⟩]⟩,
    ⟨0x090, 1, 0, false, 0x0, [⟨31, 0, .ro, none⟩]⟩,
    ⟨0x094, 1, 0, false, 0x0, [⟨31, 0, .ro, none⟩]⟩,
    ⟨0x098, 1, 0, false, 0x0, [⟨31, 0, .ro, none⟩]⟩ ]

/-- The SKIM page table. Part 2 of 2 (spec file 06_mesh_relay.md). -/
def rows_skim_1 : List RegRow :=
  [ ⟨0x400, 1, 0, true, 0x0, [⟨0, 0, .rw, none⟩]⟩ ]

/-- All rows: The SKIM page table. -/
def rows_skim : List RegRow := rows_skim_0 ++ rows_skim_1

/-- The LOWPAN page table. Part 1 of 2 (spec file 06_mesh_relay.md). -/
def rows_lowpan_0 : List RegRow :=
  [ ⟨0x040, 1, 0, false, 0x0, [⟨0, 0, .rw, none⟩, ⟨1, 1, .rw, none⟩, ⟨2, 2, .rw, none⟩, ⟨13, 8, .rw, none⟩]⟩,
    ⟨0x044, 1, 0, false, 0xFF, [⟨10, 0, .rw, some (127, 2047)⟩]⟩,
    ⟨0x048, 1, 0, false, 0xA, [⟨7, 0, .rw, some (1, 60)⟩]⟩,
    ⟨0x04C, 1, 0, false, 0x0, [⟨9, 0, .ro, none⟩, ⟨25, 16, .ro, none⟩]⟩,
    ⟨0x050, 1, 0, false, 0x0, [⟨31, 0, .rw, none⟩]⟩,
    ⟨0x054, 1, 0, false, 0x0, [⟨31, 0, .rw, none⟩]⟩,
    ⟨0x058, 1, 0, false, 0x0, [⟨15, 0, .ro, none⟩]⟩,
    ⟨0x05C, 1, 0, false, 0x0, [⟨0, 0, .wo, none⟩]⟩,
    ⟨0x060, 1, 0, false, 0x0, [⟨3, 0, .rw, none⟩]⟩,
    ⟨0x064, 4, 4, false, 0x0, [⟨31, 0, .rw, none⟩]⟩,
    ⟨0x074, 1, 0, false, 0x0, [⟨7, 0, .rw, some (0, 128)⟩, ⟨8, 8, .rw, none⟩, ⟨9, 9, .rw, none⟩]⟩,
    ⟨0x078, 1, 0, false, 0x0, [⟨0, 0, .wo, none⟩, ⟨1, 1, .wo, none⟩]⟩ ]

/-- The LOWPAN page table. Part 2 of 2 (spec file 06_mesh_relay.md). -/
def rows_lowpan_1 : List RegRow :=
  [ ⟨0x080, 1, 0, false, 0x0, [⟨31, 0, .ro, none⟩]⟩,
    ⟨0x084, 1, 0, false, 0x0, [⟨31, 0, .ro, none⟩]⟩,
    ⟨0x088, 1, 0, false, 0x0, [⟨31, 0, .ro, none⟩]⟩,
    ⟨0x08C, 1, 0, false, 0x0, [⟨31, 0, .ro, none⟩]⟩,
    ⟨0x090, 1, 0, false, 0x0, [⟨31, 0, .ro, none⟩]⟩,
    ⟨0x094, 1, 0, false, 0x0, [⟨31, 0, .ro, none⟩]⟩,
    ⟨0x098, 1, 0, false, 0x0, [⟨31, 0, .ro, none⟩]⟩,
    ⟨0x09C, 1, 0, false, 0x0, [⟨31, 0, .ro, none⟩]⟩,
    ⟨0x0A0, 1, 0, false, 0x0, [⟨31, 0, .ro, none⟩]⟩,
    ⟨0x0A4, 1, 0, false, 0x0, [⟨31, 0, .ro, none⟩]⟩,
    ⟨0x0A8, 1, 0, false, 0x0, [⟨31, 0, .ro, none⟩]⟩,
    ⟨0x0AC, 1, 0, false, 0x0, [⟨31, 0, .ro, none⟩]⟩ ]

/-- All rows: The LOWPAN page table. -/
def rows_lowpan : List RegRow := rows_lowpan_0 ++ rows_lowpan_1

/-- The NODE page table. Part 1 of 3 (spec file 07_node_prefix_tables.md). -/
def rows_node_0 : List RegRow :=
  [ ⟨0x040, 1, 0, false, 0x1, [⟨0, 0, .rw, none⟩, ⟨4, 4, .rw, none⟩, ⟨5, 5, .rw, none⟩, ⟨6, 6, .rw, none⟩, ⟨7, 7, .rw, none⟩, ⟨13, 8, .rw, none⟩, ⟨14, 14, .rw, none⟩]⟩,
    ⟨0x044, 1, 0, false, 0xFFFFFFFF, [⟨31, 0, .rwl, none⟩]⟩,
    ⟨0x048, 1, 0, false, 0x0, [⟨18, 0, .ro, none⟩]⟩,
    ⟨0x04C, 1, 0, false, 0x0, [⟨18, 0, .ro, none⟩]⟩,
    ⟨0x050, 3, 8, false, 0x40000, [⟨18, 0, .rw, some (0, 262144)⟩]⟩,
    ⟨0x054, 3, 8, false, 0x0, [⟨18, 0, .ro, none⟩]⟩,
    ⟨0x068, 1, 0, false, 0x0, [⟨9, 0, .rw, none⟩]⟩,
    ⟨0x06C, 1, 0, false, 0x40000, [⟨18, 0, .rw, some (0, 262144)⟩]⟩,
    ⟨0x070, 1, 0, false, 0x0, [⟨18, 0, .ro, none⟩]⟩,
    ⟨0x074, 1, 0, false, 0x0, [⟨4, 0, .ro, none⟩]⟩,
    ⟨0x078, 1, 0, false, 0x0, [⟨0, 0, .wo, none⟩]⟩,
    ⟨0x080, 1, 0, false, 0x0, [⟨31, 0, .ro, none⟩]⟩ ]

/-- The NODE page table. Part 2 of 3 (spec file 07_node_prefix_tables.md). -/
def rows_node_1 : List RegRow :=
  [ ⟨0x084, 1, 0, false, 0x0, [⟨31, 0, .ro, none⟩]⟩,
    ⟨0x088, 1, 0, false, 0x0, [⟨31, 0, .ro, none⟩]⟩,
    ⟨0x08C, 1, 0, false, 0x0, [⟨31, 0, .ro, none⟩]⟩,
    ⟨0x090, 1, 0, false, 0x0, [⟨31, 0, .ro, none⟩]⟩,
    ⟨0x094, 1, 0, false, 0x0, [⟨31, 0, .ro, none⟩]⟩,
    ⟨0x098, 1, 0, false, 0x0, [⟨31, 0, .ro, none⟩]⟩,
    ⟨0x09C, 1, 0, false, 0x0, [⟨31, 0, .ro, none⟩]⟩,
    ⟨0x0A0, 1, 0, false, 0x0, [⟨31, 0, .ro, none⟩]⟩,
    ⟨0x0A4, 1, 0, false, 0x0, [⟨31, 0, .ro, none⟩]⟩,
    ⟨0x0A8, 1, 0, false, 0x0, [⟨31, 0, .ro, none⟩]⟩,
    ⟨0x0AC, 1, 0, false, 0x0, [⟨31, 0, .ro, none⟩]⟩,
    ⟨0x0B0, 1, 0, false, 0x0, [⟨31, 0, .ro, none⟩]⟩ ]

/-- The NODE page table. Part 3 of 3 (spec file 07_node_prefix_tables.md). -/
def rows_node_2 : List RegRow :=
  [ ⟨0x0B4, 1, 0, false, 0x0, [⟨31, 0, .ro, none⟩]⟩,
    ⟨0x0B8, 1, 0, false, 0x0, [⟨31, 0, .ro, none⟩]⟩,
    ⟨0x0BC, 1, 0, false, 0x0, [⟨31, 0, .ro, none⟩]⟩,
    ⟨0x0C0, 1, 0, false, 0x0, [⟨31, 0, .ro, none⟩]⟩,
    ⟨0x400, 1, 0, true, 0x2, [⟨2, 0, .rw, none⟩]⟩,
    ⟨0x404, 1, 0, true, 0x3E8, [⟨15, 0, .rw, none⟩]⟩ ]

/-- All rows: The NODE page table. -/
def rows_node : List RegRow := rows_node_0 ++ rows_node_1 ++ rows_node_2

/-- The PCAM page table. Part 1 of 1 (spec file 07_node_prefix_tables.md). -/
def rows_pcam_0 : List RegRow :=
  [ ⟨0x040, 1, 0, false, 0x0, [⟨0, 0, .rw, none⟩, ⟨13, 8, .rw, none⟩]⟩,
    ⟨0x044, 1, 0, false, 0x0, [⟨12, 0, .ro, none⟩]⟩,
    ⟨0x048, 1, 0, false, 0x0, [⟨12, 0, .ro, none⟩, ⟨16, 16, .ro, none⟩]⟩,
    ⟨0x04C, 1, 0, false, 0x0, [⟨0, 0, .wo, none⟩]⟩,
    ⟨0x080, 1, 0, false, 0x0, [⟨31, 0, .ro, none⟩]⟩,
    ⟨0x084, 1, 0, false, 0x0, [⟨31, 0, .ro, none⟩]⟩,
    ⟨0x088, 1, 0, false, 0x0, [⟨31, 0, .ro, none⟩]⟩,
    ⟨0x08C, 1, 0, false, 0x0, [⟨31, 0, .ro, none⟩]⟩,
    ⟨0x090, 1, 0, false, 0x0, [⟨31, 0, .ro, none⟩]⟩,
    ⟨0x094, 1, 0, false, 0x0, [⟨31, 0, .ro, none⟩]⟩ ]

/-- All rows: The PCAM page table. -/
def rows_pcam : List RegRow := rows_pcam_0

/-- The SANDER page table. Part 1 of 1 (spec file 07_node_prefix_tables.md). -/
def rows_sander_0 : List RegRow :=
  [ ⟨0x040, 1, 0, false, 0x1, [⟨0, 0, .rw, none⟩, ⟨1, 1, .rw, none⟩, ⟨13, 8, .rw, none⟩]⟩,
    ⟨0x044, 1, 0, false, 0x15180, [⟨16, 0, .rw, some (1, 131071)⟩]⟩,
    ⟨0x048, 1, 0, false, 0x0, [⟨17, 0, .ro, none⟩]⟩,
    ⟨0x04C, 1, 0, false, 0x0, [⟨31, 0, .ro, none⟩]⟩,
    ⟨0x050, 1, 0, false, 0x0, [⟨0, 0, .wo, none⟩]⟩,
    ⟨0x080, 1, 0, false, 0x0, [⟨31, 0, .ro, none⟩]⟩,
    ⟨0x084, 1, 0, false, 0x0, [⟨31, 0, .ro, none⟩]⟩,
    ⟨0x088, 1, 0, false, 0x0, [⟨31, 0, .ro, none⟩]⟩,
    ⟨0x08C, 1, 0, false, 0x0, [⟨31, 0, .ro, none⟩]⟩,
    ⟨0x090, 1, 0, false, 0x0, [⟨31, 0, .ro, none⟩]⟩,
    ⟨0x094, 1, 0, false, 0x0, [⟨31, 0, .ro, none⟩]⟩,
    ⟨0x400, 1, 0, true, 0x0, [⟨0, 0, .wo, none⟩]⟩ ]

/-- All rows: The SANDER page table. -/
def rows_sander : List RegRow := rows_sander_0

/-- The LOCKET page table. Part 1 of 2 (spec file 08_key_tree.md). -/
def rows_locket_0 : List RegRow :=
  [ ⟨0x040, 1, 0, false, 0xFA, [⟨9, 0, .rw, some (50, 1000)⟩]⟩,
    ⟨0x044, 1, 0, false, 0x0, [⟨0, 0, .ro, none⟩, ⟨1, 1, .ro, none⟩, ⟨2, 2, .ro, none⟩, ⟨3, 3, .ro, none⟩, ⟨4, 4, .ro, none⟩, ⟨5, 5, .ro, none⟩]⟩,
    ⟨0x048, 1, 0, false, 0x0, [⟨11, 0, .ro, none⟩]⟩,
    ⟨0x04C, 1, 0, false, 0x0, [⟨31, 0, .ro, none⟩]⟩,
    ⟨0x050, 1, 0, false, 0x0, [⟨10, 0, .rw, none⟩]⟩,
    ⟨0x054, 1, 0, false, 0x0, [⟨1, 0, .ro, none⟩, ⟨2, 2, .ro, none⟩, ⟨15, 8, .ro, none⟩, ⟨23, 16, .ro, none⟩, ⟨31, 24, .ro, none⟩]⟩,
    ⟨0x058, 1, 0, false, 0x0, [⟨31, 0, .ro, none⟩]⟩,
    ⟨0x05C, 1, 0, false, 0x0, [⟨0, 0, .wo, none⟩]⟩,
    ⟨0x060, 1, 0, false, 0x0, [⟨0, 0, .wo, none⟩]⟩,
    ⟨0x064, 1, 0, false, 0x0, [⟨1, 0, .ro, none⟩]⟩,
    ⟨0x080, 1, 0, false, 0x0, [⟨31, 0, .ro, none⟩]⟩,
    ⟨0x084, 1, 0, false, 0x0, [⟨31, 0, .ro, none⟩]⟩ ]

/-- The LOCKET page table. Part 2 of 2 (spec file 08_key_tree.md). -/
def rows_locket_1 : List RegRow :=
  [ ⟨0x088, 1, 0, false, 0x0, [⟨31, 0, .ro, none⟩]⟩,
    ⟨0x400, 1, 0, true, 0x0, [⟨4, 0, .ro, none⟩, ⟨16, 16, .ro, none⟩]⟩,
    ⟨0x404, 1, 0, true, 0xC, [⟨4, 0, .rw, none⟩]⟩ ]

/-- All rows: The LOCKET page table. -/
def rows_locket : List RegRow := rows_locket_0 ++ rows_locket_1

/-- The FILIG page table. Part 1 of 2 (spec file 08_key_tree.md). -/
def rows_filig_0 : List RegRow :=
  [ ⟨0x040, 1, 0, false, 0x1, [⟨0, 0, .rw, none⟩]⟩,
    ⟨0x044, 1, 0, false, 0x0, [⟨9, 0, .rw, none⟩]⟩,
    ⟨0x048, 1, 0, false, 0x0, [⟨10, 0, .rw, none⟩, ⟨31, 31, .rw, none⟩]⟩,
    ⟨0x04C, 1, 0, false, 0x0, [⟨31, 0, .ro, none⟩]⟩,
    ⟨0x050, 1, 0, false, 0x0, [⟨14, 0, .ro, none⟩, ⟨30, 16, .ro, none⟩]⟩,
    ⟨0x054, 1, 0, false, 0x0, [⟨0, 0, .wo, none⟩]⟩,
    ⟨0x080, 1, 0, false, 0x0, [⟨31, 0, .ro, none⟩]⟩,
    ⟨0x084, 1, 0, false, 0x0, [⟨31, 0, .ro, none⟩]⟩,
    ⟨0x088, 1, 0, false, 0x0, [⟨31, 0, .ro, none⟩]⟩,
    ⟨0x08C, 1, 0, false, 0x0, [⟨31, 0, .ro, none⟩]⟩,
    ⟨0x090, 1, 0, false, 0x0, [⟨31, 0, .ro, none⟩]⟩,
    ⟨0x094, 1, 0, false, 0x0, [⟨31, 0, .ro, none⟩]⟩ ]

/-- The FILIG page table. Part 2 of 2 (spec file 08_key_tree.md). -/
def rows_filig_1 : List RegRow :=
  [ ⟨0x098, 1, 0, false, 0x0, [⟨31, 0, .ro, none⟩]⟩,
    ⟨0x09C, 1, 0, false, 0x0, [⟨31, 0, .ro, none⟩]⟩,
    ⟨0x0A0, 1, 0, false, 0x0, [⟨31, 0, .ro, none⟩]⟩,
    ⟨0x400, 1, 0, true, 0x10, [⟨4, 0, .rw, some (1, 16)⟩]⟩ ]

/-- All rows: The FILIG page table. -/
def rows_filig : List RegRow := rows_filig_0 ++ rows_filig_1

/-- The SEC page table. Part 1 of 2 (spec file 09_frame_security_tamper.md). -/
def rows_sec_0 : List RegRow :=
  [ ⟨0x040, 1, 0, false, 0x0, [⟨5, 0, .rw, some (0, 32)⟩]⟩,
    ⟨0x044, 1, 0, false, 0x0, [⟨9, 0, .rw, none⟩]⟩,
    ⟨0x048, 1, 0, false, 0x65, [⟨2, 0, .rw, some (0, 5)⟩, ⟨6, 4, .rw, some (5, 7)⟩, ⟨7, 7, .rw, none⟩, ⟨15, 8, .rw, none⟩]⟩,
    ⟨0x04C, 1, 0, false, 0x0, [⟨31, 0, .ro, none⟩]⟩,
    ⟨0x050, 1, 0, false, 0x0, [⟨31, 0, .rw, none⟩]⟩,
    ⟨0x054, 1, 0, false, 0x0, [⟨31, 0, .rw, none⟩]⟩,
    ⟨0x058, 1, 0, false, 0x0, [⟨31, 0, .ro, none⟩]⟩,
    ⟨0x05C, 1, 0, false, 0x0, [⟨12, 0, .ro, none⟩, ⟨28, 16, .ro, none⟩]⟩,
    ⟨0x060, 1, 0, false, 0x0, [⟨0, 0, .wo, none⟩]⟩,
    ⟨0x080, 1, 0, false, 0x0, [⟨31, 0, .ro, none⟩]⟩,
    ⟨0x084, 1, 0, false, 0x0, [⟨31, 0, .ro, none⟩]⟩,
    ⟨0x088, 1, 0, false, 0x0, [⟨31, 0, .ro, none⟩]⟩ ]

/-- The SEC page table. Part 2 of 2 (spec file 09_frame_security_tamper.md). -/
def rows_sec_1 : List RegRow :=
  [ ⟨0x08C, 1, 0, false, 0x0, [⟨31, 0, .ro, none⟩]⟩,
    ⟨0x090, 1, 0, false, 0x0, [⟨31, 0, .ro, none⟩]⟩,
    ⟨0x094, 1, 0, false, 0x0, [⟨31, 0, .ro, none⟩]⟩,
    ⟨0x098, 1, 0, false, 0x0, [⟨31, 0, .ro, none⟩]⟩,
    ⟨0x09C, 1, 0, false, 0x0, [⟨31, 0, .ro, none⟩]⟩,
    ⟨0x0A0, 1, 0, false, 0x0, [⟨31, 0, .ro, none⟩]⟩,
    ⟨0x0A4, 1, 0, false, 0x0, [⟨31, 0, .ro, none⟩]⟩,
    ⟨0x0A8, 1, 0, false, 0x0, [⟨31, 0, .ro, none⟩]⟩,
    ⟨0x0AC, 1, 0, false, 0x0, [⟨31, 0, .ro, none⟩]⟩,
    ⟨0x0B0, 1, 0, false, 0x0, [⟨31, 0, .ro, none⟩]⟩,
    ⟨0x0B4, 1, 0, false, 0x0, [⟨31, 0, .ro, none⟩]⟩,
    ⟨0x400, 1, 0, true, 0x14, [⟨4, 0, .rw, some (16, 24)⟩]⟩ ]

/-- All rows: The SEC page table. -/
def rows_sec : List RegRow := rows_sec_0 ++ rows_sec_1

/-- The HALL page table. Part 1 of 1 (spec file 09_frame_security_tamper.md). -/
def rows_hall_0 : List RegRow :=
  [ ⟨0x040, 4, 4, false, 0x0, [⟨31, 0, .ro, none⟩]⟩,
    ⟨0x050, 1, 0, false, 0x0, [⟨31, 0, .ro, none⟩]⟩,
    ⟨0x054, 1, 0, false, 0x0, [⟨31, 0, .ro, none⟩]⟩,
    ⟨0x058, 1, 0, false, 0x0, [⟨31, 0, .ro, none⟩]⟩,
    ⟨0x05C, 1, 0, false, 0x0, [⟨31, 0, .ro, none⟩]⟩,
    ⟨0x060, 1, 0, false, 0x0, [⟨31, 0, .ro, none⟩]⟩,
    ⟨0x064, 1, 0, false, 0x0, [⟨3, 0, .ro, none⟩]⟩,
    ⟨0x068, 1, 0, false, 0x0, [⟨0, 0, .wo, none⟩]⟩,
    ⟨0x080, 1, 0, false, 0x0, [⟨31, 0, .ro, none⟩]⟩,
    ⟨0x084, 1, 0, false, 0x0, [⟨31, 0, .ro, none⟩]⟩,
    ⟨0x088, 1, 0, false, 0x0, [⟨31, 0, .ro, none⟩]⟩,
    ⟨0x400, 8, 4, true, 0x0, [⟨31, 0, .ro, none⟩]⟩ ]

/-- All rows: The HALL page table. -/
def rows_hall : List RegRow := rows_hall_0

/-- The TAMP page table. Part 1 of 1 (spec file 09_frame_security_tamper.md). -/
def rows_tamp_0 : List RegRow :=
  [ ⟨0x040, 1, 0, false, 0x70, [⟨6, 0, .rwl, none⟩]⟩,
    ⟨0x044, 4, 4, false, 0x400, [⟨0, 0, .rwl, none⟩, ⟨15, 8, .rwl, some (1, 255)⟩]⟩,
    ⟨0x054, 1, 0, false, 0x0, [⟨6, 0, .ro, none⟩, ⟨8, 8, .ro, none⟩, ⟨9, 9, .ro, none⟩]⟩,
    ⟨0x058, 1, 0, false, 0x0, [⟨6, 0, .w1c, none⟩, ⟨8, 8, .w1c, none⟩, ⟨9, 9, .w1c, none⟩, ⟨10, 10, .w1c, none⟩]⟩,
    ⟨0x05C, 1, 0, false, 0x0, [⟨31, 0, .ro, none⟩]⟩,
    ⟨0x060, 1, 0, false, 0x0, [⟨31, 0, .ro, none⟩]⟩ ]

/-- All rows: The TAMP page table. -/
def rows_tamp : List RegRow := rows_tamp_0

/-- The LOUPE page table. Part 1 of 1 (spec file 09_frame_security_tamper.md). -/
def rows_loupe_0 : List RegRow :=
  [ ⟨0x040, 1, 0, false, 0x0, [⟨0, 0, .wo, none⟩, ⟨1, 1, .wo, none⟩, ⟨2, 2, .wo, none⟩]⟩,
    ⟨0x044, 1, 0, false, 0x0, [⟨0, 0, .ro, none⟩, ⟨1, 1, .ro, none⟩, ⟨2, 2, .ro, none⟩, ⟨7, 4, .ro, none⟩, ⟨8, 8, .ro, none⟩, ⟨15, 12, .ro, none⟩]⟩,
    ⟨0x048, 1, 0, false, 0x0, [⟨15, 0, .ro, none⟩]⟩,
    ⟨0x04C, 1, 0, false, 0x3C, [⟨7, 0, .rw, some (1, 255)⟩]⟩,
    ⟨0x050, 1, 0, false, 0x0, [⟨16, 0, .ro, none⟩]⟩,
    ⟨0x060, 8, 4, false, 0x0, [⟨31, 0, .ro, none⟩]⟩,
    ⟨0x100, 16, 4, false, 0x0, [⟨31, 0, .wo, none⟩]⟩,
    ⟨0x140, 16, 4, false, 0x0, [⟨31, 0, .wo, none⟩]⟩,
    ⟨0x180, 1, 0, false, 0x0, [⟨3, 0, .rw, none⟩, ⟨8, 8, .rw, none⟩]⟩,
    ⟨0x400, 8, 4, true, 0x0, [⟨31, 0, .ro, none⟩]⟩,
    ⟨0x420, 8, 4, true, 0x0, [⟨31, 0, .ro, none⟩]⟩ ]

/-- All rows: The LOUPE page table. -/
def rows_loupe : List RegRow := rows_loupe_0

/-- The TROWEL page table. Part 1 of 3 (spec file 10_downlink_shaping.md). -/
def rows_trowel_0 : List RegRow :=
  [ ⟨0x040, 1, 0, false, 0xD08, [⟨7, 0, .rw, some (4, 255)⟩, ⟨8, 8, .rw, none⟩, ⟨9, 9, .rw, none⟩, ⟨12, 10, .rw, none⟩]⟩,
    ⟨0x044, 1, 0, false, 0x1F4, [⟨13, 0, .rw, some (100, 10000)⟩]⟩,
    ⟨0x048, 1, 0, false, 0x777, [⟨11, 0, .rw, none⟩]⟩,
    ⟨0x04C, 1, 0, false, 0x40, [⟨9, 0, .rw, some (1, 1023)⟩]⟩,
    ⟨0x050, 1, 0, false, 0xC350, [⟨19, 0, .rw, none⟩]⟩,
    ⟨0x054, 1, 0, false, 0x0, [⟨15, 0, .ro, none⟩, ⟨31, 16, .ro, none⟩]⟩,
    ⟨0x058, 1, 0, false, 0x0, [⟨0, 0, .wo, none⟩]⟩,
    ⟨0x060, 1, 0, false, 0x0, [⟨12, 0, .rw, none⟩, ⟨17, 16, .rw, none⟩]⟩,
    ⟨0x064, 1, 0, false, 0x0, [⟨23, 0, .rw, none⟩]⟩,
    ⟨0x068, 1, 0, false, 0x10, [⟨15, 0, .rw, some (1, 65535)⟩]⟩,
    ⟨0x06C, 1, 0, false, 0x0, [⟨23, 0, .rw, none⟩]⟩,
    ⟨0x070, 1, 0, false, 0x10, [⟨15, 0, .rw, some (1, 65535)⟩]⟩ ]

/-- The TROWEL page table. Part 2 of 3 (spec file 10_downlink_shaping.md). -/
def rows_trowel_1 : List RegRow :=
  [ ⟨0x074, 1, 0, false, 0x0, [⟨15, 0, .ro, none⟩, ⟨31, 16, .ro, none⟩]⟩,
    ⟨0x080, 1, 0, false, 0x0, [⟨31, 0, .ro, none⟩]⟩,
    ⟨0x084, 1, 0, false, 0x0, [⟨31, 0, .ro, none⟩]⟩,
    ⟨0x088, 1, 0, false, 0x0, [⟨31, 0, .ro, none⟩]⟩,
    ⟨0x08C, 1, 0, false, 0x0, [⟨31, 0, .ro, none⟩]⟩,
    ⟨0x090, 1, 0, false, 0x0, [⟨31, 0, .ro, none⟩]⟩,
    ⟨0x094, 1, 0, false, 0x0, [⟨31, 0, .ro, none⟩]⟩,
    ⟨0x098, 1, 0, false, 0x0, [⟨31, 0, .ro, none⟩]⟩,
    ⟨0x09C, 1, 0, false, 0x0, [⟨31, 0, .ro, none⟩]⟩,
    ⟨0x0A0, 1, 0, false, 0x0, [⟨31, 0, .ro, none⟩]⟩,
    ⟨0x0A4, 1, 0, false, 0x0, [⟨31, 0, .ro, none⟩]⟩,
    ⟨0x0A8, 1, 0, false, 0x0, [⟨31, 0, .ro, none⟩]⟩ ]

/-- The TROWEL page table. Part 3 of 3 (spec file 10_downlink_shaping.md). -/
def rows_trowel_2 : List RegRow :=
  [ ⟨0x0AC, 1, 0, false, 0x0, [⟨31, 0, .ro, none⟩]⟩,
    ⟨0x0B0, 1, 0, false, 0x0, [⟨31, 0, .ro, none⟩]⟩,
    ⟨0x0B4, 1, 0, false, 0x0, [⟨31, 0, .ro, none⟩]⟩,
    ⟨0x0B8, 1, 0, false, 0x0, [⟨31, 0, .ro, none⟩]⟩ ]

/-- All rows: The TROWEL page table. -/
def rows_trowel : List RegRow := rows_trowel_0 ++ rows_trowel_1 ++ rows_trowel_2

/-- The GATE page table. Part 1 of 2 (spec file 10_downlink_shaping.md). -/
def rows_gate_0 : List RegRow :=
  [ ⟨0x040, 1, 0, false, 0x0, [⟨3, 0, .rw, some (0, 11)⟩]⟩,
    ⟨0x044, 1, 0, false, 0x2, [⟨0, 0, .rw, none⟩, ⟨1, 1, .rw, none⟩, ⟨2, 2, .wo, none⟩, ⟨3, 3, .wo, none⟩]⟩,
    ⟨0x048, 1, 0, false, 0x0, [⟨0, 0, .ro, none⟩, ⟨1, 1, .ro, none⟩, ⟨2, 2, .w1c, none⟩, ⟨3, 3, .w1c, none⟩, ⟨4, 4, .w1c, none⟩]⟩,
    ⟨0x04C, 1, 0, false, 0x0, [⟨8, 0, .rw, some (1, 256)⟩]⟩,
    ⟨0x050, 1, 0, false, 0x0, [⟨31, 0, .rw, none⟩]⟩,
    ⟨0x054, 1, 0, false, 0x0, [⟨31, 0, .rw, none⟩]⟩,
    ⟨0x058, 1, 0, false, 0x5F5E100, [⟨31, 0, .rw, none⟩]⟩,
    ⟨0x05C, 1, 0, false, 0x0, [⟨7, 0, .rw, none⟩, ⟨8, 8, .rw, none⟩]⟩,
    ⟨0x060, 1, 0, false, 0x0, [⟨7, 0, .rw, none⟩, ⟨31, 8, .rw, none⟩]⟩,
    ⟨0x064, 1, 0, false, 0x0, [⟨31, 0, .ro, none⟩]⟩,
    ⟨0x068, 1, 0, false, 0x0, [⟨31, 0, .ro, none⟩]⟩,
    ⟨0x06C, 1, 0, false, 0x5F5E100, [⟨31, 0, .ro, none⟩]⟩ ]

/-- The GATE page table. Part 2 of 2 (spec file 10_downlink_shaping.md). -/
def rows_gate_1 : List RegRow :=
  [ ⟨0x070, 1, 0, false, 0x0, [⟨8, 0, .ro, none⟩]⟩,
    ⟨0x074, 1, 0, false, 0x0, [⟨31, 0, .ro, none⟩]⟩,
    ⟨0x078, 1, 0, false, 0x0, [⟨31, 0, .ro, none⟩]⟩,
    ⟨0x07C, 1, 0, false, 0x0, [⟨0, 0, .wo, none⟩]⟩,
    ⟨0x080, 8, 4, false, 0xFFFFFFFF, [⟨31, 0, .ro, none⟩]⟩,
    ⟨0x0A0, 1, 0, false, 0x3E8, [⟨15, 0, .rw, none⟩]⟩,
    ⟨0x0A4, 1, 0, false, 0x32, [⟨11, 0, .rw, none⟩]⟩,
    ⟨0x0C0, 1, 0, false, 0x0, [⟨31, 0, .ro, none⟩]⟩ ]

/-- All rows: The GATE page table. -/
def rows_gate : List RegRow := rows_gate_0 ++ rows_gate_1

/-- The MRAM page table. Part 1 of 2 (spec file 11_image_distribution.md). -/
def rows_mram_0 : List RegRow :=
  [ ⟨0x040, 1, 0, false, 0x0, [⟨0, 0, .ro, none⟩, ⟨1, 1, .ro, none⟩, ⟨2, 2, .ro, none⟩, ⟨3, 3, .ro, none⟩, ⟨4, 4, .ro, none⟩, ⟨10, 8, .ro, none⟩, ⟨15, 12, .ro, none⟩, ⟨17, 16, .ro, none⟩]⟩,
    ⟨0x044, 1, 0, false, 0x0, [⟨15, 0, .ro, none⟩]⟩,
    ⟨0x048, 1, 0, false, 0x0, [⟨15, 0, .ro, none⟩, ⟨31, 16, .ro, none⟩]⟩,
    ⟨0x04C, 1, 0, false, 0x0, [⟨31, 0, .ro, none⟩]⟩,
    ⟨0x050, 1, 0, false, 0x258, [⟨15, 0, .rw, none⟩]⟩,
    ⟨0x054, 1, 0, false, 0x0, [⟨2, 0, .rw, none⟩]⟩,
    ⟨0x058, 1, 0, false, 0x0, [⟨20, 0, .ro, none⟩, ⟨31, 31, .ro, none⟩]⟩,
    ⟨0x05C, 1, 0, false, 0x0, [⟨15, 0, .ro, none⟩, ⟨25, 16, .ro, none⟩]⟩,
    ⟨0x060, 1, 0, false, 0x0, [⟨0, 0, .wo, none⟩]⟩,
    ⟨0x080, 1, 0, false, 0x0, [⟨31, 0, .ro, none⟩]⟩,
    ⟨0x084, 1, 0, false, 0x0, [⟨31, 0, .ro, none⟩]⟩,
    ⟨0x088, 1, 0, false, 0x0, [⟨31, 0, .ro, none⟩]⟩ ]

/-- The MRAM page table. Part 2 of 2 (spec file 11_image_distribution.md). -/
def rows_mram_1 : List RegRow :=
  [ ⟨0x08C, 1, 0, false, 0x0, [⟨31, 0, .ro, none⟩]⟩,
    ⟨0x400, 8, 4, true, 0x0, [⟨31, 0, .ro, none⟩]⟩ ]

/-- All rows: The MRAM page table. -/
def rows_mram : List RegRow := rows_mram_0 ++ rows_mram_1

/-- The IBE page table. Part 1 of 2 (spec file 11_image_distribution.md). -/
def rows_ibe_0 : List RegRow :=
  [ ⟨0x040, 1, 0, false, 0x0, [⟨2, 0, .ro, none⟩, ⟨6, 4, .ro, none⟩, ⟨15, 8, .ro, none⟩, ⟨18, 16, .ro, none⟩]⟩,
    ⟨0x044, 1, 0, false, 0x0, [⟨9, 0, .ro, none⟩, ⟨12, 10, .ro, none⟩]⟩,
    ⟨0x048, 1, 0, false, 0x0, [⟨10, 0, .ro, none⟩, ⟨24, 16, .ro, none⟩]⟩,
    ⟨0x04C, 1, 0, false, 0x0, [⟨23, 0, .ro, none⟩]⟩,
    ⟨0x050, 1, 0, false, 0x0, [⟨31, 0, .ro, none⟩]⟩,
    ⟨0x054, 1, 0, false, 0x0, [⟨0, 0, .wo, none⟩]⟩,
    ⟨0x058, 1, 0, false, 0x0, [⟨31, 0, .ro, none⟩]⟩,
    ⟨0x05C, 1, 0, false, 0x0, [⟨31, 0, .wo, none⟩]⟩,
    ⟨0x080, 1, 0, false, 0x0, [⟨31, 0, .ro, none⟩]⟩,
    ⟨0x084, 1, 0, false, 0x0, [⟨31, 0, .ro, none⟩]⟩,
    ⟨0x088, 1, 0, false, 0x0, [⟨31, 0, .ro, none⟩]⟩,
    ⟨0x08C, 1, 0, false, 0x0, [⟨31, 0, .ro, none⟩]⟩ ]

/-- The IBE page table. Part 2 of 2 (spec file 11_image_distribution.md). -/
def rows_ibe_1 : List RegRow :=
  [ ⟨0x400, 1, 0, true, 0x0, [⟨21, 0, .ro, none⟩]⟩ ]

/-- All rows: The IBE page table. -/
def rows_ibe : List RegRow := rows_ibe_0 ++ rows_ibe_1

/-- The STRAND page table. Part 1 of 2 (spec file 12_strands.md). -/
def rows_strand_0 : List RegRow :=
  [ ⟨0x040, 1, 0, false, 0x0, [⟨5, 0, .rw, none⟩]⟩,
    ⟨0x044, 1, 0, false, 0x40000, [⟨1, 0, .rw, none⟩, ⟨2, 2, .rw, none⟩, ⟨13, 8, .rw, none⟩, ⟨26, 16, .rw, some (4, 1024)⟩, ⟨31, 31, .rw, none⟩]⟩,
    ⟨0x048, 1, 0, false, 0x0, [⟨10, 0, .ro, none⟩, ⟨26, 16, .ro, none⟩, ⟨27, 27, .ro, none⟩, ⟨28, 28, .ro, none⟩, ⟨29, 29, .w1c, none⟩]⟩,
    ⟨0x04C, 1, 0, false, 0x0, [⟨31, 0, .wo, none⟩]⟩,
    ⟨0x050, 1, 0, false, 0x0, [⟨9, 0, .ro, none⟩, ⟨25, 16, .ro, none⟩]⟩,
    ⟨0x054, 1, 0, false, 0x0, [⟨9, 0, .ro, none⟩, ⟨25, 16, .ro, none⟩]⟩,
    ⟨0x058, 1, 0, false, 0x3C0, [⟨9, 0, .ro, none⟩]⟩,
    ⟨0x05C, 1, 0, false, 0x0, [⟨0, 0, .wo, none⟩]⟩,
    ⟨0x060, 8, 4, false, 0x0, [⟨31, 0, .wo, none⟩]⟩,
    ⟨0x080, 8, 4, false, 0x0, [⟨31, 0, .ro, none⟩]⟩,
    ⟨0x0C0, 1, 0, false, 0x0, [⟨31, 0, .ro, none⟩]⟩,
    ⟨0x0C4, 1, 0, false, 0x0, [⟨31, 0, .ro, none⟩]⟩ ]

/-- The STRAND page table. Part 2 of 2 (spec file 12_strands.md). -/
def rows_strand_1 : List RegRow :=
  [ ⟨0x0C8, 1, 0, false, 0x0, [⟨31, 0, .ro, none⟩]⟩,
    ⟨0x0CC, 1, 0, false, 0x0, [⟨31, 0, .ro, none⟩]⟩,
    ⟨0x0D0, 1, 0, false, 0x0, [⟨31, 0, .ro, none⟩]⟩,
    ⟨0x0D4, 1, 0, false, 0x0, [⟨31, 0, .ro, none⟩]⟩,
    ⟨0x0D8, 1, 0, false, 0x0, [⟨31, 0, .ro, none⟩]⟩,
    ⟨0x0DC, 1, 0, false, 0x0, [⟨31, 0, .ro, none⟩]⟩,
    ⟨0x400, 1, 0, true, 0x40, [⟨9, 0, .rw, none⟩]⟩ ]

/-- All rows: The STRAND page table. -/
def rows_strand : List RegRow := rows_strand_0 ++ rows_strand_1

/-- The DISP page table. Part 1 of 2 (spec file 13_dispatcher.md). -/
def rows_disp_0 : List RegRow :=
  [ ⟨0x040, 1, 0, false, 0x1, [⟨7, 0, .rw, none⟩]⟩,
    ⟨0x044, 1, 0, false, 0x1, [⟨0, 0, .rw, none⟩]⟩,
    ⟨0x048, 1, 0, false, 0x0, [⟨10, 0, .ro, none⟩, ⟨26, 16, .ro, none⟩]⟩,
    ⟨0x04C, 1, 0, false, 0x0, [⟨5, 0, .rw, none⟩]⟩,
    ⟨0x050, 1, 0, false, 0x0, [⟨10, 0, .ro, none⟩, ⟨26, 16, .ro, none⟩]⟩,
    ⟨0x054, 1, 0, false, 0x0, [⟨31, 0, .ro, none⟩]⟩,
    ⟨0x058, 1, 0, false, 0x0, [⟨31, 0, .ro, none⟩]⟩,
    ⟨0x05C, 1, 0, false, 0x0, [⟨31, 0, .ro, none⟩]⟩,
    ⟨0x060, 1, 0, false, 0x0, [⟨31, 0, .ro, none⟩]⟩,
    ⟨0x064, 1, 0, false, 0x0, [⟨0, 0, .wo, none⟩]⟩,
    ⟨0x080, 8, 8, false, 0x0, [⟨31, 0, .ro, none⟩]⟩,
    ⟨0x084, 8, 8, false, 0x0, [⟨31, 0, .ro, none⟩]⟩ ]

/-- The DISP page table. Part 2 of 2 (spec file 13_dispatcher.md). -/
def rows_disp_1 : List RegRow :=
  [ ⟨0x0C0, 8, 4, false, 0x8000, [⟨9, 0, .ro, none⟩, ⟨15, 15, .ro, none⟩, ⟨21, 16, .ro, none⟩]⟩,
    ⟨0x0E0, 1, 0, false, 0x0, [⟨31, 0, .ro, none⟩]⟩,
    ⟨0x0E4, 1, 0, false, 0x0, [⟨31, 0, .ro, none⟩]⟩,
    ⟨0x0E8, 1, 0, false, 0x0, [⟨31, 0, .ro, none⟩]⟩,
    ⟨0x0EC, 1, 0, false, 0x0, [⟨31, 0, .ro, none⟩]⟩,
    ⟨0x0F0, 1, 0, false, 0x0, [⟨31, 0, .ro, none⟩]⟩,
    ⟨0x100, 1, 0, false, 0x0, [⟨9, 0, .rw, none⟩]⟩,
    ⟨0x104, 1, 0, false, 0x0, [⟨2, 0, .ro, none⟩, ⟨13, 8, .ro, none⟩, ⟨23, 16, .ro, none⟩]⟩,
    ⟨0x108, 1, 0, false, 0x0, [⟨11, 0, .ro, none⟩, ⟨16, 16, .ro, none⟩]⟩,
    ⟨0x10C, 1, 0, false, 0x0, [⟨11, 0, .rw, none⟩]⟩,
    ⟨0x110, 1, 0, false, 0x0, [⟨15, 0, .ro, none⟩, ⟨16, 16, .ro, none⟩, ⟨17, 17, .ro, none⟩, ⟨28, 18, .ro, none⟩]⟩,
    ⟨0x400, 1, 0, true, 0x0, [⟨15, 0, .rw, none⟩]⟩ ]

/-- All rows: The DISP page table. -/
def rows_disp : List RegRow := rows_disp_0 ++ rows_disp_1

/-- The SEM page table. Part 1 of 1 (spec file 13_dispatcher.md). -/
def rows_sem_0 : List RegRow :=
  [ ⟨0x040, 64, 4, false, 0x0, [⟨0, 0, .wo, none⟩, ⟨1, 1, .wo, none⟩, ⟨10, 8, .ro, none⟩, ⟨16, 16, .rw, none⟩]⟩,
    ⟨0x140, 1, 0, false, 0x0, [⟨31, 0, .ro, none⟩]⟩,
    ⟨0x144, 1, 0, false, 0x0, [⟨31, 0, .ro, none⟩]⟩,
    ⟨0x148, 1, 0, false, 0x0, [⟨0, 0, .wo, none⟩]⟩,
    ⟨0x150, 1, 0, false, 0x0, [⟨31, 0, .ro, none⟩]⟩,
    ⟨0x154, 1, 0, false, 0x0, [⟨31, 0, .ro, none⟩]⟩,
    ⟨0x158, 1, 0, false, 0x0, [⟨31, 0, .ro, none⟩]⟩,
    ⟨0x15C, 1, 0, false, 0x0, [⟨31, 0, .ro, none⟩]⟩,
    ⟨0x400, 1, 0, true, 0x0, [⟨5, 0, .rw, none⟩, ⟨8, 8, .wo, none⟩]⟩ ]

/-- All rows: The SEM page table. -/
def rows_sem : List RegRow := rows_sem_0

/-- The CLASP page table. Part 1 of 2 (spec file 14_redundancy.md). -/
def rows_clasp_0 : List RegRow :=
  [ ⟨0x040, 1, 0, false, 0x640002, [⟨5, 0, .rw, some (1, 50)⟩, ⟨23, 16, .rw, none⟩]⟩,
    ⟨0x044, 1, 0, false, 0x0, [⟨1, 0, .ro, none⟩, ⟨2, 2, .ro, none⟩, ⟨31, 16, .ro, none⟩]⟩,
    ⟨0x048, 1, 0, false, 0x0, [⟨31, 0, .ro, none⟩]⟩,
    ⟨0x04C, 1, 0, false, 0x0, [⟨31, 0, .ro, none⟩]⟩,
    ⟨0x050, 1, 0, false, 0x0, [⟨15, 0, .wo, none⟩]⟩,
    ⟨0x054, 1, 0, false, 0x0, [⟨0, 0, .wo, none⟩]⟩,
    ⟨0x058, 1, 0, false, 0x93A80, [⟨31, 0, .rw, none⟩]⟩,
    ⟨0x05C, 1, 0, false, 0x0, [⟨31, 0, .rw, none⟩]⟩,
    ⟨0x060, 1, 0, false, 0x3E8, [⟨15, 0, .rw, some (10, 60000)⟩]⟩,
    ⟨0x064, 1, 0, false, 0x0, [⟨0, 0, .wo, none⟩]⟩,
    ⟨0x080, 1, 0, false, 0x0, [⟨31, 0, .ro, none⟩]⟩,
    ⟨0x084, 1, 0, false, 0x0, [⟨31, 0, .ro, none⟩]⟩ ]

/-- The CLASP page table. Part 2 of 2 (spec file 14_redundancy.md). -/
def rows_clasp_1 : List RegRow :=
  [ ⟨0x088, 1, 0, false, 0x0, [⟨31, 0, .ro, none⟩]⟩,
    ⟨0x08C, 1, 0, false, 0x0, [⟨31, 0, .ro, none⟩]⟩,
    ⟨0x090, 1, 0, false, 0x0, [⟨31, 0, .ro, none⟩]⟩,
    ⟨0x094, 1, 0, false, 0x0, [⟨31, 0, .ro, none⟩]⟩ ]

/-- All rows: The CLASP page table. -/
def rows_clasp : List RegRow := rows_clasp_0 ++ rows_clasp_1

/-- The BEZEL page table. Part 1 of 2 (spec file 14_redundancy.md). -/
def rows_bezel_0 : List RegRow :=
  [ ⟨0x040, 1, 0, false, 0x0, [⟨0, 0, .ro, none⟩, ⟨1, 1, .ro, none⟩, ⟨2, 2, .ro, none⟩, ⟨3, 3, .ro, none⟩, ⟨6, 4, .ro, none⟩, ⟨10, 8, .ro, none⟩, ⟨15, 12, .ro, none⟩]⟩,
    ⟨0x044, 1, 0, false, 0x0, [⟨0, 0, .wo, none⟩, ⟨1, 1, .wo, none⟩, ⟨2, 2, .wo, none⟩, ⟨3, 3, .wo, none⟩, ⟨4, 4, .wo, none⟩, ⟨5, 5, .wo, none⟩]⟩,
    ⟨0x048, 1, 0, false, 0x0, [⟨31, 0, .ro, none⟩]⟩,
    ⟨0x04C, 1, 0, false, 0x0, [⟨31, 0, .ro, none⟩]⟩,
    ⟨0x050, 1, 0, false, 0x0, [⟨15, 0, .ro, none⟩]⟩,
    ⟨0x054, 1, 0, false, 0x0, [⟨15, 0, .ro, none⟩]⟩,
    ⟨0x058, 1, 0, false, 0x0, [⟨9, 0, .ro, none⟩]⟩,
    ⟨0x05C, 1, 0, false, 0x0, [⟨22, 0, .ro, none⟩, ⟨31, 31, .ro, none⟩]⟩,
    ⟨0x060, 1, 0, false, 0x30A, [⟨7, 0, .rw, none⟩, ⟨11, 8, .rw, none⟩]⟩,
    ⟨0x064, 1, 0, false, 0x0, [⟨2, 0, .ro, none⟩]⟩,
    ⟨0x068, 1, 0, false, 0x0, [⟨19, 0, .ro, none⟩]⟩,
    ⟨0x06C, 1, 0, false, 0x0, [⟨31, 0, .ro, none⟩]⟩ ]

/-- The BEZEL page table. Part 2 of 2 (spec file 14_redundancy.md). -/
def rows_bezel_1 : List RegRow :=
  [ ⟨0x070, 1, 0, false, 0x0, [⟨31, 0, .ro, none⟩]⟩,
    ⟨0x074, 1, 0, false, 0x0, [⟨0, 0, .wo, none⟩]⟩,
    ⟨0x078, 1, 0, false, 0x0, [⟨31, 0, .ro, none⟩]⟩,
    ⟨0x07C, 1, 0, false, 0x0, [⟨31, 0, .ro, none⟩]⟩,
    ⟨0x080, 1, 0, false, 0x0, [⟨31, 0, .ro, none⟩]⟩,
    ⟨0x084, 1, 0, false, 0x0, [⟨31, 0, .ro, none⟩]⟩,
    ⟨0x088, 1, 0, false, 0x0, [⟨31, 0, .ro, none⟩]⟩,
    ⟨0x08C, 1, 0, false, 0x0, [⟨31, 0, .ro, none⟩]⟩,
    ⟨0x090, 1, 0, false, 0x0, [⟨31, 0, .ro, none⟩]⟩,
    ⟨0x094, 1, 0, false, 0x0, [⟨31, 0, .ro, none⟩]⟩,
    ⟨0x098, 1, 0, false, 0x0, [⟨31, 0, .ro, none⟩]⟩,
    ⟨0x09C, 1, 0, false, 0x0, [⟨31, 0, .ro, none⟩]⟩ ]

/-- All rows: The BEZEL page table. -/
def rows_bezel : List RegRow := rows_bezel_0 ++ rows_bezel_1

/-- The ERR page table. Part 1 of 2 (spec file 15_errors_ordering_progress.md). -/
def rows_err_0 : List RegRow :=
  [ ⟨0x040, 1, 0, false, 0x1400, [⟨5, 0, .rw, none⟩, ⟨15, 8, .rw, some (1, 255)⟩]⟩,
    ⟨0x044, 1, 0, false, 0x0, [⟨31, 0, .ro, none⟩]⟩,
    ⟨0x048, 1, 0, false, 0x0, [⟨31, 0, .ro, none⟩]⟩,
    ⟨0x04C, 1, 0, false, 0x0, [⟨31, 0, .ro, none⟩]⟩,
    ⟨0x050, 1, 0, false, 0x0, [⟨31, 0, .ro, none⟩]⟩,
    ⟨0x054, 1, 0, false, 0x0, [⟨6, 0, .ro, none⟩, ⟨31, 31, .ro, none⟩]⟩,
    ⟨0x058, 1, 0, false, 0x0, [⟨31, 0, .ro, none⟩]⟩,
    ⟨0x05C, 1, 0, false, 0x0, [⟨17, 0, .ro, none⟩]⟩,
    ⟨0x060, 1, 0, false, 0x0, [⟨23, 0, .ro, none⟩]⟩,
    ⟨0x064, 1, 0, false, 0x0, [⟨23, 0, .ro, none⟩]⟩,
    ⟨0x068, 1, 0, false, 0x0, [⟨5, 0, .ro, none⟩, ⟨8, 8, .ro, none⟩]⟩,
    ⟨0x06C, 1, 0, false, 0x0, [⟨0, 0, .wo, none⟩]⟩ ]

/-- The ERR page table. Part 2 of 2 (spec file 15_errors_ordering_progress.md). -/
def rows_err_1 : List RegRow :=
  [ ⟨0x080, 1, 0, false, 0x0, [⟨31, 0, .ro, none⟩]⟩,
    ⟨0x084, 1, 0, false, 0x0, [⟨31, 0, .ro, none⟩]⟩,
    ⟨0x088, 1, 0, false, 0x0, [⟨31, 0, .ro, none⟩]⟩,
    ⟨0x08C, 1, 0, false, 0x0, [⟨31, 0, .ro, none⟩]⟩,
    ⟨0x090, 1, 0, false, 0x0, [⟨31, 0, .ro, none⟩]⟩,
    ⟨0x094, 1, 0, false, 0x0, [⟨31, 0, .ro, none⟩]⟩,
    ⟨0x098, 1, 0, false, 0x0, [⟨31, 0, .ro, none⟩]⟩ ]

/-- All rows: The ERR page table. -/
def rows_err : List RegRow := rows_err_0 ++ rows_err_1

/-- The common page header (R467). Part 1 of 1 (spec file 16_register_pages_events.md). -/
def rows_hdr_0 : List RegRow :=
  [ ⟨0x000, 1, 0, false, 0x0, [⟨31, 16, .ro, none⟩, ⟨15, 8, .ro, none⟩, ⟨7, 0, .ro, none⟩]⟩,
    ⟨0x004, 1, 0, false, 0x0, [⟨31, 0, .ro, none⟩]⟩,
    ⟨0x008, 1, 0, false, 0x1, [⟨0, 0, .rw, none⟩, ⟨1, 1, .rw, none⟩]⟩,
    ⟨0x00C, 1, 0, false, 0x1, [⟨0, 0, .ro, none⟩, ⟨1, 1, .ro, none⟩, ⟨2, 2, .ro, none⟩]⟩,
    ⟨0x010, 1, 0, false, 0x0, [⟨31, 0, .w1c, none⟩]⟩,
    ⟨0x014, 1, 0, false, 0x0, [⟨31, 0, .rw, none⟩]⟩,
    ⟨0x018, 1, 0, false, 0x0, [⟨31, 0, .ro, none⟩]⟩,
    ⟨0x01C, 1, 0, false, 0x0, [⟨31, 0, .ro, none⟩]⟩,
    ⟨0x020, 1, 0, false, 0x0, [⟨31, 0, .w1c, none⟩]⟩,
    ⟨0x024, 1, 0, false, 0x0, [⟨31, 0, .rw, none⟩]⟩,
    ⟨0x028, 1, 0, false, 0x0, [⟨31, 0, .ro, none⟩]⟩,
    ⟨0x02C, 1, 0, false, 0x0, [⟨0, 0, .w1s, none⟩, ⟨1, 1, .w1s, none⟩]⟩ ]

/-- All rows: The common page header (R467). -/
def rows_hdr : List RegRow := rows_hdr_0

/-- The EVT page table. Part 1 of 1 (spec file 16_register_pages_events.md). -/
def rows_evtc_0 : List RegRow :=
  [ ⟨0x040, 1, 0, false, 0x0, [⟨7, 0, .rw, none⟩]⟩,
    ⟨0x044, 1, 0, false, 0x0, [⟨5, 0, .rw, none⟩, ⟨6, 6, .rw, none⟩, ⟨13, 8, .rw, none⟩, ⟨14, 14, .rw, none⟩, ⟨16, 16, .rw, none⟩]⟩,
    ⟨0x048, 1, 0, false, 0x6, [⟨0, 0, .ro, none⟩, ⟨1, 1, .ro, none⟩, ⟨2, 2, .ro, none⟩]⟩,
    ⟨0x04C, 1, 0, false, 0x0, [⟨7, 0, .wo, none⟩]⟩,
    ⟨0x050, 1, 0, false, 0x0, [⟨7, 0, .wo, none⟩]⟩,
    ⟨0x054, 1, 0, false, 0x0, [⟨0, 0, .wo, none⟩]⟩,
    ⟨0x060, 8, 4, false, 0x0, [⟨31, 0, .ro, none⟩]⟩,
    ⟨0x080, 1, 0, false, 0x0, [⟨31, 0, .ro, none⟩]⟩,
    ⟨0x084, 1, 0, false, 0x0, [⟨31, 0, .ro, none⟩]⟩,
    ⟨0x088, 1, 0, false, 0x0, [⟨31, 0, .ro, none⟩]⟩,
    ⟨0x400, 1, 0, true, 0x0, [⟨7, 0, .rw, none⟩]⟩,
    ⟨0x404, 1, 0, true, 0x0, [⟨7, 0, .rw, none⟩]⟩ ]

/-- All rows: The EVT page table. -/
def rows_evtc : List RegRow := rows_evtc_0

/-- The EVTS page table. Part 1 of 1 (spec file 16_register_pages_events.md). -/
def rows_evts_0 : List RegRow :=
  [ ⟨0x040, 1, 0, false, 0x0, [⟨7, 0, .rw, none⟩]⟩,
    ⟨0x044, 1, 0, false, 0x0, [⟨1, 0, .rw, none⟩, ⟨15, 4, .rw, none⟩, ⟨23, 16, .rw, none⟩]⟩,
    ⟨0x048, 1, 0, false, 0x0, [⟨0, 0, .ro, none⟩]⟩,
    ⟨0x04C, 1, 0, false, 0x0, [⟨0, 0, .wo, none⟩]⟩,
    ⟨0x060, 8, 4, false, 0x0, [⟨31, 0, .ro, none⟩]⟩,
    ⟨0x080, 1, 0, false, 0x0, [⟨31, 0, .ro, none⟩]⟩,
    ⟨0x084, 1, 0, false, 0x0, [⟨31, 0, .ro, none⟩]⟩ ]

/-- All rows: The EVTS page table. -/
def rows_evts : List RegRow := rows_evts_0

/-- The HOST page table. Part 1 of 1 (spec file 17_host_ports_chain.md). -/
def rows_host_0 : List RegRow :=
  [ ⟨0x040, 1, 0, false, 0x0, [⟨1, 0, .ro, none⟩, ⟨5, 4, .ro, none⟩, ⟨8, 8, .ro, none⟩, ⟨9, 9, .ro, none⟩, ⟨10, 10, .ro, none⟩, ⟨11, 11, .ro, none⟩]⟩,
    ⟨0x044, 1, 0, false, 0x3, [⟨1, 0, .rwl, some (1, 3)⟩]⟩,
    ⟨0x048, 1, 0, false, 0x0, [⟨0, 0, .wo, none⟩]⟩,
    ⟨0x080, 1, 0, false, 0x0, [⟨31, 0, .ro, none⟩]⟩,
    ⟨0x084, 1, 0, false, 0x0, [⟨31, 0, .ro, none⟩]⟩,
    ⟨0x088, 1, 0, false, 0x0, [⟨31, 0, .ro, none⟩]⟩,
    ⟨0x08C, 1, 0, false, 0x0, [⟨31, 0, .ro, none⟩]⟩,
    ⟨0x090, 1, 0, false, 0x0, [⟨31, 0, .ro, none⟩]⟩,
    ⟨0x094, 1, 0, false, 0x0, [⟨31, 0, .ro, none⟩]⟩,
    ⟨0x098, 1, 0, false, 0x0, [⟨31, 0, .ro, none⟩]⟩ ]

/-- All rows: The HOST page table. -/
def rows_host : List RegRow := rows_host_0

/-- The CHAIN page table. Part 1 of 1 (spec file 17_host_ports_chain.md). -/
def rows_chain_0 : List RegRow :=
  [ ⟨0x040, 1, 0, false, 0x0, [⟨5, 0, .ro, none⟩, ⟨8, 8, .ro, none⟩, ⟨9, 9, .ro, none⟩]⟩,
    ⟨0x044, 1, 0, false, 0x0, [⟨0, 0, .wo, none⟩]⟩,
    ⟨0x048, 1, 0, false, 0x0, [⟨25, 2, .rw, none⟩]⟩,
    ⟨0x04C, 1, 0, false, 0x0, [⟨31, 0, .rw, none⟩]⟩,
    ⟨0x050, 1, 0, false, 0x0, [⟨0, 0, .wo, none⟩]⟩,
    ⟨0x080, 1, 0, false, 0x0, [⟨31, 0, .ro, none⟩]⟩,
    ⟨0x084, 1, 0, false, 0x0, [⟨31, 0, .ro, none⟩]⟩,
    ⟨0x088, 1, 0, false, 0x0, [⟨31, 0, .ro, none⟩]⟩,
    ⟨0x08C, 1, 0, false, 0x0, [⟨31, 0, .ro, none⟩]⟩ ]

/-- All rows: The CHAIN page table. -/
def rows_chain : List RegRow := rows_chain_0

/-- The ETH page table. Part 1 of 3 (spec file 17_host_ports_chain.md). -/
def rows_eth_0 : List RegRow :=
  [ ⟨0x040, 1, 0, false, 0x4, [⟨1, 0, .rw, none⟩, ⟨2, 2, .rw, none⟩, ⟨3, 3, .rw, none⟩, ⟨4, 4, .rw, none⟩]⟩,
    ⟨0x044, 1, 0, false, 0x0, [⟨0, 0, .ro, none⟩, ⟨2, 1, .ro, none⟩]⟩,
    ⟨0x048, 1, 0, false, 0x0, [⟨31, 0, .rw, none⟩]⟩,
    ⟨0x04C, 1, 0, false, 0x0, [⟨15, 0, .rw, none⟩]⟩,
    ⟨0x050, 1, 0, false, 0x5F2, [⟨13, 0, .rw, some (1298, 9216)⟩]⟩,
    ⟨0x054, 1, 0, false, 0x1000000, [⟨0, 0, .rw, none⟩, ⟨13, 8, .rw, none⟩, ⟨21, 16, .rw, none⟩, ⟨24, 24, .rw, none⟩]⟩,
    ⟨0x058, 1, 0, false, 0x0, [⟨9, 0, .rw, none⟩]⟩,
    ⟨0x05C, 1, 0, false, 0x0, [⟨9, 0, .rw, none⟩]⟩,
    ⟨0x060, 1, 0, false, 0x0, [⟨11, 0, .rw, none⟩, ⟨15, 15, .rw, none⟩]⟩,
    ⟨0x064, 1, 0, false, 0x0, [⟨3, 0, .rw, none⟩]⟩,
    ⟨0x068, 1, 0, false, 0x0, [⟨31, 0, .rw, none⟩]⟩,
    ⟨0x06C, 1, 0, false, 0x0, [⟨15, 0, .rw, none⟩, ⟨31, 31, .rw, none⟩]⟩ ]

/-- The ETH page table. Part 2 of 3 (spec file 17_host_ports_chain.md). -/
def rows_eth_1 : List RegRow :=
  [ ⟨0x070, 1, 0, false, 0x0, [⟨31, 0, .rw, none⟩]⟩,
    ⟨0x074, 1, 0, false, 0x0, [⟨15, 0, .rw, none⟩]⟩,
    ⟨0x078, 1, 0, false, 0xE, [⟨0, 0, .rw, none⟩, ⟨3, 1, .rw, none⟩, ⟨15, 8, .rw, none⟩]⟩,
    ⟨0x07C, 1, 0, false, 0x0, [⟨0, 0, .wo, none⟩]⟩,
    ⟨0x080, 1, 0, false, 0x0, [⟨31, 0, .ro, none⟩]⟩,
    ⟨0x084, 1, 0, false, 0x0, [⟨31, 0, .ro, none⟩]⟩,
    ⟨0x088, 1, 0, false, 0x0, [⟨31, 0, .ro, none⟩]⟩,
    ⟨0x08C, 1, 0, false, 0x0, [⟨31, 0, .ro, none⟩]⟩,
    ⟨0x090, 1, 0, false, 0x0, [⟨31, 0, .ro, none⟩]⟩,
    ⟨0x094, 1, 0, false, 0x0, [⟨31, 0, .ro, none⟩]⟩,
    ⟨0x098, 1, 0, false, 0x0, [⟨31, 0, .ro, none⟩]⟩,
    ⟨0x09C, 1, 0, false, 0x0, [⟨31, 0, .ro, none⟩]⟩ ]

/-- The ETH page table. Part 3 of 3 (spec file 17_host_ports_chain.md). -/
def rows_eth_2 : List RegRow :=
  [ ⟨0x0A0, 1, 0, false, 0x0, [⟨31, 0, .ro, none⟩]⟩,
    ⟨0x0A4, 1, 0, false, 0x0, [⟨31, 0, .ro, none⟩]⟩,
    ⟨0x400, 1, 0, true, 0x0, [⟨15, 0, .rw, none⟩]⟩,
    ⟨0x404, 1, 0, true, 0x0, [⟨15, 0, .rw, none⟩]⟩,
    ⟨0x408, 1, 0, true, 0x0, [⟨31, 0, .rw, none⟩]⟩ ]

/-- All rows: The ETH page table. -/
def rows_eth : List RegRow := rows_eth_0 ++ rows_eth_1 ++ rows_eth_2

/-- The PD page table. Part 1 of 2 (spec file 18_power_domains.md). -/
def rows_pd_0 : List RegRow :=
  [ ⟨0x040, 1, 0, false, 0x0, [⟨31, 0, .rw, none⟩]⟩,
    ⟨0x044, 1, 0, false, 0x0, [⟨31, 0, .rw, none⟩]⟩,
    ⟨0x048, 1, 0, false, 0x0, [⟨31, 0, .rw, none⟩]⟩,
    ⟨0x04C, 1, 0, false, 0x0, [⟨1, 0, .rw, none⟩, ⟨4, 4, .wo, none⟩]⟩,
    ⟨0x050, 1, 0, false, 0x0, [⟨0, 0, .ro, none⟩, ⟨4, 1, .ro, none⟩, ⟨11, 8, .ro, none⟩]⟩,
    ⟨0x054, 1, 0, false, 0x0, [⟨6, 0, .ro, none⟩, ⟨11, 8, .ro, none⟩, ⟨31, 31, .ro, none⟩]⟩,
    ⟨0x058, 1, 0, false, 0x0, [⟨6, 0, .rw, none⟩]⟩,
    ⟨0x05C, 1, 0, false, 0x0, [⟨1, 0, .rwl, none⟩]⟩,
    ⟨0x060, 1, 0, false, 0x0, [⟨1, 0, .ro, none⟩, ⟨4, 2, .ro, none⟩, ⟨8, 8, .ro, none⟩]⟩,
    ⟨0x064, 1, 0, false, 0x0, [⟨23, 0, .w1c, none⟩]⟩,
    ⟨0x068, 1, 0, false, 0x0, [⟨23, 0, .w1c, none⟩]⟩,
    ⟨0x06C, 1, 0, false, 0x0, [⟨0, 0, .wo, none⟩]⟩ ]

/-- The PD page table. Part 2 of 2 (spec file 18_power_domains.md). -/
def rows_pd_1 : List RegRow :=
  [ ⟨0x070, 6, 4, false, 0x0, [⟨31, 0, .ro, none⟩]⟩,
    ⟨0x0A0, 1, 0, false, 0x0, [⟨31, 0, .ro, none⟩]⟩,
    ⟨0x0A4, 1, 0, false, 0x0, [⟨31, 0, .ro, none⟩]⟩,
    ⟨0x0A8, 1, 0, false, 0x0, [⟨31, 0, .ro, none⟩]⟩,
    ⟨0x0AC, 1, 0, false, 0x0, [⟨31, 0, .ro, none⟩]⟩,
    ⟨0x400, 1, 0, true, 0xA, [⟨7, 0, .rw, some (1, 255)⟩]⟩ ]

/-- All rows: The PD page table. -/
def rows_pd : List RegRow := rows_pd_0 ++ rows_pd_1

/-- The PMB page table. Part 1 of 2 (spec file 18_power_domains.md). -/
def rows_pmb_0 : List RegRow :=
  [ ⟨0x040, 1, 0, false, 0x501, [⟨1, 0, .rw, some (0, 2)⟩, ⟨2, 2, .rw, none⟩, ⟨15, 8, .rw, none⟩]⟩,
    ⟨0x044, 1, 0, false, 0x7D0, [⟨15, 0, .rw, some (100, 50000)⟩]⟩,
    ⟨0x048, 1, 0, false, 0x0, [⟨1, 0, .rw, none⟩]⟩,
    ⟨0x04C, 1, 0, false, 0x0, [⟨6, 0, .rwl, none⟩, ⟨15, 8, .rwl, none⟩, ⟨16, 16, .rwl, none⟩, ⟨31, 31, .rwl, none⟩]⟩,
    ⟨0x050, 1, 0, false, 0x0, [⟨15, 0, .rwl, none⟩]⟩,
    ⟨0x054, 1, 0, false, 0x0, [⟨15, 0, .rwl, none⟩]⟩,
    ⟨0x058, 1, 0, false, 0x0, [⟨15, 0, .ro, none⟩, ⟨16, 16, .ro, none⟩]⟩,
    ⟨0x05C, 1, 0, false, 0x0, [⟨7, 0, .rw, none⟩, ⟨9, 8, .rw, none⟩, ⟨10, 10, .rw, none⟩, ⟨13, 12, .rw, none⟩, ⟨15, 15, .wo, none⟩]⟩,
    ⟨0x060, 1, 0, false, 0x0, [⟨15, 0, .rw, none⟩]⟩,
    ⟨0x064, 1, 0, false, 0x0, [⟨0, 0, .ro, none⟩, ⟨1, 1, .ro, none⟩, ⟨2, 2, .ro, none⟩, ⟨3, 3, .ro, none⟩]⟩,
    ⟨0x068, 1, 0, false, 0x0, [⟨0, 0, .wo, none⟩]⟩,
    ⟨0x080, 1, 0, false, 0x0, [⟨31, 0, .ro, none⟩]⟩ ]

/-- The PMB page table. Part 2 of 2 (spec file 18_power_domains.md). -/
def rows_pmb_1 : List RegRow :=
  [ ⟨0x084, 1, 0, false, 0x0, [⟨31, 0, .ro, none⟩]⟩,
    ⟨0x088, 1, 0, false, 0x0, [⟨31, 0, .ro, none⟩]⟩,
    ⟨0x08C, 1, 0, false, 0x0, [⟨31, 0, .ro, none⟩]⟩ ]

/-- All rows: The PMB page table. -/
def rows_pmb : List RegRow := rows_pmb_0 ++ rows_pmb_1

/-- The WAKE page table. Part 1 of 1 (spec file 18_power_domains.md). -/
def rows_wake_0 : List RegRow :=
  [ ⟨0x040, 1, 0, false, 0x1, [⟨0, 0, .rw, none⟩, ⟨14, 8, .ro, none⟩]⟩,
    ⟨0x044, 1, 0, false, 0x0, [⟨0, 0, .w1c, none⟩, ⟨1, 1, .w1c, none⟩, ⟨2, 2, .w1c, none⟩]⟩,
    ⟨0x048, 1, 0, false, 0x0, [⟨2, 0, .rw, none⟩]⟩,
    ⟨0x04C, 1, 0, false, 0x0, [⟨2, 0, .rw, none⟩]⟩,
    ⟨0x050, 3, 4, false, 0x0, [⟨31, 0, .rw, none⟩]⟩,
    ⟨0x060, 8, 4, false, 0x0, [⟨1, 0, .rw, none⟩, ⟨12, 8, .rw, none⟩, ⟨18, 16, .rw, none⟩]⟩,
    ⟨0x080, 1, 0, false, 0x0, [⟨0, 0, .wo, none⟩]⟩,
    ⟨0x084, 1, 0, false, 0x0, [⟨31, 0, .ro, none⟩]⟩,
    ⟨0x088, 1, 0, false, 0x0, [⟨31, 0, .ro, none⟩]⟩,
    ⟨0x08C, 1, 0, false, 0x0, [⟨31, 0, .ro, none⟩]⟩ ]

/-- All rows: The WAKE page table. -/
def rows_wake : List RegRow := rows_wake_0

/-- The CLK page table. Part 1 of 1 (spec file 19_startup_supplies_clocks.md). -/
def rows_clk_0 : List RegRow :=
  [ ⟨0x040, 1, 0, false, 0x0, [⟨0, 0, .ro, none⟩, ⟨1, 1, .ro, none⟩, ⟨6, 2, .ro, none⟩, ⟨7, 7, .ro, none⟩, ⟨8, 8, .ro, none⟩, ⟨9, 9, .ro, none⟩]⟩,
    ⟨0x044, 1, 0, false, 0x0, [⟨0, 0, .wo, none⟩]⟩,
    ⟨0x080, 1, 0, false, 0x0, [⟨31, 0, .ro, none⟩]⟩,
    ⟨0x084, 1, 0, false, 0x0, [⟨31, 0, .ro, none⟩]⟩,
    ⟨0x088, 1, 0, false, 0x0, [⟨31, 0, .ro, none⟩]⟩,
    ⟨0x400, 1, 0, true, 0x0, [⟨0, 0, .rwl, none⟩, ⟨5, 1, .rwl, none⟩]⟩,
    ⟨0x404, 1, 0, true, 0x0, [⟨0, 0, .rwl, none⟩, ⟨1, 1, .rwl, none⟩]⟩ ]

/-- All rows: The CLK page table. -/
def rows_clk : List RegRow := rows_clk_0

/-- The RST page table. Part 1 of 2 (spec file 19_startup_supplies_clocks.md). -/
def rows_rst_0 : List RegRow :=
  [ ⟨0x040, 1, 0, false, 0x0, [⟨15, 0, .ro, none⟩, ⟨23, 16, .ro, none⟩]⟩,
    ⟨0x044, 1, 0, false, 0x0, [⟨1, 0, .ro, none⟩, ⟨4, 2, .ro, none⟩, ⟨5, 5, .ro, none⟩]⟩,
    ⟨0x048, 1, 0, false, 0x1, [⟨0, 0, .w1c, none⟩, ⟨1, 1, .w1c, none⟩, ⟨2, 2, .w1c, none⟩, ⟨3, 3, .w1c, none⟩, ⟨4, 4, .w1c, none⟩]⟩,
    ⟨0x04C, 1, 0, false, 0x1, [⟨2, 0, .ro, none⟩, ⟨3, 3, .ro, none⟩, ⟨5, 4, .ro, none⟩, ⟨7, 6, .ro, none⟩]⟩,
    ⟨0x050, 1, 0, false, 0x0, [⟨0, 0, .wo, none⟩, ⟨1, 1, .wo, none⟩, ⟨4, 4, .wo, none⟩]⟩,
    ⟨0x054, 1, 0, false, 0x0, [⟨1, 0, .rw, none⟩, ⟨2, 2, .rw, none⟩]⟩,
    ⟨0x058, 1, 0, false, 0x0, [⟨20, 2, .rw, none⟩]⟩,
    ⟨0x05C, 1, 0, false, 0x0, [⟨31, 0, .wo, none⟩]⟩,
    ⟨0x060, 1, 0, false, 0x0, [⟨0, 0, .wo, none⟩]⟩,
    ⟨0x064, 1, 0, false, 0x0, [⟨0, 0, .wo, none⟩]⟩,
    ⟨0x080, 1, 0, false, 0x0, [⟨31, 0, .ro, none⟩]⟩,
    ⟨0x084, 1, 0, false, 0x0, [⟨31, 0, .ro, none⟩]⟩ ]

/-- The RST page table. Part 2 of 2 (spec file 19_startup_supplies_clocks.md). -/
def rows_rst_1 : List RegRow :=
  [ ⟨0x088, 1, 0, false, 0x0, [⟨31, 0, .ro, none⟩]⟩,
    ⟨0x08C, 1, 0, false, 0x0, [⟨31, 0, .ro, none⟩]⟩ ]

/-- All rows: The RST page table. -/
def rows_rst : List RegRow := rows_rst_0 ++ rows_rst_1

/-- The register rows of a page kind, beside the header of R467. -/
def rowsOf : PageKind → List RegRow
  | .lath => rows_lath
  | .plumb => rows_plumb
  | .tpo => rows_tpo
  | .rf => rows_rf
  | .chz => rows_chz
  | .duty => rows_duty
  | .facet => rows_facet
  | .air => rows_air
  | .pend => rows_pend
  | .dml => rows_dml
  | .skim => rows_skim
  | .lowpan => rows_lowpan
  | .node => rows_node
  | .pcam => rows_pcam
  | .sander => rows_sander
  | .locket => rows_locket
  | .filig => rows_filig
  | .sec => rows_sec
  | .hall => rows_hall
  | .tamp => rows_tamp
  | .loupe => rows_loupe
  | .trowel => rows_trowel
  | .gate => rows_gate
  | .mram => rows_mram
  | .ibe => rows_ibe
  | .strand => rows_strand
  | .disp => rows_disp
  | .sem => rows_sem
  | .clasp => rows_clasp
  | .bezel => rows_bezel
  | .err => rows_err
  | .evtc => rows_evtc
  | .evts => rows_evts
  | .host => rows_host
  | .chain => rows_chain
  | .eth => rows_eth
  | .pd => rows_pd
  | .pmb => rows_pmb
  | .wake => rows_wake
  | .clk => rows_clk
  | .rst => rows_rst

end Sys2Proof.Machine

/-! Offsets of the registers by the names the spec gives them. -/
namespace Sys2Proof.Reg

abbrev LATH_LT_LO : Nat := 0x040
abbrev LATH_LT_HI : Nat := 0x044
abbrev LATH_STAT : Nat := 0x048
abbrev LATH_FLAGS : Nat := 0x04C
abbrev LATH_CMD : Nat := 0x050
abbrev LATH_TMR_TGT_LO : Nat := 0x100
abbrev LATH_TMR_TGT_HI : Nat := 0x104
abbrev LATH_TMR_CTRL : Nat := 0x108
abbrev LATH_ACQ_CFG : Nat := 0x400
abbrev PLUMB_SRC_PRIO : Nat := 0x040
abbrev PLUMB_JUMP_THRESH : Nat := 0x044
abbrev PLUMB_SLEW_MAX : Nat := 0x048
abbrev PLUMB_STAT : Nat := 0x04C
abbrev PLUMB_OFFSET : Nat := 0x050
abbrev PLUMB_FREQ_ADJ : Nat := 0x054
abbrev PLUMB_PEND_STEP_LO : Nat := 0x058
abbrev PLUMB_PEND_STEP_HI : Nat := 0x05C
abbrev PLUMB_HOST_TIME_LO : Nat := 0x060
abbrev PLUMB_HOST_TIME_HI : Nat := 0x064
abbrev PLUMB_TOD_LO : Nat := 0x068
abbrev PLUMB_TOD_HI : Nat := 0x06C
abbrev PLUMB_LOSS_CFG : Nat := 0x070
abbrev PLUMB_PTP_MEAS : Nat := 0x080
abbrev PLUMB_LOOP_BW : Nat := 0x400
abbrev PLUMB_HOLDOVER_LIMIT : Nat := 0x404
abbrev PLUMB_PPS_WINDOW : Nat := 0x408
abbrev PLUMB_REF10_TOL : Nat := 0x40C
abbrev TPO_CTRL : Nat := 0x040
abbrev TPO_START_LO : Nat := 0x044
abbrev TPO_START_HI : Nat := 0x048
abbrev TPO_PERIOD : Nat := 0x04C
abbrev TPO_WIDTH : Nat := 0x050
abbrev TPO_STAT : Nat := 0x054
abbrev TPO_TRIM : Nat := 0x400
abbrev RF_LO_FREQ : Nat := 0x040
abbrev RF_PORT_CFG : Nat := 0x044
abbrev RF_PORT_STAT : Nat := 0x048
abbrev RF_AGC_CFG : Nat := 0x04C
abbrev RF_TX_CFG : Nat := 0x050
abbrev RF_BLANK_DIST : Nat := 0x054
abbrev RF_RX_TRIM : Nat := 0x058
abbrev RF_TX_TRIM : Nat := 0x05C
abbrev RF_RSSI_OFS : Nat := 0x060
abbrev RF_CAL_CFG : Nat := 0x064
abbrev RF_CAL_CMD : Nat := 0x068
abbrev RF_CNT_CLR : Nat := 0x06C
abbrev RF_LAUNCHED : Nat := 0x080
abbrev RF_LATE : Nat := 0x084
abbrev RF_MISSED : Nat := 0x088
abbrev RF_DUTY_VETO : Nat := 0x08C
abbrev RF_DWELL_VETO : Nat := 0x090
abbrev RF_LBT_BUSY : Nat := 0x094
abbrev RF_PREEMPTED : Nat := 0x098
abbrev RF_ACK_SENT : Nat := 0x09C
abbrev RF_ACK_NO_CARRIER : Nat := 0x0A0
abbrev RF_ACK_SUPPRESSED : Nat := 0x0A4
abbrev RF_BLANKED : Nat := 0x0A8
abbrev RF_NEAR_TX : Nat := 0x0AC
abbrev RF_ADC_CLIP : Nat := 0x0B0
abbrev RF_FE_CFG : Nat := 0x200
abbrev RF_CANC_CFG : Nat := 0x400
abbrev RF_CANC_STAT : Nat := 0x404
abbrev RF_AGC_TIMING : Nat := 0x408
abbrev CHZ_CH_IDX : Nat := 0x040
abbrev CHZ_CH_CFG0 : Nat := 0x044
abbrev CHZ_CH_MODES : Nat := 0x048
abbrev CHZ_CH_CFG1 : Nat := 0x04C
abbrev CHZ_CH_CMD : Nat := 0x050
abbrev CHZ_CH_RESULT : Nat := 0x054
abbrev CHZ_CTX_STAT : Nat := 0x058
abbrev CHZ_LBT_CFG : Nat := 0x05C
abbrev CHZ_DWELL_WIN : Nat := 0x060
abbrev CHZ_RSSI_IDX : Nat := 0x064
abbrev CHZ_RSSI : Nat := 0x068
abbrev CHZ_BLANK_IDX : Nat := 0x06C
abbrev CHZ_BLANK_MAP : Nat := 0x070
abbrev CHZ_RSSI_WIN : Nat := 0x400
abbrev DUTY_ACCT_CFG : Nat := 0x040
abbrev DUTY_ACCT_LIMIT : Nat := 0x044
abbrev DUTY_ACCT_USED : Nat := 0x048
abbrev DUTY_ACCT_VETO : Nat := 0x04C
abbrev DUTY_BUCKET_IDX : Nat := 0x400
abbrev FACET_CFG : Nat := 0x040
abbrev FACET_PORT_LIMIT : Nat := 0x044
abbrev FACET_SFD_TO : Nat := 0x048
abbrev FACET_CH_SEL : Nat := 0x04C
abbrev FACET_CH_LANES : Nat := 0x050
abbrev FACET_LANE_STAT : Nat := 0x054
abbrev FACET_BUSY_WARN : Nat := 0x058
abbrev FACET_CNT_CLR : Nat := 0x05C
abbrev FACET_RSV_STAT : Nat := 0x060
abbrev FACET_DETECT : Nat := 0x080
abbrev FACET_BOUND : Nat := 0x084
abbrev FACET_LANE_STARVED : Nat := 0x088
abbrev FACET_CH_FULL : Nat := 0x08C
abbrev FACET_MERGED : Nat := 0x090
abbrev FACET_SFD_TIMEOUT : Nat := 0x094
abbrev FACET_PHR_BAD : Nat := 0x098
abbrev FACET_FCS_OK : Nat := 0x09C
abbrev FACET_FCS_BAD : Nat := 0x0A0
abbrev FACET_LOST : Nat := 0x0A4
abbrev FACET_ABORTED : Nat := 0x0A8
abbrev FACET_BUSY_ACC : Nat := 0x0AC
abbrev FACET_CHSEL_DET : Nat := 0x0B0
abbrev FACET_CHSEL_BOUND : Nat := 0x0B4
abbrev FACET_CHSEL_STARVED : Nat := 0x0B8
abbrev FACET_CHSEL_FULL : Nat := 0x0BC
abbrev FACET_MERGE_CFG : Nat := 0x400
abbrev FACET_CAPTURE : Nat := 0x404
abbrev FACET_DET_THRESH : Nat := 0x408
abbrev AIR_FILT_CFG : Nat := 0x040
abbrev AIR_PAN_ID : Nat := 0x044
abbrev AIR_ACK_CFG : Nat := 0x048
abbrev AIR_ACK_VID : Nat := 0x04C
abbrev AIR_RXBUF_STAT : Nat := 0x050
abbrev AIR_PL_STAT : Nat := 0x054
abbrev AIR_PL_QADDR_LO : Nat := 0x058
abbrev AIR_PL_QADDR_HI : Nat := 0x05C
abbrev AIR_PL_QCMD : Nat := 0x060
abbrev AIR_PL_QRES : Nat := 0x064
abbrev AIR_CNT_CLR : Nat := 0x068
abbrev AIR_RX_ACCEPT : Nat := 0x080
abbrev AIR_RX_HOST : Nat := 0x084
abbrev AIR_RX_ACKFRAME : Nat := 0x088
abbrev AIR_FILT_VERSION : Nat := 0x08C
abbrev AIR_FILT_TYPE : Nat := 0x090
abbrev AIR_FILT_PAN : Nat := 0x094
abbrev AIR_FILT_ADDR : Nat := 0x098
abbrev AIR_RX_OVERRUN : Nat := 0x09C
abbrev AIR_ACK_PREP : Nat := 0x0A0
abbrev AIR_ACK_PEND1 : Nat := 0x0A4
abbrev AIR_ACK_COLLIDE : Nat := 0x0A8
abbrev AIR_PL_FULL : Nat := 0x0AC
abbrev AIR_FILT_MHR : Nat := 0x0B0
abbrev AIR_OWN_LO : Nat := 0x100
abbrev AIR_OWN_HI : Nat := 0x104
abbrev AIR_OWN_CFG : Nat := 0x108
abbrev AIR_TURN_SUN : Nat := 0x400
abbrev AIR_ACK_PRE : Nat := 0x404
abbrev AIR_FILT_EXP : Nat := 0x408
abbrev PEND_CFG : Nat := 0x040
abbrev PEND_RXW_OFFSET : Nat := 0x044
abbrev PEND_RXW_LEN : Nat := 0x048
abbrev PEND_MAX_AGE : Nat := 0x04C
abbrev PEND_MAX_WINDOWS : Nat := 0x050
abbrev PEND_GUARD_BASE : Nat := 0x054
abbrev PEND_GUARD_RES : Nat := 0x058
abbrev PEND_ACKW_CFG : Nat := 0x05C
abbrev PEND_POOL_STAT : Nat := 0x060
abbrev PEND_PARK_STAT : Nat := 0x064
abbrev PEND_CNT_CLR : Nat := 0x068
abbrev PEND_PARKED : Nat := 0x080
abbrev PEND_DELIVERED : Nat := 0x084
abbrev PEND_EXPIRED : Nat := 0x088
abbrev PEND_UNDELIVERED : Nat := 0x08C
abbrev PEND_POOL_FULL : Nat := 0x090
abbrev PEND_NODE_FULL : Nat := 0x094
abbrev PEND_UNANNOUNCED : Nat := 0x098
abbrev PEND_PEND_NOFRAME : Nat := 0x09C
abbrev PEND_WIN_LAUNCH : Nat := 0x0A0
abbrev PEND_WIN_LOST : Nat := 0x0A4
abbrev PEND_WIN_NOACK : Nat := 0x0A8
abbrev PEND_WIN_SKIPPED : Nat := 0x0AC
abbrev PEND_RETRY : Nat := 0x0B0
abbrev PEND_ACK_UNMATCHED : Nat := 0x0B4
abbrev PEND_DUP_ACKED : Nat := 0x0B8
abbrev PEND_NODE_DRIFT : Nat := 0x0BC
abbrev PEND_WIN_IDX : Nat := 0x100
abbrev PEND_WIN_MESH : Nat := 0x104
abbrev PEND_WIN_NOM_LO : Nat := 0x108
abbrev PEND_WIN_NOM_HI : Nat := 0x10C
abbrev PEND_WIN_PERIOD : Nat := 0x110
abbrev PEND_WIN_LEN : Nat := 0x114
abbrev PEND_WIN_ANCHOR_LO : Nat := 0x118
abbrev PEND_WIN_ANCHOR_HI : Nat := 0x11C
abbrev PEND_WIN_EPS : Nat := 0x120
abbrev PEND_WIN_CMD : Nat := 0x124
abbrev PEND_WIN_RESULT : Nat := 0x128
abbrev PEND_DRIFT_AVG : Nat := 0x400
abbrev DML_CFG : Nat := 0x040
abbrev DML_OWN_ID : Nat := 0x044
abbrev DML_TX_CFG : Nat := 0x048
abbrev DML_BACKOFF : Nat := 0x04C
abbrev DML_SUPP_K : Nat := 0x050
abbrev DML_TX_SEQ : Nat := 0x054
abbrev DML_CNT_CLR : Nat := 0x058
abbrev DML_RELAY_S : Nat := 0x060
abbrev DML_RELAY_M : Nat := 0x064
abbrev DML_RELAY_H : Nat := 0x068
abbrev DML_RX_OK : Nat := 0x080
abbrev DML_SHORT : Nat := 0x084
abbrev DML_VERSION : Nat := 0x088
abbrev DML_TYPE : Nat := 0x08C
abbrev DML_DIR : Nat := 0x090
abbrev DML_TENANT : Nat := 0x094
abbrev DML_ORIG_BAD : Nat := 0x098
abbrev DML_OWN_ECHO : Nat := 0x09C
abbrev DML_HOPS : Nat := 0x0A0
abbrev DML_RELAY_WAIT : Nat := 0x0A4
abbrev DML_RELAY_LIMIT : Nat := 0x0A8
abbrev DML_RELAY_SENT : Nat := 0x0AC
abbrev DML_SUPPRESSED : Nat := 0x0B0
abbrev DML_RELAY_DROP : Nat := 0x0B4
abbrev DML_TX_ORIG : Nat := 0x0B8
abbrev DML_TX_NOID : Nat := 0x0BC
abbrev DML_TEN_EN : Nat := 0x100
abbrev DML_SEL_MAP : Nat := 0x180
abbrev DML_HOP_CHK : Nat := 0x400
abbrev SKIM_CFG : Nat := 0x040
abbrev SKIM_OCC : Nat := 0x044
abbrev SKIM_OCC_PEAK : Nat := 0x048
abbrev SKIM_PEND_NOW : Nat := 0x04C
abbrev SKIM_CNT_CLR : Nat := 0x050
abbrev SKIM_LOOKUP : Nat := 0x080
abbrev SKIM_DUP : Nat := 0x084
abbrev SKIM_INSERT : Nat := 0x088
abbrev SKIM_LATE_DUP : Nat := 0x08C
abbrev SKIM_EVICT : Nat := 0x090
abbrev SKIM_NOROOM : Nat := 0x094
abbrev SKIM_HEARD : Nat := 0x098
abbrev SKIM_EVICT_POL : Nat := 0x400
abbrev LOWPAN_CFG : Nat := 0x040
abbrev LOWPAN_TX_MAX_PSDU : Nat := 0x044
abbrev LOWPAN_REASM_TO : Nat := 0x048
abbrev LOWPAN_REASM_STAT : Nat := 0x04C
abbrev LOWPAN_OWN_IID_LO : Nat := 0x050
abbrev LOWPAN_OWN_IID_HI : Nat := 0x054
abbrev LOWPAN_TX_TAG : Nat := 0x058
abbrev LOWPAN_CNT_CLR : Nat := 0x05C
abbrev LOWPAN_CTX_IDX : Nat := 0x060
abbrev LOWPAN_CTX_PFX : Nat := 0x064
abbrev LOWPAN_CTX_CFG : Nat := 0x074
abbrev LOWPAN_CTX_CMD : Nat := 0x078
abbrev LOWPAN_DECOMP : Nat := 0x080
abbrev LOWPAN_COMP : Nat := 0x084
abbrev LOWPAN_DISPATCH_BAD : Nat := 0x088
abbrev LOWPAN_MESH_HDR : Nat := 0x08C
abbrev LOWPAN_IPHC_BAD : Nat := 0x090
abbrev LOWPAN_FRAG_RX : Nat := 0x094
abbrev LOWPAN_REASM_OK : Nat := 0x098
abbrev LOWPAN_REASM_TIMEOUT : Nat := 0x09C
abbrev LOWPAN_REASM_FULL : Nat := 0x0A0
abbrev LOWPAN_REASM_OVERLAP : Nat := 0x0A4
abbrev LOWPAN_TOOBIG : Nat := 0x0A8
abbrev LOWPAN_FRAG_TX : Nat := 0x0AC
abbrev NODE_CFG : Nat := 0x040
abbrev NODE_HASH_SEED : Nat := 0x044
abbrev NODE_COUNT : Nat := 0x048
abbrev NODE_LEARNED_CNT : Nat := 0x04C
abbrev NODE_PORT_LIMIT : Nat := 0x050
abbrev NODE_PORT_CNT : Nat := 0x054
abbrev NODE_TEN_IDX : Nat := 0x068
abbrev NODE_TEN_LIMIT : Nat := 0x06C
abbrev NODE_TEN_CNT : Nat := 0x070
abbrev NODE_LOCK_STAT : Nat := 0x074
abbrev NODE_CNT_CLR : Nat := 0x078
abbrev NODE_LOOKUP : Nat := 0x080
abbrev NODE_HIT : Nat := 0x084
abbrev NODE_MISS : Nat := 0x088
abbrev NODE_LEARNED : Nat := 0x08C
abbrev NODE_LEARN_OFF : Nat := 0x090
abbrev NODE_NOT_LEARNABLE : Nat := 0x094
abbrev NODE_EUI_CONFLICT : Nat := 0x098
abbrev NODE_LIM_PORT : Nat := 0x09C
abbrev NODE_LIM_TEN : Nat := 0x0A0
abbrev NODE_NOROOM : Nat := 0x0A4
abbrev NODE_TO_HOST : Nat := 0x0A8
abbrev NODE_HIT_DISCARD : Nat := 0x0AC
abbrev NODE_HIT_LOCKED : Nat := 0x0B0
abbrev NODE_DL_UNKNOWN : Nat := 0x0B4
abbrev NODE_DL_TENANT : Nat := 0x0B8
abbrev NODE_CMD_OK : Nat := 0x0BC
abbrev NODE_CMD_FAIL : Nat := 0x0C0
abbrev NODE_LINK_AVG : Nat := 0x400
abbrev NODE_LOCK_TO : Nat := 0x404
abbrev PCAM_CFG : Nat := 0x040
abbrev PCAM_COUNT : Nat := 0x044
abbrev PCAM_MOVE_STAT : Nat := 0x048
abbrev PCAM_CNT_CLR : Nat := 0x04C
abbrev PCAM_LOOKUP : Nat := 0x080
abbrev PCAM_MATCH : Nat := 0x084
abbrev PCAM_MISS : Nat := 0x088
abbrev PCAM_INSERT : Nat := 0x08C
abbrev PCAM_DELETE : Nat := 0x090
abbrev PCAM_FULL : Nat := 0x094
abbrev SANDER_CFG : Nat := 0x040
abbrev SANDER_PASS : Nat := 0x044
abbrev SANDER_POS : Nat := 0x048
abbrev SANDER_PASSES : Nat := 0x04C
abbrev SANDER_CNT_CLR : Nat := 0x050
abbrev SANDER_VISITED : Nat := 0x080
abbrev SANDER_CLEARED : Nat := 0x084
abbrev SANDER_MARKED : Nat := 0x088
abbrev SANDER_REMOVED : Nat := 0x08C
abbrev SANDER_SKIP_LOCK : Nat := 0x090
abbrev SANDER_KEPT_STATIC : Nat := 0x094
abbrev SANDER_CMD : Nat := 0x400
abbrev LOCKET_CFG : Nat := 0x040
abbrev LOCKET_STAT : Nat := 0x044
abbrev LOCKET_SLOTS_USED : Nat := 0x048
abbrev LOCKET_DEV_GEN : Nat := 0x04C
abbrev LOCKET_SLOT_IDX : Nat := 0x050
abbrev LOCKET_SLOT_INFO : Nat := 0x054
abbrev LOCKET_SLOT_GEN : Nat := 0x058
abbrev LOCKET_ENROL : Nat := 0x05C
abbrev LOCKET_CNT_CLR : Nat := 0x060
abbrev LOCKET_SLOT_INFO_HI : Nat := 0x064
abbrev LOCKET_UNWRAP_FAIL : Nat := 0x080
abbrev LOCKET_REMASK_PASSES : Nat := 0x084
abbrev LOCKET_ZEROIZE : Nat := 0x088
abbrev LOCKET_PUF_STAT : Nat := 0x400
abbrev LOCKET_PUF_MARGIN : Nat := 0x404
abbrev FILIG_CFG : Nat := 0x040
abbrev FILIG_TEN_IDX : Nat := 0x044
abbrev FILIG_TEN_MAP : Nat := 0x048
abbrev FILIG_TEN_GEN : Nat := 0x04C
abbrev FILIG_OCC : Nat := 0x050
abbrev FILIG_CNT_CLR : Nat := 0x054
abbrev FILIG_REQ : Nat := 0x080
abbrev FILIG_HIT : Nat := 0x084
abbrev FILIG_MISS : Nat := 0x088
abbrev FILIG_STALE : Nat := 0x08C
abbrev FILIG_DERIVE : Nat := 0x090
abbrev FILIG_REFUSED : Nat := 0x094
abbrev FILIG_EVICT : Nat := 0x098
abbrev FILIG_CMD_OK : Nat := 0x09C
abbrev FILIG_CMD_FAIL : Nat := 0x0A0
abbrev FILIG_DERIV_MAX : Nat := 0x400
abbrev SEC_CFG : Nat := 0x040
abbrev SEC_TEN_IDX : Nat := 0x044
abbrev SEC_TEN_CFG : Nat := 0x048
abbrev SEC_TEN_TXFC : Nat := 0x04C
abbrev SEC_OWN_EUI_LO : Nat := 0x050
abbrev SEC_OWN_EUI_HI : Nat := 0x054
abbrev SEC_DL_FLOOR : Nat := 0x058
abbrev SEC_WIN_STAT : Nat := 0x05C
abbrev SEC_CNT_CLR : Nat := 0x060
abbrev SEC_RX_OK : Nat := 0x080
abbrev SEC_UNSECURED : Nat := 0x084
abbrev SEC_LEVEL_LOW : Nat := 0x088
abbrev SEC_AUX_BAD : Nat := 0x08C
abbrev SEC_SRC_BAD : Nat := 0x090
abbrev SEC_EPOCH_BAD : Nat := 0x094
abbrev SEC_KEY_REFUSED : Nat := 0x098
abbrev SEC_MIC_BAD : Nat := 0x09C
abbrev SEC_REPLAY : Nat := 0x0A0
abbrev SEC_WIN_ACCEPT : Nat := 0x0A4
abbrev SEC_WIN_EVICT : Nat := 0x0A8
abbrev SEC_TX_PROT : Nat := 0x0AC
abbrev SEC_TX_REFUSED : Nat := 0x0B0
abbrev SEC_TAMPERED : Nat := 0x0B4
abbrev SEC_DL_SHIFT : Nat := 0x400
abbrev HALL_ID : Nat := 0x040
abbrev HALL_SERIAL_LO : Nat := 0x050
abbrev HALL_SERIAL_HI : Nat := 0x054
abbrev HALL_CTR_LO : Nat := 0x058
abbrev HALL_CTR_HI : Nat := 0x05C
abbrev HALL_BOOTS : Nat := 0x060
abbrev HALL_LAST_STATUS : Nat := 0x064
abbrev HALL_CNT_CLR : Nat := 0x068
abbrev HALL_UPD_OK : Nat := 0x080
abbrev HALL_UPD_REFUSED : Nat := 0x084
abbrev HALL_UPD_REPLAY : Nat := 0x088
abbrev HALL_OPK_HASH : Nat := 0x400
abbrev TAMP_SRC_EN : Nat := 0x040
abbrev TAMP_IN_CFG : Nat := 0x044
abbrev TAMP_STAT : Nat := 0x054
abbrev TAMP_CAUSE : Nat := 0x058
abbrev TAMP_CAUSE_LT : Nat := 0x05C
abbrev TAMP_COUNT : Nat := 0x060
abbrev LOUPE_CMD : Nat := 0x040
abbrev LOUPE_STAT : Nat := 0x044
abbrev LOUPE_FAILS : Nat := 0x048
abbrev LOUPE_NONCE_TTL : Nat := 0x04C
abbrev LOUPE_LOCKOUT_LEFT : Nat := 0x050
abbrev LOUPE_NONCE : Nat := 0x060
abbrev LOUPE_RESP_KEY : Nat := 0x100
abbrev LOUPE_RESP_SIG : Nat := 0x140
abbrev LOUPE_RESP_SEL : Nat := 0x180
abbrev LOUPE_DBG_OP_HASH : Nat := 0x400
abbrev LOUPE_DBG_VEN_HASH : Nat := 0x420
abbrev TROWEL_CFG : Nat := 0x040
abbrev TROWEL_REL_LEAD : Nat := 0x044
abbrev TROWEL_CAR_EN : Nat := 0x048
abbrev TROWEL_QLIM : Nat := 0x04C
abbrev TROWEL_PROT_MAX : Nat := 0x050
abbrev TROWEL_QSTAT : Nat := 0x054
abbrev TROWEL_CNT_CLR : Nat := 0x058
abbrev TROWEL_SHP_IDX : Nat := 0x060
abbrev TROWEL_SHP_CIR : Nat := 0x064
abbrev TROWEL_SHP_CBS : Nat := 0x068
abbrev TROWEL_SHP_PIR : Nat := 0x06C
abbrev TROWEL_SHP_PBS : Nat := 0x070
abbrev TROWEL_SHP_STAT : Nat := 0x074
abbrev TROWEL_ENQ : Nat := 0x080
abbrev TROWEL_REF_FULL : Nat := 0x084
abbrev TROWEL_REF_CELL : Nat := 0x088
abbrev TROWEL_REF_LONG : Nat := 0x08C
abbrev TROWEL_REF_DEST : Nat := 0x090
abbrev TROWEL_RELEASED : Nat := 0x094
abbrev TROWEL_TIMED_OK : Nat := 0x098
abbrev TROWEL_TIMED_REFUSED : Nat := 0x09C
abbrev TROWEL_REQUEUED : Nat := 0x0A0
abbrev TROWEL_RELAUNCH_EXH : Nat := 0x0A4
abbrev TROWEL_NOACK : Nat := 0x0A8
abbrev TROWEL_WAIT_OPEN : Nat := 0x0AC
abbrev TROWEL_DUTY_SKIP : Nat := 0x0B0
abbrev TROWEL_DEFER_RX : Nat := 0x0B4
abbrev TROWEL_REDIRECT : Nat := 0x0B8
abbrev GATE_CAR_IDX : Nat := 0x040
abbrev GATE_CTRL : Nat := 0x044
abbrev GATE_STAT : Nat := 0x048
abbrev GATE_ADM_LEN : Nat := 0x04C
abbrev GATE_ADM_BASE_LO : Nat := 0x050
abbrev GATE_ADM_BASE_HI : Nat := 0x054
abbrev GATE_ADM_CYCLE : Nat := 0x058
abbrev GATE_ENT_IDX : Nat := 0x05C
abbrev GATE_ENT_DATA : Nat := 0x060
abbrev GATE_OPER_BASE_LO : Nat := 0x064
abbrev GATE_OPER_BASE_HI : Nat := 0x068
abbrev GATE_OPER_CYCLE : Nat := 0x06C
abbrev GATE_OPER_LEN : Nat := 0x070
abbrev GATE_SWAP_LT_LO : Nat := 0x074
abbrev GATE_SWAP_LT_HI : Nat := 0x078
abbrev GATE_CNT_CLR : Nat := 0x07C
abbrev GATE_MAX_OPEN : Nat := 0x080
abbrev GATE_SWAP_LAT : Nat := 0x0A0
abbrev GATE_GUARD : Nat := 0x0A4
abbrev GATE_SWAPS : Nat := 0x0C0
abbrev MRAM_STAT : Nat := 0x040
abbrev MRAM_SVN_FLOOR : Nat := 0x044
abbrev MRAM_SLOTA_VER : Nat := 0x048
abbrev MRAM_SLOTB_VER : Nat := 0x04C
abbrev MRAM_TRIAL_TO : Nat := 0x050
abbrev MRAM_IMG_IDX : Nat := 0x054
abbrev MRAM_IMG_LEN : Nat := 0x058
abbrev MRAM_IMG_META : Nat := 0x05C
abbrev MRAM_CNT_CLR : Nat := 0x060
abbrev MRAM_WR_WORDS : Nat := 0x080
abbrev MRAM_ECC_CORR : Nat := 0x084
abbrev MRAM_CMD_OK : Nat := 0x088
abbrev MRAM_CMD_FAIL : Nat := 0x08C
abbrev MRAM_FWK_HASH : Nat := 0x400
abbrev IBE_STAT : Nat := 0x040
abbrev IBE_SESS_TEN : Nat := 0x044
abbrev IBE_GEOM : Nat := 0x048
abbrev IBE_K_TOTAL : Nat := 0x04C
abbrev IBE_REPORTS : Nat := 0x050
abbrev IBE_CNT_CLR : Nat := 0x054
abbrev IBE_SYM_NEXT : Nat := 0x058
abbrev IBE_REPORT_ADD : Nat := 0x05C
abbrev IBE_SYM_SRC : Nat := 0x080
abbrev IBE_SYM_REP : Nat := 0x084
abbrev IBE_SESSIONS : Nat := 0x088
abbrev IBE_REQ_ENDED : Nat := 0x08C
abbrev IBE_MEM_USED : Nat := 0x400
abbrev STRAND_SEL : Nat := 0x040
abbrev STRAND_CFG : Nat := 0x044
abbrev STRAND_STAT : Nat := 0x048
abbrev STRAND_CMD : Nat := 0x04C
abbrev STRAND_PTRS : Nat := 0x050
abbrev STRAND_MARK_FREE : Nat := 0x054
abbrev STRAND_CELLS_FREE : Nat := 0x058
abbrev STRAND_CNT_CLR : Nat := 0x05C
abbrev STRAND_PUSH : Nat := 0x060
abbrev STRAND_HEAD : Nat := 0x080
abbrev STRAND_PUSHED : Nat := 0x0C0
abbrev STRAND_POPPED : Nat := 0x0C4
abbrev STRAND_NOTICES : Nat := 0x0C8
abbrev STRAND_IDLE_READS : Nat := 0x0CC
abbrev STRAND_STALLS : Nat := 0x0D0
abbrev STRAND_DROPPED : Nat := 0x0D4
abbrev STRAND_FLUSHED : Nat := 0x0D8
abbrev STRAND_BAD_DESC : Nat := 0x0DC
abbrev STRAND_CELL_RSV : Nat := 0x400
abbrev DISP_CORE_EN : Nat := 0x040
abbrev DISP_CFG : Nat := 0x044
abbrev DISP_THREADS : Nat := 0x048
abbrev DISP_OBS_PRIO : Nat := 0x04C
abbrev DISP_READY_DEPTH : Nat := 0x050
abbrev DISP_WAIT_CUM_LO : Nat := 0x054
abbrev DISP_WAIT_CUM_HI : Nat := 0x058
abbrev DISP_WAIT_MAX : Nat := 0x05C
abbrev DISP_DISPATCHES : Nat := 0x060
abbrev DISP_CNT_CLR : Nat := 0x064
abbrev DISP_CORE_LOAD_LO : Nat := 0x080
abbrev DISP_CORE_LOAD_HI : Nat := 0x084
abbrev DISP_CORE_CUR : Nat := 0x0C0
abbrev DISP_TIMEOUTS : Nat := 0x0E0
abbrev DISP_CANCELS : Nat := 0x0E4
abbrev DISP_CANCEL_RACE : Nat := 0x0E8
abbrev DISP_PREEMPTS : Nat := 0x0EC
abbrev DISP_OP_FAIL : Nat := 0x0F0
abbrev DISP_TH_IDX : Nat := 0x100
abbrev DISP_TH_INFO : Nat := 0x104
abbrev DISP_TH_WAIT : Nat := 0x108
abbrev DISP_OBJ_IDX : Nat := 0x10C
abbrev DISP_OBJ_INFO : Nat := 0x110
abbrev DISP_TSLICE : Nat := 0x400
abbrev SEM_SEM : Nat := 0x040
abbrev SEM_HELD_LO : Nat := 0x140
abbrev SEM_HELD_HI : Nat := 0x144
abbrev SEM_CNT_CLR : Nat := 0x148
abbrev SEM_ACQ_OK : Nat := 0x150
abbrev SEM_ACQ_BUSY : Nat := 0x154
abbrev SEM_CONTEND : Nat := 0x158
abbrev SEM_NOT_OWNER : Nat := 0x15C
abbrev SEM_FORCE : Nat := 0x400
abbrev CLASP_CFG : Nat := 0x040
abbrev CLASP_STAT : Nat := 0x044
abbrev CLASP_EXPIRY_LO : Nat := 0x048
abbrev CLASP_EXPIRY_HI : Nat := 0x04C
abbrev CLASP_RENEW : Nat := 0x050
abbrev CLASP_CMD : Nat := 0x054
abbrev CLASP_DRILL_PER : Nat := 0x058
abbrev CLASP_DRILL_PHASE : Nat := 0x05C
abbrev CLASP_DRILL_DWELL : Nat := 0x060
abbrev CLASP_CNT_CLR : Nat := 0x064
abbrev CLASP_GRANTS : Nat := 0x080
abbrev CLASP_EXPIRED : Nat := 0x084
abbrev CLASP_CONFLICTS : Nat := 0x088
abbrev CLASP_VOTE_FIX : Nat := 0x08C
abbrev CLASP_DRILLS : Nat := 0x090
abbrev CLASP_DRILL_SKIP : Nat := 0x094
abbrev BEZEL_STAT : Nat := 0x040
abbrev BEZEL_CMD : Nat := 0x044
abbrev BEZEL_SEQ_LO : Nat := 0x048
abbrev BEZEL_SEQ_HI : Nat := 0x04C
abbrev BEZEL_SKEW_NOW : Nat := 0x050
abbrev BEZEL_SKEW_MAX : Nat := 0x054
abbrev BEZEL_GAP_MAX : Nat := 0x058
abbrev BEZEL_CATCHUP : Nat := 0x05C
abbrev BEZEL_REFILL_CFG : Nat := 0x060
abbrev BEZEL_REFILL_CAUSE : Nat := 0x064
abbrev BEZEL_READ_DIFF_ADDR : Nat := 0x068
abbrev BEZEL_ROOT_CHECK : Nat := 0x06C
abbrev BEZEL_IMG_CHECK : Nat := 0x070
abbrev BEZEL_CNT_CLR : Nat := 0x074
abbrev BEZEL_MISMATCH_SEQ_LO : Nat := 0x078
abbrev BEZEL_MISMATCH_SEQ_HI : Nat := 0x07C
abbrev BEZEL_MISMATCH : Nat := 0x080
abbrev BEZEL_TAKEOVERS : Nat := 0x084
abbrev BEZEL_SHADOW_FAIL : Nat := 0x088
abbrev BEZEL_TRANSIENT : Nat := 0x08C
abbrev BEZEL_BOTH_FAIL : Nat := 0x090
abbrev BEZEL_REFILLS : Nat := 0x094
abbrev BEZEL_REFILL_FAIL : Nat := 0x098
abbrev BEZEL_PATH_FAULT : Nat := 0x09C
abbrev ERR_CFG : Nat := 0x040
abbrev ERR_SUM_C_LO : Nat := 0x044
abbrev ERR_SUM_C_HI : Nat := 0x048
abbrev ERR_SUM_A : Nat := 0x04C
abbrev ERR_SUM_B : Nat := 0x050
abbrev ERR_FIRST_PAGE : Nat := 0x054
abbrev ERR_FIRST_PLT : Nat := 0x058
abbrev ERR_HELD_NOW : Nat := 0x05C
abbrev ERR_ECC_BANK_A : Nat := 0x060
abbrev ERR_ECC_BANK_B : Nat := 0x064
abbrev ERR_STALL_STRAND : Nat := 0x068
abbrev ERR_CNT_CLR : Nat := 0x06C
abbrev ERR_ECC_CORR_A : Nat := 0x080
abbrev ERR_ECC_UNC_A : Nat := 0x084
abbrev ERR_ECC_CORR_B : Nat := 0x088
abbrev ERR_ECC_UNC_B : Nat := 0x08C
abbrev ERR_LOSS_MARKERS : Nat := 0x090
abbrev ERR_DIS_DROP : Nat := 0x094
abbrev ERR_STALLS : Nat := 0x098
abbrev HDR_PAGE_ID : Nat := 0x000
abbrev HDR_CAP : Nat := 0x004
abbrev HDR_CTRL : Nat := 0x008
abbrev HDR_STAT : Nat := 0x00C
abbrev HDR_ERR_STICKY : Nat := 0x010
abbrev HDR_ERR_MASK : Nat := 0x014
abbrev HDR_ERR_FIRST : Nat := 0x018
abbrev HDR_ERR_LT : Nat := 0x01C
abbrev HDR_EVT_STAT : Nat := 0x020
abbrev HDR_EVT_EN : Nat := 0x024
abbrev HDR_EVT_ROUTE : Nat := 0x028
abbrev HDR_LOCK : Nat := 0x02C
abbrev CEVT_SRC_IDX : Nat := 0x040
abbrev CEVT_SRC_ROUTE : Nat := 0x044
abbrev CEVT_SRC_STAT : Nat := 0x048
abbrev CEVT_REARM_A : Nat := 0x04C
abbrev CEVT_REARM_B : Nat := 0x050
abbrev CEVT_CNT_CLR : Nat := 0x054
abbrev CEVT_PEND : Nat := 0x060
abbrev CEVT_MSG_A : Nat := 0x080
abbrev CEVT_MSG_B : Nat := 0x084
abbrev CEVT_MOD_DEFER : Nat := 0x088
abbrev CEVT_MOD_A : Nat := 0x400
abbrev CEVT_MOD_B : Nat := 0x404
abbrev SEVT_SRC_IDX : Nat := 0x040
abbrev SEVT_SRC_ROUTE : Nat := 0x044
abbrev SEVT_SRC_STAT : Nat := 0x048
abbrev SEVT_CNT_CLR : Nat := 0x04C
abbrev SEVT_PEND : Nat := 0x060
abbrev SEVT_SIGNALS : Nat := 0x080
abbrev SEVT_IRQ_RISES : Nat := 0x084
abbrev HOST_LINK_STAT : Nat := 0x040
abbrev HOST_CFG : Nat := 0x044
abbrev HOST_CNT_CLR : Nat := 0x048
abbrev HOST_WR_TLP : Nat := 0x080
abbrev HOST_RD_TLP : Nat := 0x084
abbrev HOST_UR : Nat := 0x088
abbrev HOST_RD_FAIL : Nat := 0x08C
abbrev HOST_LINK_DOWN : Nat := 0x090
abbrev HOST_FLR : Nat := 0x094
abbrev HOST_ITEM_DISCARD : Nat := 0x098
abbrev CHAIN_ADDR : Nat := 0x040
abbrev CHAIN_CMD : Nat := 0x044
abbrev CHAIN_WIN_ADDR : Nat := 0x048
abbrev CHAIN_WIN_DATA : Nat := 0x04C
abbrev CHAIN_CNT_CLR : Nat := 0x050
abbrev CHAIN_FRAMES : Nat := 0x080
abbrev CHAIN_CRC_ERR : Nat := 0x084
abbrev CHAIN_LEN_ERR : Nat := 0x088
abbrev CHAIN_BUSY : Nat := 0x08C
abbrev ETH_MODE : Nat := 0x040
abbrev ETH_LINK : Nat := 0x044
abbrev ETH_MAC_LO : Nat := 0x048
abbrev ETH_MAC_HI : Nat := 0x04C
abbrev ETH_MTU : Nat := 0x050
abbrev ETH_CLASS : Nat := 0x054
abbrev ETH_DEF_TENANT : Nat := 0x058
abbrev ETH_VID_IDX : Nat := 0x05C
abbrev ETH_VID_MAP : Nat := 0x060
abbrev ETH_MC_IDX : Nat := 0x064
abbrev ETH_MC_LO : Nat := 0x068
abbrev ETH_MC_HI : Nat := 0x06C
abbrev ETH_GW_MAC_LO : Nat := 0x070
abbrev ETH_GW_MAC_HI : Nat := 0x074
abbrev ETH_PTP_CFG : Nat := 0x078
abbrev ETH_CNT_CLR : Nat := 0x07C
abbrev ETH_RX_OK : Nat := 0x080
abbrev ETH_TX_OK : Nat := 0x084
abbrev ETH_RX_BAD : Nat := 0x088
abbrev ETH_RX_OVERRUN : Nat := 0x08C
abbrev ETH_RX_FILT : Nat := 0x090
abbrev ETH_RX_VID : Nat := 0x094
abbrev ETH_PTP_DOMAIN : Nat := 0x098
abbrev ETH_RX_OTHER : Nat := 0x09C
abbrev ETH_PTP_TS : Nat := 0x0A0
abbrev ETH_TX_LINKDOWN : Nat := 0x0A4
abbrev ETH_RX_TRIM : Nat := 0x400
abbrev ETH_TX_TRIM : Nat := 0x404
abbrev ETH_PTP_ASYM : Nat := 0x408
abbrev PD_REQ_MASK0 : Nat := 0x040
abbrev PD_REQ_MASK1 : Nat := 0x044
abbrev PD_REQ_MASK2 : Nat := 0x048
abbrev PD_REQ_CMD : Nat := 0x04C
abbrev PD_REQ_STAT : Nat := 0x050
abbrev PD_PD_REFUSE : Nat := 0x054
abbrev PD_DOM_IDX : Nat := 0x058
abbrev PD_DOM_CFG : Nat := 0x05C
abbrev PD_DOM_STAT : Nat := 0x060
abbrev PD_LOST_A : Nat := 0x064
abbrev PD_LOST_B : Nat := 0x068
abbrev PD_CNT_CLR : Nat := 0x06C
abbrev PD_STATE : Nat := 0x070
abbrev PD_REQ_OK : Nat := 0x0A0
abbrev PD_REQ_REFUSED : Nat := 0x0A4
abbrev PD_ABORTS : Nat := 0x0A8
abbrev PD_RET_LOST_CNT : Nat := 0x0AC
abbrev PD_QUIESCE_TO : Nat := 0x400
abbrev PMB_CFG : Nat := 0x040
abbrev PMB_TIMEOUT : Nat := 0x044
abbrev PMB_RAIL_IDX : Nat := 0x048
abbrev PMB_RAIL_CFG : Nat := 0x04C
abbrev PMB_RAIL_VON : Nat := 0x050
abbrev PMB_RAIL_VRET : Nat := 0x054
abbrev PMB_RAIL_STAT : Nat := 0x058
abbrev PMB_RAW_CMD : Nat := 0x05C
abbrev PMB_RAW_DATA : Nat := 0x060
abbrev PMB_RAW_STAT : Nat := 0x064
abbrev PMB_CNT_CLR : Nat := 0x068
abbrev PMB_REQUESTS : Nat := 0x080
abbrev PMB_TIMEOUTS : Nat := 0x084
abbrev PMB_NAKS : Nat := 0x088
abbrev PMB_ALERTS : Nat := 0x08C
abbrev WAKE_CFG : Nat := 0x040
abbrev WAKE_STAT : Nat := 0x044
abbrev WAKE_INT_EN : Nat := 0x048
abbrev WAKE_PROF_IDX : Nat := 0x04C
abbrev WAKE_PROF_MASK : Nat := 0x050
abbrev WAKE_SRC_CFG : Nat := 0x060
abbrev WAKE_CNT_CLR : Nat := 0x080
abbrev WAKE_I2C_MATCH : Nat := 0x084
abbrev WAKE_WAKES : Nat := 0x088
abbrev WAKE_WAKE_ABORTS : Nat := 0x08C
abbrev CLK_STAT : Nat := 0x040
abbrev CLK_CNT_CLR : Nat := 0x044
abbrev CLK_PLL_UNLOCK : Nat := 0x080
abbrev CLK_XTAL_LOSS : Nat := 0x084
abbrev CLK_REFCLK_LOSS : Nat := 0x088
abbrev CLK_XTAL_CFG : Nat := 0x400
abbrev CLK_X32_CFG : Nat := 0x404
abbrev RST_REV : Nat := 0x040
abbrev RST_STRAPS : Nat := 0x044
abbrev RST_CAUSE : Nat := 0x048
abbrev RST_STAT : Nat := 0x04C
abbrev RST_SIDE_CMD : Nat := 0x050
abbrev RST_BOOT_OVR : Nat := 0x054
abbrev RST_HBOOT_ADDR : Nat := 0x058
abbrev RST_HBOOT_DATA : Nat := 0x05C
abbrev RST_HBOOT_GO : Nat := 0x060
abbrev RST_CNT_CLR : Nat := 0x064
abbrev RST_WARM_RESETS : Nat := 0x080
abbrev RST_SIDE_RESETS : Nat := 0x084
abbrev RST_BOOT_FAILS : Nat := 0x088
abbrev RST_HBOOT_REJ : Nat := 0x08C
abbrev TPO_GPIO_OUT : Nat := 0x100
abbrev TPO_GPIO_DIR : Nat := 0x104
abbrev TPO_GPIO_IN : Nat := 0x108
abbrev TPO_GPIO_OWN : Nat := 0x10C
abbrev TPO_GPIO_PULL : Nat := 0x110
abbrev TPO_GPIO_OD : Nat := 0x114
abbrev TPO_GPIO_IGN : Nat := 0x118

end Sys2Proof.Reg

/-! Page indices of R474: commons pages by BAR0 offset / 4 KiB; side page k of either side stands at 64 + k in
that side's own register store. -/
namespace Sys2Proof.Pg

abbrev LATH : Nat := 0
abbrev PLUMB : Nat := 1
abbrev TPO : Nat := 2
abbrev RFS : Nat := 3
abbrev RFM : Nat := 4
abbrev RFH : Nat := 5
abbrev CHZ : Nat := 6
abbrev FACET : Nat := 9
abbrev AIR : Nat := 12
abbrev DUTY : Nat := 13
abbrev TAMP : Nat := 14
abbrev LOUPE : Nat := 15
abbrev IBE : Nat := 16
abbrev SEM : Nat := 17
abbrev CLASP : Nat := 18
abbrev BEZEL : Nat := 19
abbrev CEVT : Nat := 20
abbrev HOSTA : Nat := 21
abbrev HOSTB : Nat := 22
abbrev CHAIN : Nat := 23
abbrev WAKE : Nat := 24
abbrev PD : Nat := 25
abbrev PMB : Nat := 26
abbrev CLK : Nat := 27
abbrev RST : Nat := 28
abbrev ETH0 : Nat := 29
abbrev ETH1 : Nat := 30
abbrev ERR : Nat := 63
abbrev DISP : Nat := 64
abbrev STRAND : Nat := 65
abbrev SEVT : Nat := 66
abbrev DML : Nat := 67
abbrev SKIM : Nat := 68
abbrev NODE : Nat := 69
abbrev PCAM : Nat := 70
abbrev SANDER : Nat := 71
abbrev LOWPAN : Nat := 72
abbrev LOCKET : Nat := 73
abbrev FILIG : Nat := 74
abbrev HALL : Nat := 75
abbrev SEC : Nat := 76
abbrev PEND : Nat := 77
abbrev TROWEL : Nat := 78
abbrev GATE : Nat := 79
abbrev MRAM : Nat := 80
abbrev SPMB : Nat := 81

end Sys2Proof.Pg

namespace Sys2Proof.Machine

/-- The page directory of R474: the kind of a page index (commons 0 to 63, side pages 64 + k). -/
def pageKind : Nat → Option PageKind
  | 0 => some .lath
  | 1 => some .plumb
  | 2 => some .tpo
  | 3 => some .rf
  | 4 => some .rf
  | 5 => some .rf
  | 6 => some .chz
  | 7 => some .chz
  | 8 => some .chz
  | 9 => some .facet
  | 10 => some .facet
  | 11 => some .facet
  | 12 => some .air
  | 13 => some .duty
  | 14 => some .tamp
  | 15 => some .loupe
  | 16 => some .ibe
  | 17 => some .sem
  | 18 => some .clasp
  | 19 => some .bezel
  | 20 => some .evtc
  | 21 => some .host
  | 22 => some .host
  | 23 => some .chain
  | 24 => some .wake
  | 25 => some .pd
  | 26 => some .pmb
  | 27 => some .clk
  | 28 => some .rst
  | 29 => some .eth
  | 30 => some .eth
  | 63 => some .err
  | 64 => some .disp
  | 65 => some .strand
  | 66 => some .evts
  | 67 => some .dml
  | 68 => some .skim
  | 69 => some .node
  | 70 => some .pcam
  | 71 => some .sander
  | 72 => some .lowpan
  | 73 => some .locket
  | 74 => some .filig
  | 75 => some .hall
  | 76 => some .sec
  | 77 => some .pend
  | 78 => some .trowel
  | 79 => some .gate
  | 80 => some .mram
  | 81 => some .pmb
  | _ => none

end Sys2Proof.Machine
end

