-- ==== Sys2Proof/Machine/Bits.lean ====
section
/-! DEFINITION. Bit-field, sign, byte-order and table helpers that the meanings share. -/

namespace Sys2Proof.Machine

open Sys2Proof

/-- Bits hi down to lo of a word, as a number. -/
def fld (v : Word) (hi lo : Nat) : Nat := (v.toNat / 2 ^ lo) % 2 ^ (hi + 1 - lo)

/-- Bit n of a word. -/
def bitOf (v : Word) (n : Nat) : Bool := v.toNat.testBit n

/-- The word with bits hi down to lo replaced by x. -/
def setFld (v : Word) (hi lo x : Nat) : Word :=
  w32 (v.toNat - fld v hi lo * 2 ^ lo + (x % 2 ^ (hi + 1 - lo)) * 2 ^ lo)

/-- One bit as a number. -/
def b2n (b : Bool) : Nat := if b then 1 else 0

/-- The word with bit n set to b. -/
def setBit (v : Word) (n : Nat) (b : Bool) : Word := setFld v n n (b2n b)

/-- The two's-complement reading of the low `bits` bits of n. -/
def signed (bits n : Nat) : Int :=
  let m := n % 2 ^ bits
  if m < 2 ^ (bits - 1) then (m : Int) else (m : Int) - (2 ^ bits : Nat)

/-- The two's-complement encoding of an integer in `bits` bits. -/
def unsignedOf (bits : Nat) (i : Int) : Nat := (i % (2 ^ bits : Nat)).toNat

/-- An integer saturated to `bits` bits of two's complement, then encoded. -/
def satSigned (bits : Nat) (i : Int) : Nat :=
  let hi : Int := (2 ^ (bits - 1) : Nat) - 1
  let lo : Int := - (2 ^ (bits - 1) : Nat)
  unsignedOf bits (max lo (min hi i))

/-- The nearer limit of a range (R602). -/
def clampNat (lo hi n : Nat) : Nat := if n < lo then lo else if hi < n then hi else n

/-- The quotient rounded up. -/
def ceilDiv (a b : Nat) : Nat := (a + b - 1) / b

/-- ST of an LT: bits [47:8] (R39). -/
def stOf (lt : Nat) : Nat := (lt / 256) % 2 ^ 40

/-- The signed difference of R40 between a target ST and the ST now. -/
def stDiff (target now : Nat) : Int := signed 40 (target + 2 ^ 40 - now % 2 ^ 40)

/-- A target ST is due when its signed difference from now is at most zero (R40). -/
def stDue (target now : Nat) : Bool := decide (stDiff target now ≤ 0)

/-- Little-endian bytes of a number. -/
def leBytes : Nat → Nat → List Byte
  | 0, _ => []
  | k + 1, n => b8 n :: leBytes k (n / 256)

/-- The number whose little-endian bytes are given. -/
def leNat : List Byte → Nat
  | [] => 0
  | b :: bs => b.toNat + 256 * leNat bs

/-- Big-endian bytes of a number. -/
def beBytes (k n : Nat) : List Byte := (leBytes k n).reverse

/-- The number whose big-endian bytes are given. -/
def beNat (bs : List Byte) : Nat := leNat bs.reverse

/-- The byte at a place of a list, 0 beyond its end. -/
def byteAt (bs : List Byte) (n : Nat) : Nat := (bs.getD n 0).toNat

/-- `n` bytes from place `off`. -/
def slice (bs : List Byte) (off n : Nat) : List Byte := (bs.drop off).take n

/-- The little-endian number in `n` bytes from place `off`. -/
def leAt (bs : List Byte) (off n : Nat) : Nat := leNat (slice bs off n)

/-- A sparse table in canonical form: keys strictly rising. -/
abbrev Tab (α : Type) := List (Nat × α)

/-- The entry at a key. -/
def Tab.find {α : Type} : Tab α → Nat → Option α
  | [], _ => none
  | (k, v) :: t, n => if k = n then some v else Tab.find t n

/-- The table with the entry at a key set. -/
def Tab.put {α : Type} : Tab α → Nat → α → Tab α
  | [], n, x => [(n, x)]
  | (k, v) :: t, n, x =>
    if n < k then (n, x) :: (k, v) :: t
    else if k = n then (n, x) :: t
    else (k, v) :: Tab.put t n x

/-- The table without the entry at a key. -/
def Tab.del {α : Type} : Tab α → Nat → Tab α
  | [], _ => []
  | (k, v) :: t, n => if k = n then Tab.del t n else (k, v) :: Tab.del t n

/-- Keys strictly rising from a bound: the canonical form. -/
def Tab.wfFrom {α : Type} : Nat → Tab α → Bool
  | _, [] => true
  | lo, (k, _) :: t => decide (lo ≤ k) && Tab.wfFrom (k + 1) t

/-- The canonical form of a sparse table: keys strictly rising. -/
def Tab.wf {α : Type} (t : Tab α) : Bool := Tab.wfFrom 0 t

/-- Number of entries. -/
def Tab.size {α : Type} (t : Tab α) : Nat := t.length

/-- The row with the element at a place replaced. -/
def setAt {α : Type} {k : Nat} (v : Vector α k) (n : Nat) (x : α) : Vector α k := v.setIfInBounds n x

/-- Two closed-open spans overlap. -/
def spansMeet (a1 a2 b1 b2 : Nat) : Bool := decide (a1 < b2) && decide (b1 < a2)

/-- Bit n of a number. -/
def nbit (v n : Nat) : Bool := v.testBit n

/-- The number with bit n set or cleared. -/
def setNBit (v n : Nat) (b : Bool) : Nat :=
  if nbit v n = b then v else if b then v + 2 ^ n else v - 2 ^ n

/-- The set bits of a number below a bound, rising. -/
def bitsBelow (v bound : Nat) : List Nat := (List.range bound).filter (nbit v)

end Sys2Proof.Machine
end

