-- ==== Sys2Proof/Machine/State.lean ====
section
/-! DEFINITION. The state of the block as plain data: the commons, the two sides, the commands that wait, and the
state after reset. -/

namespace Sys2Proof.Machine

open Sys2Proof

/-- Reasons a run could stop with a fault. The block reports what it detects in its own registers (R441) and goes
on, so no command of this model ends in a fault; the type is closed and its one constructor stays unused. -/
inductive Fault where
  /-- Raised by no command. Safe: nothing can be proved from a fault that never occurs. -/
  | unreachable
  deriving DecidableEq, Repr

/-- Reasons a command is refused by the model. -/
inductive Refusal where
  /-- Raised by an arm of exec that has no meaning yet, with the row's mnemonic. Safe: the run stops. -/
  | notModelled (mnemonic : String)
  deriving DecidableEq, Repr

/-- The three variants of R1. -/
inductive Variant where
  | kl9680 | kl9640 | kl9620
  deriving DecidableEq, Repr

/-! ## Inputs and outputs of the sides -/

/-- Receive metadata of a frame (R149). -/
structure RxMeta where
  sfdLt : Nat
  endLt : Nat
  psduLen : Nat
  mode : Nat
  port : RPort
  channel : Nat
  lane : Nat
  rssi : Nat
  nearTx : Bool
  foUndisc : Bool
  freqOfs : Int
  lqi : Nat
  phyOpt : Nat
  rxStatus : Nat
  airClass : Nat
  ackSent : Bool
  ackPend : Bool
  ackEnh : Bool
  ackTime : Bool               -- the Enh-Ack carried the time IE (R171, R191); no field of the metadata
  ackAirtime : Nat
  deriving DecidableEq, Repr

/-- A received frame: its metadata and its PSDU with the FCS (R149). -/
structure RxFrame where
  rx : RxMeta
  psdu : List Byte
  deriving DecidableEq, Repr

/-- A received Ethernet frame as it is sequenced (R506): MAC, class (0 PTP, 1 IPV6, 2 OTHER), tenant, receive
timestamp, octets. -/
structure EthFrame where
  second : Bool
  cls : Nat
  tenant : Nat
  ts : Nat
  bytes : List Byte
  deriving DecidableEq, Repr

/-- A launch transaction (R92), with the PHY_OPT byte and preamble length of its cell metadata (R129) and the
number by which its completion finds it. -/
structure Launch where
  id : Nat
  port : RPort
  carrier : Nat
  ch : Nat
  mode : Nat
  txLevel : Nat
  profile : Nat
  discardLate : Bool
  lt : Nat
  phyOpt : Nat
  preamble : Nat
  psdu : List Byte
  deriving DecidableEq, Repr

/-- A launch completion (R95 step 9, R97, R119). -/
structure LaunchDone where
  id : Nat
  port : RPort
  carrier : Nat
  ch : Nat
  status : Nat
  lt : Nat
  airtime : Nat
  deriving DecidableEq, Repr

/-- The operations of a pending-list update (R173); an address is a mode (1 extended) and a value. -/
inductive PlOp where
  | set (ext : Bool) (addr : Nat)
  | clear (ext : Bool) (addr : Nat)
  | clearAll
  deriving DecidableEq, Repr

/-- A committed channel definition (R82 to R84). -/
structure ChanDef where
  cfg0 : Word
  modes : Word
  cfg1 : Word
  suspended : Bool
  deriving DecidableEq, Repr

/-- The notices of R479 with their payloads, and the other events that rules sequence as commons events. -/
inductive Notice where
  | rxBusy (p : RPort) (ch endLt : Nat)
  | calNotice (p : RPort) (startLt lenUs : Nat)
  | chzCommit (p : RPort) (idx : Nat) (d : ChanDef)
  | airWrite (off : Nat) (v : Word)
  | tamper
  | loupeOpen
  | loupeClose
  | ibeEnd (cause : Nat)
  | semFree (n : Nat)
  | leaseConflict (x : SideId)
  | takeover (x : SideId)
  | sideOut (x : SideId)
  | transient
  | refillDone (x : SideId)
  | refillFail (x : SideId) (cause : Nat)
  | fwuDone
  | pdDone (result : Nat)
  | retLost (x : SideId) (mask : Nat)
  deriving DecidableEq, Repr

/-- Control markers of R16. -/
inductive Marker where
  | swap (holder token : Nat)
  | leaseGrant (holder token : Nat)
  | transfer (x : SideId)
  | join (x : SideId)
  | pdStart
  deriving DecidableEq, Repr

/-- The inputs of R16. -/
inductive Input where
  | rxFrame (f : RxFrame)
  | ethFrame (f : EthFrame)
  | hostWord (r : Requester) (off : Nat) (v : Word)
  | cellWrite (r : Requester) (off : Nat) (data : List Byte)
  | pairedWrite (r : Requester) (off : Nat) (v : Word) (be : Nat)
  | readMarker (r : Requester) (off : Nat) (live : Bool)
  | readResult (page off : Nat) (v : Word)
  | timerExpiry (slot : Nat) (late : Bool)
  | time (step : Nat) (acq rebase : Bool)
  | trng (w : Word64)
  | sourceState (src : Nat) (pending : Bool)
  | notice (n : Notice)
  | launchDone (d : LaunchDone)
  | plDone (op : PlOp) (status : Nat)
  | ethDone (second : Bool) (id : Nat) (status ts : Nat)
  | portReset (r : Requester)
  | symbol (sbn esi : Nat) (data : Option (List Byte))
  | marker (m : Marker)
  deriving DecidableEq, Repr

/-- What the sides use of a port's state. -/
structure PortSeen where
  lo : Nat
  calDone : Bool
  calFail : Bool
  cancOk : Bool
  txOff : Bool
  deriving DecidableEq, Repr

/-- The settings of the commons that the sides' own rules use, as they stood when an input was sequenced: a side sees the commons
at its place in sequence order and not as they are (R16). -/
structure Seen where
  regs : Tab Word
  unsync : Bool
  ibePhase : Nat
  portS : PortSeen
  portM : PortSeen
  portH : PortSeen
  deriving DecidableEq, Repr

/-- An input as the sequencer delivers it: its number (R15), the LT at which it was sequenced (R17), the input, and the settings
of the commons then (DESIGN CHOICE: the spec does not say by which inputs they reach the sides). -/
structure Seqd where
  seq : Nat
  lt : Nat
  inp : Input
  seen : Seen
  deriving DecidableEq, Repr

/-- The arguments of a broadcast session that the IBE holds (table "Session arguments"), with the image's data. -/
structure IbeArgs where
  session : Nat
  image : Nat
  tenant : Nat
  service : Nat
  t : Nat
  z : Nat
  ovh : Nat
  carousel : Bool
  target : Nat
  stopLt : Nat
  interleave : Bool
  srcFirst : Bool
  data : List Byte
  deriving DecidableEq, Repr

/-- The bodies of the output transactions of R24. -/
inductive TxnBody where
  | launch (l : Launch)
  | plUpdate (op : PlOp)
  | eth (second : Bool) (id tenant : Nat) (bytes : List Byte)
  | hostItem (strand : Nat) (desc : BitVec 256) (crc : Nat)
  | hostFrame (second : Bool) (bytes : List Byte)
  | sourceState (src : Nat) (pending : Bool)
  | pinWrite (off : Nat) (v : Word)
  | regWrite (page off : Nat) (v : Word) (be : Nat)
  | regRead (page off : Nat)
  | rootOk (ok : Bool)
  | ibeStart (a : IbeArgs)
  | ibeStop
  | symRead
  | fwUpdate
  deriving DecidableEq, Repr

/-- An output transaction: its body, the TOKEN it carries and its sequence point (R422), as the number of inputs that its
side had consumed. -/
structure Txn where
  body : TxnBody
  token : Nat
  point : Nat
  deriving DecidableEq, Repr

/-! ## Commons: time (chapter 2) -/

/-- What Plumb keeps for one time source: since when it is valid, its last valid measurement or edge (R43, R44, R604), and the
offset it showed then, less what steps and slews have taken off since (R45). -/
structure SrcState where
  validSince : Option Nat
  lastMeas : Option Nat
  off : Int
  deriving DecidableEq, Repr

/-- Lath and Plumb (chapter 2), beside their registers. -/
structure TimeState where
  srcs : Tab SrcState          -- by source code 1 to 5
  source : Nat                 -- LATH.STAT.SOURCE
  unsync : Bool
  holdover : Option Nat        -- since which LT
  noSource : Bool              -- holdover entered because no source was valid (R43)
  expired : Bool               -- HOLDOVER_EXPIRED raised for this holdover (R57)
  pend : Option Int            -- pending refused offset (R55)
  slewRem : Int                -- offset being slewed
  slewing : Bool
  slewFrom : Nat               -- LT at which the slew began (R50)
  coarse : Bool
  xtalStopped : Bool
  lastFine : Nat               -- fine count when XTAL stopped (R63)
  offset : Int                 -- PLUMB.OFFSET before saturation
  freqAdj : Int                -- PLUMB.FREQ_ADJ: a free value (the servo's law is not given)
  locked : Bool                -- PLUMB.STAT.LOCKED: a free value
  freeIdx : Nat                -- the model's own counter: the next free value
  ppsCount : Option Nat        -- second count of the last edge (R47)
  ref10Dev : Nat               -- deviation of REF10_IN in ppm: a free value within the tolerance it met (R604)
  ptp : List Word              -- words of a PTP_MEAS entry so far (R510)
  ltHi : Nat                   -- LT_HI as latched
  deriving DecidableEq, Repr

/-- One timed pulse output (R72 to R77), beside its registers. -/
structure TpoState where
  active : Bool                -- the ball's active level is driven
  next : Option Nat            -- ST of the next edge
  rising : Bool                -- that edge begins a pulse; else it ends the pulse in progress
  grid : Nat                   -- the START + k * PERIOD of the next pulse, or of the pulse in progress (R72)
  began : Nat                  -- ST at which the pulse in progress began
  late : Bool                  -- the next pulse was late when it was armed, or a step passed over it (R65, R70)
  clear : Bool                 -- ENABLE was cleared during a pulse (R77)
  after : Option (Nat × Bool)  -- START of an output armed again during a pulse, and whether it was late then (R77)
  deriving DecidableEq, Repr

/-! ## Commons: radio (chapters 3 to 5) -/

/-- The phases of a burst on its carrier (table "Launch checks" of R95). -/
inductive BurstPhase where
  | planned      -- past step 2
  | vetted       -- past step 3
  | clear        -- listen found the channel clear
  | onAir        -- started
  | ended        -- ended; its burst window may still be open
  deriving DecidableEq, Repr

/-- A burst of a carrier: a launch past step 2, or a prepared acknowledgement (R99, R167). -/
structure Burst where
  isAck : Bool
  launch : Launch              -- for an acknowledgement, the frame it sends in the same form
  start : Nat                  -- launch LT, as moved by execute-now or a deferral
  air : Nat                    -- airtime, µs
  phase : BurstPhase
  deferred : Bool
  late : Bool
  cut : Option Nat             -- LT at which a pre-empting acknowledgement cuts it (R100)
  blanking : Bool
  endLt : Nat                  -- end of the burst once it has ended
  chan : ChanDef               -- the definition as it stood at the parameter check (R86)
  deriving DecidableEq, Repr

/-- A launch held until a gap, a retune, a calibration or an acknowledgement ends: `retune` marks one whose launch LT a retune
covers, which is then treated as newly arrived (R80, R96, R100, R113). -/
structure Held where
  launch : Launch
  chan : ChanDef
  retune : Bool
  deriving DecidableEq, Repr

/-- One transmit carrier (R94, R95): launches passed and not yet at step 1, launches past step 1 waiting for
step 2, launches held by a gap or retune (R96), and bursts. -/
structure Carrier where
  arrivals : List Launch
  queue : List (Launch × ChanDef)
  held : List Held
  bursts : List Burst
  deriving DecidableEq, Repr

/-- A bound lane (R145). -/
structure Lane where
  no : Nat
  ch : Nat
  mode : Nat
  power : Nat
  chan : ChanDef               -- the definition on which it was detected (R86)
  bindLt : Nat
  sfdLt : Option Nat
  phr : Option PhrData
  endLt : Option Nat
  nearTx : Bool
  foUndisc : Bool
  deriving DecidableEq, Repr

/-- A detection in a merge group (R132, R133). -/
structure Det where
  ch : Nat
  mode : Nat
  chan : ChanDef
  centreHz : Nat
  freq : Nat
  lt : Nat
  quality : Nat
  power : Nat
  deriving DecidableEq, Repr

/-- A merge group: when it opened, the detection that opened it first, the later members (R132). -/
structure MergeGroup where
  openLt : Nat
  opener : Det
  members : List Det
  deriving DecidableEq, Repr

/-- One RF port with its channelizer and its lanes, beside their registers. -/
structure RfPort where
  lo : Nat                     -- centre frequency in force, units of W
  retuneReq : Option Nat       -- LO_FREQ written and waiting (R80)
  retuneEnd : Option Nat       -- LT at which the retune in progress ends
  calEnd : Option Nat          -- LT at which the start-up calibration ends (R113)
  calDone : Bool
  calFail : Bool
  cancOk : Bool                -- the canceller reached 25 dB (R115)
  gapEnd : Option Nat          -- LT at which the gap in progress ends
  gapNow : Bool
  gapNext : Option Nat         -- LT of the next scheduled gap
  noticed : Bool               -- CAL_NOTICE raised for it
  txOff : Bool                 -- TX_EN cleared while an acknowledgement was due (R168)
  chans : Tab ChanDef
  carriers : Vector Carrier 4
  lanes : List Lane
  groups : List MergeGroup
  lastServed : Nat
  rearm : Tab Nat              -- by channel * 32 + mode: LT before which a context that starved detects nothing (R140)
  dwell : Tab Nat              -- channel * 16 + sub-bucket, µs
  dwellIdx : Nat
  dwellNext : Nat
  deriving DecidableEq, Repr

/-- The air-access unit (chapter 5): receive buffer, pending list, passed updates not yet performed. -/
structure AirState where
  rxbuf : List RxFrame
  rxPeak : Nat
  list : List Nat              -- entries 2 * address + mode, strictly rising
  listPeak : Nat
  updates : List PlOp          -- updates that have passed Bezel and wait to be performed
  passedAt : Nat               -- LT of the last of them to pass (R30)
  before : List Nat            -- the list with every update that passed before that LT
  qres : Option Bool
  asked : Option (Nat × Nat)   -- LT of the last query's GO, and its key (R176)
  sentUp : Nat                 -- frames sequenced whose cells the slower side still holds (R21)
  deriving DecidableEq, Repr

/-- The duty-cycle accounts (R117): account * 64 + bucket, µs. -/
structure DutyState where
  use : Tab Nat
  idx : Nat
  next : Nat
  deriving DecidableEq, Repr

/-! ## Commons: security units (chapter 9) and image broadcast (chapter 11) -/

/-- Tamper and Loupe, beside their registers (R306 to R316). -/
structure TampState where
  status : Nat                 -- sources active at the last event that said so
  statusAt : Nat               -- the LT of that event; at any other LT the sources active are the world's
  keylessBoot : Bool
  zeroized : Bool
  nonce : Option (List Byte × Nat)
  opened : Option (Nat × Bool) -- scope, key
  lockEnd : Option Nat         -- LT at which the lockout ends
  result : Nat
  fails : Nat
  trng : List Word64           -- TRNG words sequenced and not yet used for a nonce, at most four
  asked : Option Nat           -- a CHALLENGE, by the LT of its write, waits for its four TRNG words
  deriving DecidableEq, Repr

/-- The image broadcast engine (R367 to R372): phase 0 IDLE, 1 LOADING, 2 RUNNING, 3 DONE, 4 STOPPED. -/
structure IbeState where
  phase : Nat
  ended : Nat                  -- STAT.END
  args : IbeArgs
  turn : Nat                   -- block whose symbol comes next
  sent : Tab Nat               -- symbols produced per block
  stopLt : Option Nat
  reports : Nat
  deriving DecidableEq, Repr

/-! ## Commons: redundancy (chapter 14) -/

/-- Side states of BEZEL.STAT. -/
inductive SideSt where
  | off | boot | refill | compared | alone | selfCheck | stopped
  deriving DecidableEq, Repr

/-- One replica of Clasp's state (R418). -/
structure Replica where
  holder : Nat
  token : Nat
  expiry : Nat
  deriving DecidableEq, Repr

/-- Clasp (R418 to R424, R436). -/
structure ClaspState where
  r0 : Replica
  r1 : Replica
  r2 : Replica
  grantPoint : Nat             -- number of the LEASE_GRANT input that carried the current TOKEN (R422)
  prevToken : Nat
  oldHolder : Nat              -- holder before a marker swap, whose outputs from before the marker still pass (R423)
  readyA : Bool
  readyB : Bool
  grantDue : Option Nat        -- LT at which GRANT_WAIT passes
  waitPassed : Bool
  drillHome : Option Nat       -- holder to which a drill in progress swaps back
  drillEnd : Option Nat
  drillNext : Option Nat
  drillWait : Bool             -- a drill is due and waits (R436)
  swapTo : Option Nat          -- a marker swap is requested, to this holder
  swapOut : Option SideId      -- the side that leaves service after that swap (R432)
  deriving DecidableEq, Repr

/-- The mismatch in hand (R427). -/
structure Mismatch where
  cause : Nat
  memberA : Option Txn
  memberB : Option Txn
  resA : Option Bool
  resB : Option Bool
  start : Nat                  -- LT of the detection
  deriving DecidableEq, Repr

/-- A refill in progress (R433): the side, the attempt, the phase (1 restarting, 2 ready, 3 copying, 4 catching
up). -/
structure Refill where
  side : SideId
  tries : Nat
  phase : Nat
  fwu : Bool
  retryAt : Option Nat
  copy : Nat                   -- number of the TRANSFER input
  deriving DecidableEq, Repr

/-- A paired-window read that one side has reached and its twin has not: the marker's number, the side, whether the read
was answered, the requester, the BAR0 offset, the value (R426). -/
structure ReadMark where
  seq : Nat
  side : SideId
  done : Bool
  r : Requester
  off : Nat
  v : Word
  deriving DecidableEq, Repr

/-- Bezel (R15 to R28, R422 to R434). -/
structure BezelState where
  seq : Nat                    -- next sequence number
  timeAt : Option Nat          -- LT of the last time input sequenced (R42)
  waiting : List (InputSource × Input)
  stA : SideSt
  stB : SideSt
  heldA : List (Nat × Txn)     -- offered, waiting for the twin, with the LT of the offer
  heldB : List (Nat × Txn)
  hold : Option Mismatch
  dead : Bool                  -- commons held after a double failure or a lost lease
  pathBadA : Bool
  pathBadB : Bool
  lastCause : Nat
  misSeq : Nat
  winReads : List (Requester × Nat)  -- reads of CHAIN.WIN_DATA that wait for the verdict (R498)
  refill : Option Refill
  refillCause : Nat
  joinPoint : Nat              -- number of the last JOIN input: outputs from before it are not compared (R433)
  gapFrom : Option Nat         -- LT of the detection of a mismatch until the first transaction passes (R431)
  seenA : Nat                  -- inputs consumed so far, as the skew is watched (R23)
  seenB : Nat
  leadA : List (Nat × Nat)     -- inputs consumed by one side only: point, LT
  leadB : List (Nat × Nat)
  skewMax : Nat
  skewNow : Nat
  gapMax : Nat
  reads : List ReadMark        -- markers that one side only has consumed (R426)
  readDiff : Nat
  rootCheck : Nat
  imgCheck : Nat
  deriving DecidableEq, Repr

/-! ## Commons: events, hosts, chain, Ethernet (chapters 16 and 17) -/

/-- The commons EVT page and the ERR summary, beside their registers (R449, R478 to R486). -/
structure EvtState where
  sidePend : List Nat          -- side sources that passed transactions report pending, rising
  lastPend : List Nat          -- sources pending after the last command, rising
  disarmedA : List Nat
  disarmedB : List Nat
  msgA : Nat
  msgB : Nat
  modDefer : Nat
  modA : Tab (Nat × Bool)      -- vector -> LT until which messages wait, and one waits
  modB : Tab (Nat × Bool)
  sent : List (Bool × Nat)     -- messages sent, newest last: port B, vector
  lastSum : List Nat           -- pages with their summary bit set, rising
  firstPage : Option Nat
  firstPlt : Nat
  slotPend : List Nat          -- timer slots whose last expiry is not acknowledged (R478), rising
  errEvt : Nat                 -- EVT_STAT of the ERR page
  deriving DecidableEq, Repr

/-- One PCIe endpoint (R489 to R496). -/
structure HostPort where
  speed : Nat
  width : Nat
  up : Bool
  bme : Bool
  msixEn : Bool
  funcMask : Bool
  masked : List Nat            -- masked vectors, rising
  pba : List Nat               -- pending bits, rising
  addrs : Tab Nat              -- MSI-X message addresses
  datas : Tab Nat              -- MSI-X message data
  frames : List (List Byte)    -- frames delivered to the port as Trowel port 14 or 15, newest last
  deriving DecidableEq, Repr

/-- The chain port (R499 to R504). -/
structure ChainState where
  addr : Nat
  eno : Bool
  eni : Bool
  crcErr : Bool
  rd : Option (Nat × Option Word)
  out : List Byte              -- bytes driven on CHN_SDO in the last FETCH
  deriving DecidableEq, Repr

/-- One Ethernet MAC (R505 to R510), beside its registers. -/
structure EthState where
  up : Bool
  speed : Nat
  tx : List (Nat × List Byte)  -- frames released to the MAC and not sent yet: number, octets
  deriving DecidableEq, Repr

/-! ## Commons: power, wake, PMBus, clocks, reset, pins (chapters 18 to 20) -/

/-- The states of a power domain (R513). -/
inductive DomSt where
  | on | ret | off
  deriving DecidableEq, Repr

/-- A power request (R518) or wake (R533). -/
structure PdReq where
  mask : Nat
  target : Nat
  byHost : Bool
  wake : Option Nat
  lt : Nat                     -- LT of the request
  deriving DecidableEq, Repr

/-- The request being performed (R519 to R524): the domains still to take, in order, with their target states;
those done, newest first, with their former states; the entry step of the domain in hand; whether the rail is
being restored after a timeout. -/
structure PdRun where
  req : PdReq
  todo : List (Nat × DomSt)
  done : List (Nat × DomSt)
  step : Nat
  rails : List (Nat × Nat)     -- rail changes of the domain in hand without acknowledgement: rail, level (0 VON, 1 VRET, 2 off)
  since : Nat                  -- LT at which the present step began
  undo : Option Nat            -- rolling back, with this result
  woken : Bool
  restoring : Bool
  deriving DecidableEq, Repr

/-- The PD page (R512 to R534). -/
structure PdState where
  doms : Tab DomSt             -- domains not on
  faults : List Nat
  queue : List PdReq
  run : Option PdRun
  result : Nat
  refuse : Option (Nat × Nat)
  susp : Option PdRun          -- the request that a wake interrupted (R534)
  paused : List Nat            -- sides that have consumed PD_START and not resumed (R527): 1 side A, 2 side B
  scan : List Nat              -- banks and Lockets raised from retention and not scanned yet (R530)
  lost : Tab Nat               -- per side: banks found LOST by a scan whose twin's scan is awaited (R531)
  rails : Tab Nat              -- rails not at VON, as in PdRun: owner * 4 + entry, owner 0 commons, 1 side A, 2 side B
  i2cResult : Nat
  i2cStretch : Bool            -- the wake target has started the AON fast oscillator (R536)
  i2cPtr : Nat                 -- register pointer of the wake target (R537)
  deriving DecidableEq, Repr

/-- One PMBus controller port (R539 to R543). -/
structure PmbState where
  raw : Option (Nat × Bool)    -- raw transaction in progress: command word, read
  rail : Option Nat            -- rail entry with a request in progress
  status : Tab Nat             -- last STATUS_WORD per entry
  rawStat : Nat
  deriving DecidableEq, Repr

/-- What the writes of one cycle to commons pages need to know of each other: its LT; per register written, the places of the
writers in the order of R477 with the byte enables of each; and the pages of the MACs as they were before it (chapter 17). -/
structure CycleWrites where
  lt : Nat
  regs : Tab (List (Nat × Nat))
  eth : Tab Word
  deriving DecidableEq, Repr

/-- What a semaphore was asked in one cycle: its LT, whether it was taken then, the requesters that asked (R412, R413). -/
structure SemCycle where
  lt : Nat
  taken : Bool
  asks : List Nat
  deriving DecidableEq, Repr

/-- Clocks, resets, straps and pins (chapters 19 and 20). -/
structure SysState where
  step : Nat
  commonsEn : Bool
  bootA : Nat
  bootB : Nat
  straps : Nat
  porstLow : Bool
  pll : Nat                    -- PLL_LOCK bits
  xtalOk : Bool
  x32Rc : Bool
  pcieRef : Bool
  sdsRef : Bool
  ref10 : Bool
  warmStart : Bool             -- the start in progress follows WRST_N (R344)
  commonsStopped : Bool        -- R549: PLL_C, PLL_RF or XTAL lost
  gpioOut : Nat
  gpioDir : Nat
  gpioIgn : Nat
  feOut : Nat                  -- FE_CTL[23:0]
  feCfg : Tab Word             -- FE_CFGn in force (R111)
  banksUp : Nat                -- bank supplies in range (R570)
  semAt : Tab SemCycle         -- the last cycle in which a semaphore was asked for (R412, R413)
  hboot : Tab Byte             -- boot image written through HBOOT_DATA
  hbootA : Bool                -- HBOOT_GO was written and the side has not verified the image yet (R561)
  hbootB : Bool
  deriving DecidableEq, Repr

/-! ## JTAG (R313, R576) -/

/-- The states of a test access port (IEEE 1149.1). -/
inductive TapSt where
  | reset | idle | selectDr | captureDr | shiftDr | exit1Dr | pauseDr | exit2Dr | updateDr
  | selectIr | captureIr | shiftIr | exit1Ir | pauseIr | exit2Ir | updateIr
  deriving DecidableEq, Repr

/-- The instructions that JTAG always offers (R313). -/
inductive TapInstr where
  | bypass | idcode | sample | extest
  deriving DecidableEq, Repr

/-- The balls that the boundary-scan register covers (R576). PMBus balls: 0 AON, 1 A, 2 B; PERST: 0 A, 1 B. -/
inductive ScanBall where
  | feCtl (n : Nat) | gpio (n : Nat) | tpo (n : Nat) | tamp (n : Nat) | bootSrc (n : Nat) | wakeA (n : Nat)
  | pmbClk (n : Nat) | pmbDat (n : Nat) | pmbAlertN (n : Nat) | perstN (n : Nat)
  | ref10In | ppsIn | porstN | wrstN | sidePref | chnSck | chnSdi | chnSdo | chnCsN | chnEni | chnEno
  | wakeScl | wakeSda | wakeIntN
  deriving DecidableEq, Repr

/-- The cells of a ball: what comes in, what goes out, whether it goes out. -/
inductive ScanCell where
  | input | data | enable
  deriving DecidableEq, Repr

/-- The test access port. -/
structure JtagState where
  tap : TapSt
  instr : TapInstr             -- the instruction in force
  shift : List Bool            -- the register being shifted, the bit nearest TDO first
  latch : List Bool            -- the update stage of the boundary-scan register, cell by cell
  tck : Bool                   -- TCK as last seen
  tdo : Option Bool            -- TDO, none while it is high-impedance
  deriving DecidableEq, Repr

/-- The commons. -/
structure Commons where
  lt : Nat
  regs : Tab Word              -- registers that differ from their reset value
  freshAt : Nat                -- LT of the cycle in which hardware last set a W1C bit (R11)
  fresh : Tab Word             -- the bits set in that cycle, by register
  time : TimeState
  tpo : Vector TpoState 4
  rfS : RfPort
  rfM : RfPort
  rfH : RfPort
  air : AirState
  duty : DutyState
  tamp : TampState
  ibe : IbeState
  clasp : ClaspState
  bezel : BezelState
  evt : EvtState
  hostA : HostPort
  hostB : HostPort
  chain : ChainState
  eth0 : EthState
  eth1 : EthState
  pd : PdState
  pmb : PmbState
  sys : SysState
  jtag : JtagState
  writes : CycleWrites         -- the writes of the last cycle that wrote to a commons page (R477)
  lastRead : Option (Requester × Word)   -- the value the last completed read returned
  deriving DecidableEq, Repr

/-! ## Sides: dispatcher (chapter 13) -/

/-- The states of a thread slot that is not FREE (table "Thread states"). -/
inductive ThSt where
  | suspended | ready | running | waiting | cancelled
  deriving DecidableEq, Repr

/-- One thread (R401 to R410). -/
structure Thread where
  st : ThSt
  prio : Nat
  aff : Nat
  obj : Nat                    -- object waited on
  deadline : Option Nat        -- target ST of a timed wait (R406)
  latePol : Bool               -- LATE_POL of its WAIT (R66, R406)
  missed : Bool                -- the wait's timeout was dropped (R406)
  res : Nat                    -- DRES[9:0] of its last operation
  readyAt : Nat                -- ST at which it became READY (R410)
  readyLt : Nat                -- LT of the cycle in which it became READY (R409)
  marked : Bool                -- CANCEL reached it while RUNNING (R408)
  deriving DecidableEq, Repr

/-- One core (R397, R403 to R405). -/
structure Core where
  cur : Option Nat
  irq : Bool                   -- dispatch interrupt raised
  since : Nat                  -- ST at which its thread was dispatched
  sliced : Bool                -- interrupted under R405 for this run
  darg0 : Nat                  -- DARG0, DARG1 (table "Dispatcher CSRs")
  darg1 : Nat
  dres : Nat
  dnext : Word                 -- what the last read of DNEXT returned
  deriving DecidableEq, Repr

/-- A wait object (R399, R400). -/
structure Obj where
  counting : Bool
  count : Nat
  deriving DecidableEq, Repr

/-- What is observed of a priority (R410). -/
structure PrioStat where
  dispatches : Nat
  cum : Nat
  max : Nat
  peak : Nat
  deriving DecidableEq, Repr

/-- The dispatcher. -/
structure DispState where
  threads : Tab Thread         -- slots not FREE
  ready : List Nat             -- READY threads; the order within a priority is its ready list
  waiters : List Nat           -- WAITING threads, longest wait first
  objs : Tab Obj               -- initialised objects 96 and up, and objects that differ from reset
  cores : Vector Core 8
  stats : Tab PrioStat
  load : Tab Nat               -- running time per core, ST units
  hi : Tab Nat                 -- offset of a HI register to the half it latched (R417)
  picks : Nat                  -- the model's own counter: the next free slot choice
  deriving DecidableEq, Repr

/-! ## Sides: strands (chapter 12) -/

/-- A descriptor (R378), bit 0 the least significant bit of byte 0. -/
abbrev Desc := BitVec 256

/-- One descriptor place in use: the descriptor and the cell that goes with it, and for HOST_IN who pushed it. -/
structure Slot where
  d : Desc
  cell : Option Nat
  by_ : Option Requester
  seq : Nat                    -- the input at which the place was filled: its place in sequence order (R231)
  deriving DecidableEq, Repr

/-- A push that waits for a place (R388): its descriptor, the data for its cell, its producer, the LT of the side's
now when it stalled, whether STALL was raised for it (R465). -/
structure Push where
  d : Desc
  data : Option (List Byte)
  by_ : Option Requester
  since : Nat
  raised : Bool
  deriving DecidableEq, Repr

/-- One strand (R374 to R391), beside its registers. Places are counted from the release point. -/
structure Ring where
  slots : List Slot            -- places not free, from the release point to the write point
  rp : Nat                     -- places before the read point
  itemAt : Option Nat          -- the read point is inside the item that starts at this place
  ended : Nat                  -- places up to the end of the last complete item
  passed : Nat                 -- HOST_OUT: places whose descriptor passed Bezel (R385)
  lost : Nat                   -- descriptors flushed before they passed
  mark : Option Nat
  wpt : Nat                    -- write point, as a place of the ring
  absorb : Bool                -- R390
  flushPartial : Bool
  places : List Nat            -- global numbers of its places (R497)
  cells : List Nat             -- HOST_IN: the cell of each place of the ring (R377)
  outCells : List Nat          -- MODE 0: cells of the item being popped
  stalled : List Push
  popWait : Option Bool        -- a pop waits for free cells (R377): true a CMD.POP, false a unit's
  closing : Bool               -- EN was cleared while it held items (R457)
  deriving DecidableEq, Repr

/-- A loss marker that is due (R453 to R456): its strand, its flow's mesh ID, the descriptor. -/
structure LossMark where
  strand : Nat
  flow : Nat
  d : Desc
  clear : Option Nat           -- mesh ID whose CLEAR follows it (R455)
  deriving DecidableEq, Repr

/-- A delivery held behind a loss marker (R454). -/
structure HeldPush where
  strand : Nat
  flow : Nat
  d : Desc
  data : Option (List Byte)
  deriving DecidableEq, Repr

/-- The strands and the frame cells of a side. -/
structure StrandState where
  rings : Tab Ring             -- strands that were enabled
  used : List Nat              -- cells taken from the pool, rising
  gone : List Nat              -- cells withdrawn by R450, rising
  data : Tab (List Byte)       -- contents of cells
  stage : Tab Word             -- PUSH0 to PUSH6 as written
  picks : Nat                  -- the model's own counter: the next free cell choice
  marks : List LossMark
  held : List HeldPush
  deriving DecidableEq, Repr

/-! ## Sides: mesh layer, Skim, 6LoWPAN (chapter 6) -/

/-- A DML header (R196). -/
structure Dml where
  ver : Nat
  ty : Nat
  lowpan : Bool
  fack : Bool
  norel : Bool
  ttl : Nat
  hops : Nat
  tenant : Nat
  sel : Nat
  orig : Nat
  seq : Nat
  deriving DecidableEq, Repr

/-- A received frame on its way through a side: its input, its metadata and octets, and what the stages found. -/
structure UpFrame where
  seq : Nat                    -- number of its input (R15)
  lt : Nat                     -- its sequencing LT
  rx : RxMeta
  psdu : List Byte
  dml : Dml
  level : Nat
  fc : Nat
  epoch : Nat
  link : Bool                  -- LINK frame (R287)
  known : Bool                 -- ORIG had an entry at its lookup
  eui : Nat                    -- EUI-64 of the node, from the entry or the MAC source
  srcExt : Bool                -- the MAC source address is extended
  payIes : List Byte           -- payload IEs, carried unchanged by a relay (R211)
  plain : List Byte            -- octets after the DML header, decrypted
  deriving DecidableEq, Repr

/-- A Skim entry (table "Skim entry layout"). -/
structure SkimEntry where
  orig : Nat
  seq : Nat
  ty : Nat
  pend : Bool
  heard : Nat
  port : Nat
  channel : Nat
  copies : Nat
  expiry : Nat                 -- ST
  deriving DecidableEq, Repr

/-- A flood waiting for its relay decision (R207 to R210): the Skim place, the frame, when it falls due; none while
its TRNG word is awaited. -/
structure Relay where
  place : Nat
  f : UpFrame
  due : Option Nat
  deriving DecidableEq, Repr

/-- A 6LoWPAN context (R219). -/
structure LpCtx where
  prefix_ : Nat                -- 128 bits
  len : Nat
  en : Bool
  comp : Bool
  deriving DecidableEq, Repr

/-- A reassembly (R220 to R223): its datagram, the LT of its opening fragment, the fragments so far, its cell. -/
structure Reasm where
  orig : Nat
  tag : Nat
  size : Nat
  opened : Nat
  parts : List (Nat × List Byte)
  elided : Bool                -- its UDP checksum was elided (R216)
  cell : Option Nat
  seq : Nat                    -- number of the input that carried its opening fragment
  deriving DecidableEq, Repr

/-- DML, Skim and 6LoWPAN of a side, beside their registers. -/
structure MeshState where
  skim : Tab SkimEntry         -- by set * 8 + way
  relays : List Relay
  sweepNext : Nat              -- LT of the next sweep
  seqLoaded : Bool             -- TX_SEQ and TX_TAG are loaded (R214)
  txSeq : Nat
  txTag : Nat
  ctxs : Tab LpCtx
  reasm : List Reasm
  reasmPeak : Nat
  frames : Nat                 -- the model's own counter: the MAC sequence number of the next frame
  deriving DecidableEq, Repr

/-! ## Sides: node table, prefix CAM, Sander (chapter 7) -/

/-- A node entry (R226); VALID is its presence in the table. -/
structure NodeEntry where
  mesh : Nat
  eui : Nat
  tenant : Nat
  lock : Bool
  hit : Bool
  pend : Bool
  static_ : Bool
  learned : Bool
  port : Nat
  age : Nat
  prefPort : Nat
  prefPin : Bool
  epoch : Nat
  lastHeard : Nat
  rssi : Nat
  prefMode : Nat
  lqi : Nat
  prefChan : Nat
  ulFc : Nat
  dlFc : Nat
  deriving DecidableEq, Repr

/-- A lock slot (R244): the entry, its shadows, when it was taken, whether LOCK_LONG was raised. -/
structure LockSlot where
  entry : Nat
  ul : Nat
  dl : Nat
  since : Nat
  warned : Bool
  deriving DecidableEq, Repr

/-- A verified frame's writes that wait for the next time input (R227, R231). -/
structure FrameWrite where
  f : UpFrame
  entry : Option Nat           -- the entry its lookup found
  gone : Bool                  -- that entry has been removed since (R233)
  deriving DecidableEq, Repr

/-- A frame held for its learning decision, or behind one of its ORIG (R237): none while undecided. -/
structure HeldUp where
  f : UpFrame
  verdict : Option Nat         -- 0 go on, 1 drop, 2 to EXCESS_STRAND
  deriving DecidableEq, Repr

/-- A CAM entry (R247). -/
structure CamEntry where
  prefix_ : Nat                -- 128 bits
  len : Nat
  tenant : Nat
  any : Bool
  dest : Nat
  arg : Nat
  deriving DecidableEq, Repr

/-- Node table, CAM and Sander of a side, beside their registers. -/
structure NodeState where
  nodes : Tab NodeEntry        -- by bucket * 8 + way
  euis : Tab Nat               -- the EUI-64 index: bucket * 8 + way to entry number (R229)
  locks : List LockSlot
  writes : List FrameWrite
  held : List HeldUp
  cam : List CamEntry
  camOld : Option (List CamEntry)   -- while moves run: the order without the change (R249)
  camSeq : Nat                 -- the first input after the CAM command whose moves run (R249)
  moves : Nat
  passAt : Option Nat          -- P of the pass in progress (R239)
  passLen : Nat                -- PASS of that pass, s; 0 until its start has come
  deriving DecidableEq, Repr

/-! ## Sides: Locket, Filigree, frame security, Hallmark (chapters 8 and 9) -/

/-- An installed key (R265), its key masked (R268). -/
structure KeySlot where
  ty : Nat
  attr : Nat
  tenant : Nat
  any : Bool
  dattr : Nat
  key : List Byte              -- K xor M
  deriving DecidableEq, Repr

/-- A key cache entry (table "Key cache entry layout"), its key masked (R268). -/
structure CacheEntry where
  kind : Nat
  tenant : Nat
  epoch : Nat
  eui : Nat
  attr : Nat
  devGen : Nat
  slotGen : Nat
  tenGen : Nat
  slot : Nat
  key : List Byte              -- K xor M
  stamp : Nat                  -- order of its last use (R271)
  deriving DecidableEq, Repr

/-- A window record of R295: mesh ID, mask, order of its last use. -/
structure FcWin where
  mesh : Nat
  mask : Nat
  stamp : Nat
  deriving DecidableEq, Repr

/-- A derivation in flight: its entry, the key masked, and the frames that wait for it, by the numbers of their inputs (R272, R273,
R276). -/
structure Flight where
  entry : CacheEntry
  uses : List Nat
  deriving DecidableEq, Repr

/-- Helper data (R254, R257): each block of the PUF response XORed with its codeword, and the check value of the root. -/
structure Helper where
  blocks : List Nat
  check : Nat
  deriving DecidableEq, Repr

/-- Locket, Filigree, SEC and Hallmark of a side, beside their registers. -/
structure KeyState where
  root : Option (List Byte)    -- level 0 (R254)
  kek : List Byte              -- level 1, empty without a root
  ids : List Byte
  testRoot : Bool
  rootFail : Bool
  loaded : Bool
  keyless : Bool
  maxErr : Nat
  mp : List Byte               -- key of the masks of the present pass (R268)
  remaskNext : Nat             -- LT of the next re-mask pass
  slots : Tab KeySlot
  devGen : Nat
  tenGens : Tab Nat
  cache : Tab CacheEntry       -- by set * 4 + way
  cachePeak : Nat
  flights : List Flight        -- derivations in flight (R272, R276)
  stamps : Nat                 -- order of uses (R271, R295)
  txfc : Tab Nat               -- TEN_TXFC per tenant (R297)
  wins : List FcWin            -- R295
  winPeak : Nat
  loupe : Bool                 -- the side has consumed LOUPE_OPEN and not yet LOUPE_CLOSE (R305)
  testCtr : Nat                -- Hallmark's test counter (R305)
  puf : Option Nat             -- the PUF region: the pattern of its power-up of that number, none filled with zeros (R253)
  pufDue : Bool                -- LOCKET_x has been off since Locket last read the region (R253)
  enrolled : Option (List Byte) -- a root just drawn, whose helper data are still to be written (R257)
  lastStatus : Nat
  deriving DecidableEq, Repr

/-- What a side keeps in MRAM (R354): it survives every reset. -/
structure MramState where
  fwA : Tab Byte
  fwB : Tab Byte
  images : Tab Byte            -- node image store, by image * 2^20 + offset
  imgMeta : Tab (Nat × Nat × Nat)   -- VALID images: LENGTH, TENANT, VERSION
  keyImages : Tab (Nat × List Byte) -- wrapped slot images: their tag (R303) and payload
  slotGens : Tab Nat
  testImages : List Nat        -- slots whose image was installed while Loupe was open (R260)
  helper : Option Helper       -- helper data (R254, R257)
  pufUps : Nat                 -- the model's own counter: power-ups of the PUF region so far
  ring : List Nat              -- Hallmark ring (R304)
  boots : Nat
  txfcMarks : Tab Nat
  svnFloor : Nat
  bootSel : Nat
  data : Tab Byte              -- firmware data region
  deriving DecidableEq, Repr

/-- The firmware of a side while it runs (chapter 11). -/
structure FwState where
  entry : Nat                  -- ENTRY of the loaded image, from which core 0 runs (R355, R397)
  run : Nat                    -- running slot; 2 an image from a host or the chain port
  okA : Bool
  okB : Bool
  bootFail : Nat
  tried : Nat                  -- slots tried at step 4, as bits
  verifyAt : Option Nat        -- LT from which the background verification reads (R357)
  verify : Nat                 -- slots in background verification, as bits
  trial : Bool
  phase : Nat
  cause : Nat
  doneAt : Option Nat          -- LT of DONE, for TRIAL_TO (R364)
  expired : Bool
  deriving DecidableEq, Repr

/-! ## Sides: pending pool, windows, Trowel, gates (chapters 5 and 10) -/

/-- The host item or reserved answer that a frame belongs to (R392). -/
structure Origin where
  strand : Nat                 -- the HOST_IN strand it came on
  tag : Nat
  tenant : Nat
  service : Nat
  group : Nat
  node : Nat
  cells : List Nat             -- cells the item holds until its outcome
  left : Nat                   -- frames of it without outcome
  code : Nat                   -- status so far, 0 while good
  deriving DecidableEq, Repr

/-- A frame to be sent: queued, parked or released. -/
structure Frame where
  id : Nat
  item : Option Nat            -- the item it completes
  node : Nat                   -- destination node's mesh ID; 0 for the queue's own flow (R321)
  tenant : Nat
  service : Nat
  group : Nat
  ch : Nat
  mode : Nat
  phyOpt : Nat
  txLevel : Nat
  profile : Nat
  ar : Bool
  macSeq : Option Nat          -- MAC sequence number, none when suppressed
  psdu : List Byte
  session : Bool               -- a symbol frame of the broadcast session
  cell : Option Nat            -- a cell it holds itself
  seq : Nat                    -- number of the input that carried it
  relaunches : Nat
  waited : List (Nat × Nat)    -- carriers and ends of the openings counted in WAIT_OPEN
  skipped : Option Nat         -- minute bucket counted in DUTY_SKIP
  deferred : List (Nat × Nat)  -- protected spans counted in DEFER_RX
  fc : Nat
  deriving DecidableEq, Repr

/-- A parked frame (R178 to R188): since when, windows offered, whether it is being launched. -/
structure Parked where
  f : Frame
  since : Nat
  windows : Nat
  inFlight : Bool
  deriving DecidableEq, Repr

/-- A receive window in progress (R188): its end, the retries made, whether the next frame may follow (R185). -/
structure WinTx where
  fin : Nat
  tries : Nat
  record : Option Nat
  deriving DecidableEq, Repr

/-- A released frame without outcome (R343, R348, R349): its port, its launch LT, airtime, the credit it took (six
bits), the end of its burst and the LT after which it is unacknowledged once it was launched, its window. -/
structure Released where
  f : Frame
  port : Nat
  t : Nat
  air : Nat
  took : Nat
  burstEnd : Option Nat
  ackBy : Option Nat
  win : Option WinTx
  deriving DecidableEq, Repr

/-- A receive-window record (R189). -/
structure WinRec where
  mesh : Nat
  nom : Nat
  period : Nat                 -- ms
  len : Nat                    -- µs
  anchor : Nat
  eps : Int                    -- ppb
  k : Nat                      -- next window not yet begun
  noack : Bool                 -- a window ended under WIN_NOACK since the anchor (R191)
  deriving DecidableEq, Repr

/-- The PEND unit of a side. -/
structure PendState where
  pool : List Parked           -- in park order
  poolPeak : Nat
  recs : Tab WinRec
  addrs : Tab (Bool × Nat)     -- by mesh ID: the address of its SET (R179), extended, value
  unann : Tab Nat              -- nodes whose SET was refused with FULL (R180): LT of its next repeat
  winResult : Nat
  deriving DecidableEq, Repr

/-- Credit of one bucket pair (R323 to R326), in units of 1/65,536 packet times 10^9; the peak credit falls below zero
when a committed frame takes its packet from a peak bucket that holds less (R326). -/
structure Credit where
  comm : Nat
  peak : Int
  last : Nat
  deriving DecidableEq, Repr

/-- One bank of a gate list (R333): length, base, cycle, entries. -/
structure GateBank where
  len : Nat
  base : Nat
  cycle : Nat
  ents : Tab Word
  deriving DecidableEq, Repr

/-- The gates of one carrier (R333 to R340). -/
structure GateState where
  en : Bool
  latePol : Bool
  oper : GateBank
  adm : GateBank
  bank : Bool
  pend : Option Nat            -- S of the pending swap
  rebase : Bool                -- the list's cycle 0 starts at S (R336)
  swapLt : Nat
  late : Bool
  missed : Bool
  trunc : Bool
  deriving DecidableEq, Repr

/-- Trowel of a side, beside its registers. -/
structure TrowelState where
  queues : Tab (List Frame)    -- by (tenant * 8 + service) * 8 + group
  peak : Nat
  credits : Tab Credit         -- by level * 8192 + index
  turns : Tab Nat              -- port * 8 + service: the subscriber released last
  bookings : Tab (List (Nat × Nat))  -- per Trowel port: LT spans
  released : List Released
  spans : List (Nat × Nat × Nat × Nat)  -- protected spans: port, channel, start, end
  gaps : List (Nat × Nat × Nat)         -- announced calibration gaps: port, start, end
  duty : Tab Nat               -- account * 64 + bucket, µs
  dutyIdx : Nat
  dutyNext : Nat
  dwell : Tab Nat              -- (port * 256 + channel) * 16 + sub-bucket, µs
  dwellIdx : Tab Nat           -- per port
  dwellNext : Tab Nat
  items : Tab Origin
  ids : Nat                    -- next frame, item and launch number
  rateSec : Nat                -- second of LT whose releases are counted (R332)
  rateCnt : Nat
  shpWas : Tab Nat             -- rates and depths written since the last time input: the values in force, by offset * 2^16 + key (R327)
  deciding : Nat               -- carriers from this one on have not decided at the last time input (R328)
  gates : Tab GateState        -- per carrier 0 to 11
  deriving DecidableEq, Repr

/-- The side's part of a broadcast session (R369, R371). -/
structure SessState where
  active : Bool
  tenant : Nat
  service : Nat
  group : Nat
  ch : Nat
  mode : Nat
  phyOpt : Nat
  txLevel : Nat
  norel : Bool
  ttl : Nat
  sel : Nat
  reportSel : Nat
  session : Nat
  version : Nat
  len : Nat
  t : Nat
  z : Nat
  depth : Nat
  image : Nat
  asked : Nat                  -- symbol requests without answer
  deriving DecidableEq, Repr

/-! ## Sides -/

/-- The event record of a side (R480, R481, R488). -/
structure SideEvt where
  commonsPend : List Nat       -- commons sources pending as sequenced to this side, rising
  lastPend : List Nat          -- side sources pending after the last command, rising
  deriving DecidableEq, Repr

/-- What a side reports to the commons over its status path (R450, R453, R456, R458), and the items it discards for a port
that was reset (R496): true HOSTB. -/
inductive Report where
  | disDrop | lossMarker | lossWait
  | itemDiscard (second : Bool)
  deriving DecidableEq, Repr

/-- What draws TRNG words: the start values of TX_SEQ and TX_TAG, the back-off of a flood, a re-mask pass, an enrolment (R208, R214,
R257, R269). -/
inductive DrawFor where
  | txSeq | relay | remask | enrol
  deriving DecidableEq, Repr

/-- A draw in progress, with the words it has taken (R603). -/
structure Draw where
  use : DrawFor
  got : List Word64
  deriving DecidableEq, Repr

/-- One side. -/
structure Side where
  regs : Tab Word
  errAt : Nat                  -- inputs consumed when ERR_FIRST of a page last took an error (R445)
  errNow : Tab Word            -- by page, the errors that the present input has offered to ERR_FIRST
  now : Nat
  tick : Nat                   -- LT of the last time input consumed
  point : Nat
  token : Nat
  inq : List Seqd
  seen : Seen                  -- the commons as sequenced with the last input consumed (R16)
  outq : List Txn
  trng : List Word64
  draws : List Draw            -- draws that wait for words, oldest first (R603)
  evt : SideEvt
  reports : List Report
  disp : DispState
  strand : StrandState
  mesh : MeshState
  node : NodeState
  key : KeyState
  mram : MramState
  fw : FwState
  cmem : Tab Byte              -- core program and data region, 3 MiB: offset to byte, an unlisted byte is zero (R14)
  pend : PendState
  trowel : TrowelState
  sess : SessState
  pmb : PmbState
  air : Tab Word               -- AIR registers as sequenced to the side (R163)
  chans : Tab ChanDef          -- channel plan as sequenced: port * 256 + channel (R87)
  reads : List (Nat × Nat × Bool)  -- commons reads asked and not answered: page, offset, asked at side start (R19, R344)
  deriving DecidableEq, Repr

/-- The state of the block: the queue of waiting commands, the variant, the commons and the two sides. -/
structure State where
  pending : List Instr
  variant : Variant
  c : Commons
  a : Side
  b : Side
  deriving DecidableEq, Repr

/-! ## Reset -/

/-- A port after PORST_N, at its default centre frequency. DESIGN CHOICE: the first dwell sub-bucket boundary falls one
sub-bucket after the release (R120 gives no phase). -/
def RfPort.reset (lo : Nat) : RfPort :=
  { lo := lo, retuneReq := none, retuneEnd := none, calEnd := none, calDone := false, calFail := false, cancOk := true,
    gapEnd := none, gapNow := false, gapNext := none, noticed := false, txOff := false, chans := [],
    carriers := Vector.replicate 4 { arrivals := [], queue := [], held := [], bursts := [] },
    lanes := [], groups := [], rearm := [], lastServed := 255, dwell := [], dwellIdx := 0, dwellNext := 1250000000 }

/-- A host port after reset: link down, every vector masked. -/
def HostPort.reset : HostPort :=
  { speed := 0, width := 0, up := false, bme := false, msixEn := false, funcMask := false, masked := List.range 64,
    pba := [], addrs := [], datas := [], frames := [] }

/-- TimeState right after PORST_N. -/
def TimeState.reset : TimeState :=
  { srcs := [], source := 0, unsync := true, holdover := none, noSource := false, expired := false,
    pend := none, slewRem := 0, slewing := false, slewFrom := 0, coarse := false, xtalStopped := false, lastFine := 0,
    offset := 0, freqAdj := 0, locked := false, freeIdx := 0, ppsCount := none, ref10Dev := 0, ptp := [],
    ltHi := 0 }

/-- AirState right after PORST_N. -/
def AirState.reset : AirState :=
  { rxbuf := [], rxPeak := 0, list := [], listPeak := 0, updates := [], passedAt := 0, before := [],
    qres := none, asked := none, sentUp := 0 }

/-- TampState right after PORST_N. -/
def TampState.reset : TampState :=
  { status := 0, statusAt := 0, keylessBoot := false, zeroized := false, nonce := none, opened := none, lockEnd := none,
    result := 0, fails := 0, trng := [], asked := none }

/-- IbeState right after PORST_N. -/
def IbeState.reset : IbeState :=
  { phase := 0, ended := 0,
    args := { session := 0, image := 0, tenant := 0, service := 0, t := 0, z := 0, ovh := 0, carousel := false, target := 0,
              stopLt := 0, interleave := false, srcFirst := false, data := [] },
    turn := 0, sent := [], stopLt := none, reports := 0 }

/-- ClaspState right after PORST_N. -/
def ClaspState.reset : ClaspState :=
  { r0 := ⟨0, 0, 0⟩, r1 := ⟨0, 0, 0⟩, r2 := ⟨0, 0, 0⟩, grantPoint := 0, prevToken := 0, oldHolder := 0, readyA := false,
    readyB := false, grantDue := none, waitPassed := false, drillHome := none, drillEnd := none,
    drillNext := none, drillWait := false, swapTo := none, swapOut := none }

/-- BezelState right after PORST_N. -/
def BezelState.reset : BezelState :=
  { seq := 0, timeAt := none, waiting := [], stA := .off, stB := .off, heldA := [], heldB := [],
    hold := none, dead := false, pathBadA := false, pathBadB := false, lastCause := 0, misSeq := 0, winReads := [],
    refill := none, refillCause := 0, joinPoint := 0, gapFrom := none, seenA := 0, seenB := 0,
    leadA := [], leadB := [], skewMax := 0, skewNow := 0, gapMax := 0,
    readDiff := 0, reads := [], rootCheck := 0, imgCheck := 0 }

/-- EvtState right after PORST_N. -/
def EvtState.reset : EvtState :=
  { sidePend := [], lastPend := [], disarmedA := [], disarmedB := [], msgA := 0, msgB := 0, modDefer := 0,
    modA := [], modB := [], sent := [], lastSum := [], firstPage := none, firstPlt := 0, slotPend := [], errEvt := 0 }

/-- PdState right after PORST_N. -/
def PdState.reset : PdState :=
  { doms := [], faults := [], queue := [], run := none, result := 0, refuse := none, susp := none, paused := [],
    scan := [], lost := [], rails := [], i2cResult := 0, i2cStretch := false, i2cPtr := 0 }

/-- SysState right after PORST_N. -/
def SysState.reset : SysState :=
  { step := 1, commonsEn := false, bootA := 0, bootB := 0, straps := 0, porstLow := true, pll := 0,
    xtalOk := false, x32Rc := false, pcieRef := false, sdsRef := false, ref10 := false, warmStart := false, commonsStopped := false,
    gpioOut := 0, gpioDir := 0, gpioIgn := 0, feOut := 0, feCfg := [], banksUp := 0,
    semAt := [], hboot := [], hbootA := false, hbootB := false }

/-- What the sides have seen of a port before any input. -/
def PortSeen.reset (lo : Nat) : PortSeen := { lo := lo, calDone := false, calFail := false, cancOk := true, txOff := false }

/-- What a side has seen of the commons before any input: their reset state. -/
def Seen.reset : Seen :=
  { regs := [], unsync := true, ibePhase := 0, portS := PortSeen.reset 0x8E30, portM := PortSeen.reset 0x11DF0
    portH := PortSeen.reset 0x5F61 }

/-- A pulse output that is not armed. -/
def TpoState.idle : TpoState :=
  { active := false, next := none, rising := false, grid := 0, began := 0, late := false, clear := false, after := none }

/-- The test access port before its first clock: Test-Logic-Reset, with IDCODE selected. -/
def JtagState.reset : JtagState := { tap := .reset, instr := .idcode, shift := [], latch := [], tck := false, tdo := none }

/-- The commons right after PORST_N (table "Reset effects" of R551). -/
def Commons.reset : Commons :=
  { lt := 0, regs := [], freshAt := 0, fresh := [],
    time := TimeState.reset,
    tpo := Vector.replicate 4 TpoState.idle,
    rfS := RfPort.reset 0x8E30, rfM := RfPort.reset 0x11DF0, rfH := RfPort.reset 0x5F61,
    air := AirState.reset,
    duty := { use := [], idx := 0, next := 60000000000 },
    tamp := TampState.reset,
    ibe := IbeState.reset,
    clasp := ClaspState.reset,
    bezel := BezelState.reset,
    evt := EvtState.reset,
    hostA := HostPort.reset, hostB := HostPort.reset,
    chain := { addr := 0, eno := false, eni := false, crcErr := false, rd := none, out := [] },
    eth0 := { up := false, speed := 0, tx := [] },
    eth1 := { up := false, speed := 0, tx := [] },
    pd := PdState.reset,
    pmb := { raw := none, rail := none, status := [], rawStat := 0 },
    sys := SysState.reset, writes := { lt := 0, regs := [], eth := [] }, jtag := JtagState.reset,
    lastRead := none }

/-- A core in reset. -/
def Core.idle : Core :=
  { cur := none, irq := false, since := 0, sliced := false, darg0 := 0, darg1 := 0, dres := 0, dnext := 0 }

/-- The dispatcher at side start: only core 0 runs (R397). -/
def DispState.reset : DispState :=
  { threads := [], ready := [], waiters := [], objs := [],
    cores := Vector.replicate 8 Core.idle,
    stats := [], load := [], hi := [], picks := 0 }

/-- A strand that has just been enabled or never was. -/
def Ring.reset : Ring :=
  { slots := [], rp := 0, itemAt := none, ended := 0, passed := 0, lost := 0, mark := none, wpt := 0, absorb := false,
    flushPartial := false, places := [], cells := [], outCells := [], stalled := [], popWait := none, closing := false }

/-- The strands at side start: every cell free. -/
def StrandState.reset : StrandState :=
  { rings := [], used := [], gone := [], data := [], stage := [], picks := 0, marks := [], held := [] }

/-- DML, Skim and 6LoWPAN at side start. -/
def MeshState.reset : MeshState :=
  { skim := [], relays := [], sweepNext := 0, seqLoaded := false, txSeq := 0, txTag := 0, ctxs := [], reasm := [],
    reasmPeak := 0, frames := 0 }

/-- The tables of a side at its start: empty. -/
def NodeState.reset : NodeState :=
  { nodes := [], euis := [], locks := [], writes := [], held := [], cam := [], camOld := none, camSeq := 0, moves := 0,
    passAt := none, passLen := 0 }

/-- The keys of a side before Locket has read its PUF: none. -/
def KeyState.reset : KeyState :=
  { root := none, kek := [], ids := [], testRoot := false, rootFail := false, loaded := false, keyless := false,
    maxErr := 0, mp := List.replicate 16 0, remaskNext := 0, slots := [], devGen := 0, tenGens := [], cache := [],
    cachePeak := 0, flights := [], stamps := 0, txfc := [], wins := [], winPeak := 0, loupe := false, testCtr := 0,
    puf := none, pufDue := true, enrolled := none, lastStatus := 0 }

/-- MRAM as the part leaves the factory: nothing written. DESIGN CHOICE: the spec gives no contents. -/
def MramState.reset : MramState :=
  { fwA := [], fwB := [], images := [], imgMeta := [], keyImages := [], slotGens := [], testImages := [], helper := none,
    pufUps := 0, ring := [], boots := 0, txfcMarks := [], svnFloor := 0, bootSel := 0, data := [] }

/-- The firmware of a side before step 4. -/
def FwState.reset : FwState :=
  { entry := 0, run := 0, okA := false, okB := false, bootFail := 0, tried := 0, verifyAt := none, verify := 0, trial := false,
    phase := 0, cause := 0, doneAt := none, expired := false }

/-- The PEND unit at side start. -/
def PendState.reset : PendState :=
  { pool := [], poolPeak := 0, recs := [], addrs := [], unann := [], winResult := 0 }

/-- An empty gate bank with the reset CYCLE. -/
def GateBank.reset : GateBank := { len := 0, base := 0, cycle := 100000000, ents := [] }

/-- The gates of a carrier at reset: all open (R335). -/
def GateState.reset : GateState :=
  { en := false, latePol := true, oper := GateBank.reset, adm := GateBank.reset, bank := false, pend := none,
    rebase := false, swapLt := 0, late := false, missed := false, trunc := false }

/-- Trowel at side start. -/
def TrowelState.reset : TrowelState :=
  { queues := [], peak := 0, credits := [], turns := [], bookings := [], released := [], spans := [], gaps := [],
    duty := [], dutyIdx := 0, dutyNext := 60000000000, dwell := [], dwellIdx := [], dwellNext := [], items := [],
    ids := 0, rateSec := 0, rateCnt := 0, shpWas := [], deciding := 12, gates := [] }

/-- No broadcast session. -/
def SessState.reset : SessState :=
  { active := false, tenant := 0, service := 0, group := 0, ch := 0, mode := 0, phyOpt := 0, txLevel := 0,
    norel := false, ttl := 0, sel := 0, reportSel := 0, session := 0, version := 0, len := 0, t := 0, z := 0,
    depth := 0, image := 0, asked := 0 }

/-- A PMBus port at reset. -/
def PmbState.reset : PmbState := { raw := none, rail := none, status := [], rawStat := 0 }

/-- A side right after reset. -/
def Side.reset : Side :=
  { regs := [], errAt := 0, errNow := [], now := 0, tick := 0, point := 0, token := 0, inq := [], seen := Seen.reset, outq := [], trng := [], draws := [],
    evt := { commonsPend := [], lastPend := [] }, reports := [], disp := DispState.reset, strand := StrandState.reset,
    mesh := MeshState.reset, node := NodeState.reset, key := KeyState.reset, mram := MramState.reset,
    fw := FwState.reset, cmem := [], pend := PendState.reset, trowel := TrowelState.reset, sess := SessState.reset,
    pmb := PmbState.reset, air := [], chans := [], reads := [] }

/-- The block right after PORST_N, on the variant KL9680: the variant is a DESIGN CHOICE of the model. -/
def State.reset : State :=
  { pending := [], variant := .kl9680, c := Commons.reset, a := Side.reset, b := Side.reset }

end Sys2Proof.Machine
end

