-- ==== Sys2Proof/Machine/Ops.lean ====
section
/-! DEFINITION. The named operations over the state: registers and counters, the error record of a page, the ingress
sequencer's delivery of an input, outputs, and access to sides and ports. -/

namespace Sys2Proof

/-- The other side. -/
def SideId.other : SideId → SideId
  | .a => .b
  | .b => .a

/-- The side numbers of HOLDER: 1 side A, 2 side B (R418). -/
def SideId.num : SideId → Nat
  | .a => 1
  | .b => 2

/-- Number of a port: 0 S, 1 M, 2 H (R149). -/
def RPort.num : RPort → Nat
  | .s => 0
  | .m => 1
  | .h => 2

/-- The port of a number. -/
def RPort.ofNum : Nat → Option RPort
  | 0 => some .s
  | 1 => some .m
  | 2 => some .h
  | _ => none

/-- The source at which a requester's inputs wait. -/
def Requester.source : Requester → InputSource
  | .hostA => .hostA
  | .hostB => .hostB
  | .chain | .jtag => .chain
  | .core _ => .units

/-- A side writes. -/
def Requester.isCore : Requester → Bool
  | .core _ => true
  | _ => false

/-- The RFx page of a port. -/
def RPort.rfPage (p : RPort) : Nat := Pg.RFS + p.num

/-- The CHZ page of a port. -/
def RPort.chzPage (p : RPort) : Nat := Pg.CHZ + p.num

/-- The FACET page of a port. -/
def RPort.facetPage (p : RPort) : Nat := Pg.FACET + p.num

end Sys2Proof

namespace Sys2Proof.Machine

open Sys2Proof

/-! ## Registers -/

/-- The key of a register in a store: page, offset and, for a register selected through an index register, the
index. -/
def rkey (page off idx : Nat) : Nat := 4096 * (idx * 128 + page) + off

/-- The row of a page table that holds an offset, if any. -/
def rowHolding (rows : List RegRow) (off : Nat) : Option RegRow :=
  rows.find? fun r =>
    decide (r.off ≤ off) &&
    (if r.stride = 0 then decide (off = r.off)
     else decide ((off - r.off) % r.stride = 0) && decide ((off - r.off) / r.stride < r.cnt))

/-- The row of a page's register, the common header of R467 below offset 0x040. FE_CFGn is a register of page RFM only
(table "RFx page"). -/
def regRow (page off : Nat) : Option RegRow :=
  match pageKind page with
  | none => none
  | some k =>
    if k = .rf ∧ page ≠ Pg.RFM ∧ Reg.RF_FE_CFG ≤ off ∧ off < Reg.RF_FE_CFG + 96 then none else if off < 0x40 then rowHolding rows_hdr off else rowHolding (rowsOf k) off

/-- Reset values that differ between the ports' pages (R103, table "Port properties"). -/
def portReset (page off : Nat) : Option Nat :=
  if page = Pg.RFS ∧ off = Reg.RF_LO_FREQ then some 0x8E30
  else if page = Pg.RFH ∧ off = Reg.RF_LO_FREQ then some 0x5F61
  else if page = Pg.RFH ∧ off = Reg.RF_BLANK_DIST then some 0xA
  else if page = Pg.FACET ∧ off = Reg.FACET_PORT_LIMIT then some 0x40
  else if page = Pg.FACET + 2 ∧ off = Reg.FACET_PORT_LIMIT then some 0x80
  else if page = Pg.DML ∧ off = Reg.DML_SEL_MAP then some 0x100
  else none

/-- The reset value of a register (the page tables). -/
def regReset (page off : Nat) : Word :=
  match portReset page off with
  | some n => w32 n
  | none => match regRow page off with
    | some r => w32 r.reset
    | none => 0

/-- The value of a register selected by an index. -/
def rdI (t : Tab Word) (page off idx : Nat) : Word :=
  match t.find (rkey page off idx) with
  | some v => v
  | none => regReset page off

/-- The store with a register selected by an index set; a register at its reset value is not listed. -/
def wrI (t : Tab Word) (page off idx : Nat) (v : Word) : Tab Word :=
  if v = regReset page off then t.del (rkey page off idx) else t.put (rkey page off idx) v

/-- The value of a register. -/
def rd (t : Tab Word) (page off : Nat) : Word := rdI t page off 0

/-- The store with a register set. -/
def wr (t : Tab Word) (page off : Nat) (v : Word) : Tab Word := wrI t page off 0 v

/-- A field of a register, as a number. -/
def rf (t : Tab Word) (page off hi lo : Nat) : Nat := fld (rd t page off) hi lo

/-- A one-bit field of a register. -/
def rb (t : Tab Word) (page off n : Nat) : Bool := bitOf (rd t page off) n

/-- A 64-bit value held in a LO and a HI register. -/
def rd64 (t : Tab Word) (page off : Nat) : Nat := (rd t page off).toNat + (rd t page (off + 4)).toNat * 2 ^ 32

/-- Both halves of a 64-bit value stored. -/
def wr64 (t : Tab Word) (page off v : Nat) : Tab Word := wr (wr t page off (w32 v)) page (off + 4) (w32 (v / 2 ^ 32))

/-- A counter advanced by n; it saturates at 0xFFFF_FFFF (R122 and its like). -/
def bumpBy (t : Tab Word) (page off n : Nat) : Tab Word :=
  wr t page off (w32 (min (2 ^ 32 - 1) ((rd t page off).toNat + n)))

/-- A counter advanced by one. -/
def bump (t : Tab Word) (page off : Nat) : Tab Word := bumpBy t page off 1

/-- A counter selected by an index advanced by one. -/
def bumpI (t : Tab Word) (page off idx : Nat) : Tab Word :=
  wrI t page off idx (w32 (min (2 ^ 32 - 1) ((rdI t page off idx).toNat + 1)))

/-- A peak register field raised to a value. -/
def peak (t : Tab Word) (page off hi lo v : Nat) : Tab Word :=
  if rf t page off hi lo < v then wr t page off (setFld (rd t page off) hi lo v) else t

/-! ## The error record and the event bits of a page -/

/-- The one-bit mask of a bit number. -/
def bitMask (bit : Nat) : Word := w32 (2 ^ bit)

/-- ERR_FIRST takes an error: nothing is recorded, or what is recorded came in the same cycle with a higher bit number, where
`now` are the bits offered in that cycle (R443, R445). -/
def firstTakes (t : Tab Word) (page bit : Nat) (now : Word) : Bool :=
  !rb t page Reg.HDR_ERR_MASK bit &&
  (decide (rd t page Reg.HDR_ERR_FIRST = 0) || (decide (now ≠ 0) && decide (now.toNat % 2 ^ (bit + 1) = 0)))

/-- The unmasked errors of the cycle in which the record began, with one more; none while an older record stands. -/
def firstNow (t : Tab Word) (page bit : Nat) (now : Word) : Word :=
  if rb t page Reg.HDR_ERR_MASK bit then now
  else if rd t page Reg.HDR_ERR_FIRST = 0 then bitMask bit
  else if now = 0 then 0
  else now ||| bitMask bit

/-- An error is detected: its ERR_STICKY bit is set, and if ERR_FIRST takes it its code and the low 32 bits of LT are recorded
(R441 to R445). -/
def setErrCode (t : Tab Word) (page bit code lt : Nat) (now : Word) : Tab Word :=
  let t1 := wr t page Reg.HDR_ERR_STICKY (rd t page Reg.HDR_ERR_STICKY ||| bitMask bit)
  if firstTakes t page bit now then wr (wr t1 page Reg.HDR_ERR_FIRST (w32 code)) page Reg.HDR_ERR_LT (w32 lt) else t1

/-- A page event sets its EVT_STAT bit (R479). -/
def setEvt (t : Tab Word) (page bit : Nat) : Tab Word :=
  wr t page Reg.HDR_EVT_STAT (rd t page Reg.HDR_EVT_STAT ||| bitMask bit)

/-- The page has an unmasked ERR_STICKY bit set (R442, R448). -/
def errPending (t : Tab Word) (page : Nat) : Bool :=
  decide ((rd t page Reg.HDR_ERR_STICKY) &&& ~~~(rd t page Reg.HDR_ERR_MASK) ≠ 0)

/-- The page's EVT_STAT AND EVT_EN is non-zero (table "Event source groups" of R478). -/
def evtPending (t : Tab Word) (page : Nat) : Bool :=
  decide ((rd t page Reg.HDR_EVT_STAT) &&& (rd t page Reg.HDR_EVT_EN) ≠ 0)

/-- CTRL.ENABLE of a page with no draining in progress: the unit takes work (R457, R458). -/
def unitOn (t : Tab Word) (page : Nat) : Bool :=
  rb t page Reg.HDR_CTRL 0 && rb t page Reg.HDR_STAT 0 && !rb t page Reg.HDR_STAT 2

/-! ## Sides, ports and the commons -/

/-- One side of the state. -/
def State.side (s : State) : SideId → Side
  | .a => s.a
  | .b => s.b

/-- The state with one side changed. -/
def State.upd (s : State) (x : SideId) (f : Side → Side) : State :=
  match x with
  | .a => { s with a := f s.a }
  | .b => { s with b := f s.b }

/-- The state with the commons changed. -/
def State.updC (s : State) (f : Commons → Commons) : State := { s with c := f s.c }

/-- The state with the registers of the commons changed. -/
def State.updR (s : State) (f : Tab Word → Tab Word) : State := { s with c := { s.c with regs := f s.c.regs } }

/-- The registers of the commons changed. -/
def Commons.updR (c : Commons) (f : Tab Word → Tab Word) : Commons := { c with regs := f c.regs }

/-- The registers of a side changed. -/
def Side.updR (d : Side) (f : Tab Word → Tab Word) : Side := { d with regs := f d.regs }

/-- A counter of a side page advanced. -/
def Side.count (d : Side) (page off : Nat) : Side := { d with regs := bump d.regs page off }

/-- The errors of a page that the input a side works on has offered to ERR_FIRST (R11, R445). -/
def Side.errOffered (d : Side) (page : Nat) : Word := if d.errAt = d.point then (d.errNow.find page).getD 0 else 0

/-- An error of a side page, with code bit + 1: the moment is the side's now, and the same cycle is the same input (R11, R443 to
R445). -/
def Side.err (d : Side) (page bit : Nat) : Side :=
  let now := d.errOffered page
  { d with regs := setErrCode d.regs page bit (bit + 1) d.now now
           errAt := d.point
           errNow := (if d.errAt = d.point then d.errNow else []).put page (firstNow d.regs page bit now) }

/-! ## What hardware sets in a cycle (R11) -/

/-- The bits that hardware has set in the present cycle, by register. -/
def Commons.freshTab (c : Commons) : Tab Word := if c.freshAt = c.lt then c.fresh else []

/-- The bits of a register that hardware has set in the present cycle (R11). -/
def Commons.freshBits (c : Commons) (page off : Nat) : Word := (c.freshTab.find (rkey page off 0)).getD 0

/-- The bits of a register noted as set in the present cycle. -/
def Commons.setFresh (c : Commons) (page off : Nat) (m : Word) : Commons :=
  { c with freshAt := c.lt, fresh := c.freshTab.put (rkey page off 0) m }

/-- More bits of a register noted as set in the present cycle. -/
def Commons.mark (c : Commons) (page off : Nat) (m : Word) : Commons := c.setFresh page off (c.freshBits page off ||| m)

/-- Hardware sets bits of a register. -/
def Commons.hwSet (c : Commons) (page off : Nat) (m : Word) : Commons :=
  ({ c with regs := wr c.regs page off (rd c.regs page off ||| m) }).mark page off m

/-- What a word of W1C bits clears: a bit that hardware sets in the same cycle stays set (R11). -/
def Commons.clears (c : Commons) (page off : Nat) (w : Word) : Word := w &&& ~~~c.freshBits page off

/-- A page event sets its EVT_STAT bit (R479). -/
def Commons.event (c : Commons) (page bit : Nat) : Commons := c.hwSet page Reg.HDR_EVT_STAT (bitMask bit)

/-- The pseudo-register at which the ERR_STICKY bits that were 0 before the present cycle are noted (R446). -/
def newSticky : Nat := Reg.HDR_ERR_STICKY + 1

/-- An error of a commons page with its code: the moment is the cycle of detection (R441 to R445). -/
def Commons.errCode (c : Commons) (page bit code : Nat) : Commons :=
  let now := c.freshBits page Reg.HDR_ERR_FIRST
  let c1 := { c with regs := setErrCode c.regs page bit code c.lt now }
  let c2 := (c1.mark page Reg.HDR_ERR_STICKY (bitMask bit)).setFresh page Reg.HDR_ERR_FIRST (firstNow c.regs page bit now)
  if rb c.regs page Reg.HDR_ERR_STICKY bit then c2 else c2.mark page newSticky (bitMask bit)

/-- An error whose code is its bit number plus one (R443). -/
def Commons.err (c : Commons) (page bit : Nat) : Commons := c.errCode page bit (bit + 1)

/-- A counter of a commons page advanced. -/
def Commons.count (c : Commons) (page off : Nat) : Commons := { c with regs := bump c.regs page off }

/-- The state of a port. -/
def Commons.port (c : Commons) : RPort → RfPort
  | .s => c.rfS
  | .m => c.rfM
  | .h => c.rfH

/-- The commons with a port's state changed. -/
def Commons.updPort (c : Commons) (p : RPort) (f : RfPort → RfPort) : Commons :=
  match p with
  | .s => { c with rfS := f c.rfS }
  | .m => { c with rfM := f c.rfM }
  | .h => { c with rfH := f c.rfH }

/-- A MAC. -/
def Commons.eth (c : Commons) (second : Bool) : EthState := if second then c.eth1 else c.eth0

/-- The commons with a MAC changed. -/
def Commons.updEth (c : Commons) (second : Bool) (f : EthState → EthState) : Commons :=
  if second then { c with eth1 := f c.eth1 } else { c with eth0 := f c.eth0 }

/-- The page of a MAC. -/
def ethPage (second : Bool) : Nat := if second then Pg.ETH1 else Pg.ETH0

/-- A host port. -/
def Commons.host (c : Commons) (second : Bool) : HostPort := if second then c.hostB else c.hostA

/-- The commons with a host port changed. -/
def Commons.updHost (c : Commons) (second : Bool) (f : HostPort → HostPort) : Commons :=
  if second then { c with hostB := f c.hostB } else { c with hostA := f c.hostA }

/-- The page of a host port. -/
def hostPage (second : Bool) : Nat := if second then Pg.HOSTB else Pg.HOSTA

/-- The ports a variant has (R1, table "Variant contents"). -/
def Variant.hasPort : Variant → RPort → Bool
  | .kl9680, _ => true
  | .kl9640, .h => false
  | .kl9640, _ => true
  | .kl9620, .m => true
  | .kl9620, _ => false

/-- The variant has side B, a second MAC, HOSTB and the IBE (R1). -/
def Variant.full : Variant → Bool
  | .kl9620 => false
  | _ => true

/-- The page exists on the variant (R474, column "Absent on"). -/
def pagePresent (v : Variant) (page : Nat) : Bool :=
  (pageKind page).isSome &&
  (if page = Pg.RFS ∨ page = Pg.CHZ ∨ page = Pg.FACET then v.hasPort .s
   else if page = Pg.RFH ∨ page = Pg.CHZ + 2 ∨ page = Pg.FACET + 2 then v.hasPort .h
   else if page = Pg.IBE ∨ page = Pg.HOSTB ∨ page = Pg.ETH1 then v.full
   else true)

/-! ## The ingress sequencer -/

/-- The state of a side at Bezel. -/
def BezelState.st (z : BezelState) : SideId → SideSt
  | .a => z.stA
  | .b => z.stB

/-- A side's state at Bezel changed. -/
def BezelState.setSt (z : BezelState) (x : SideId) (st : SideSt) : BezelState :=
  match x with
  | .a => { z with stA := st }
  | .b => { z with stB := st }

/-- The side takes part in sequencing: it is in service, or the TRANSFER marker of its refill has been sequenced
(R15, R27, R433). -/
def BezelState.receives (z : BezelState) (x : SideId) : Bool :=
  match z.st x with
  | .compared | .alone | .selfCheck => true
  | .refill => match z.refill with
    | some r => decide (r.side = x) && decide (3 ≤ r.phase)
    | none => false
  | _ => false

/-- The side consumes inputs now: in service and not in a self-check (R27, R427), or catching up (R433 step 4). -/
def BezelState.consumes (z : BezelState) (x : SideId) : Bool :=
  match z.st x with
  | .compared | .alone => true
  | .refill => match z.refill with
    | some r => decide (r.side = x) && decide (4 ≤ r.phase)
    | none => false
  | _ => false

/-- The SIDE domain of a side is on (R527). -/
def PdState.dom (p : PdState) (n : Nat) : DomSt := (p.doms.find n).getD .on

/-- The side of a domain: its SIDE, LOCKET and MRAM domains and its banks (R512). -/
def domSide (n : Nat) : Option SideId :=
  if n = 1 ∨ n = 3 ∨ n = 5 ∨ (32 ≤ n ∧ n < 56) then some .a
  else if n = 2 ∨ n = 4 ∨ n = 6 ∨ (64 ≤ n ∧ n < 88) then some .b
  else none

/-- A side's SIDE domain is on, it does not wait after PD_START, and its retained memory has been scanned (R527, R530). -/
def PdState.sideUp (p : PdState) (x : SideId) : Bool :=
  decide (p.dom x.num = .on) && !p.paused.contains x.num && !p.scan.any fun n => decide (domSide n = some x)

/-- BOOT_x of RST.STAT. -/
def SysState.boot (y : SysState) : SideId → Nat
  | .a => y.bootA
  | .b => y.bootB

/-- BOOT_x changed. -/
def SysState.setBoot (y : SysState) (x : SideId) (n : Nat) : SysState :=
  match x with
  | .a => { y with bootA := n }
  | .b => { y with bootB := n }

/-- A domain is in its entry to a lower state: its units take no new work (R522). Steps 1 to 5 are those of the table "Entry
sequence". -/
def PdState.leaving (p : PdState) (n : Nat) : Bool :=
  match p.run with
  | some r => decide (1 ≤ r.step ∧ r.step ≤ 5) && decide ((r.todo.head?.map (·.1)) = some n)
  | none => false

/-- The sequencer can deliver: some side takes part, and neither side's SIDE domain keeps inputs waiting (R21,
R529). -/
def seqOpen (s : State) : Bool :=
  (s.c.bezel.receives .a || s.c.bezel.receives .b) &&
  (!s.c.bezel.receives .a || s.c.pd.sideUp .a) &&
  (!s.c.bezel.receives .b || s.c.pd.sideUp .b)

/-- Bytes in the catch-up buffer: the inputs sequenced after the TRANSFER marker that the refilled side has not
consumed (R433 step 4). -/
def catchBytes (s : State) : Nat :=
  match s.c.bezel.refill with
  | some r => if 3 ≤ r.phase then ((s.side r.side).inq.map fun q => Config.inputBytes q.seq).sum else 0
  | none => 0

/-- The catch-up buffer of 4 MiB is full (R434). -/
def catchFull (s : State) : Bool := decide (4 * 2 ^ 20 ≤ catchBytes s)

/-- One of two compared sides has not consumed an input that the other has: the slower side paces intake (R21). -/
def lagging (s : State) : Bool :=
  decide (s.c.bezel.stA = .compared) && decide (s.c.bezel.stB = .compared) && decide (s.a.inq.length ≠ s.b.inq.length)

/-- A non-radio source is back-pressured: nothing can be delivered, the slower side has not caught up (R21), a mismatch is being
handled (R427), or the catch-up buffer is full (R434). -/
def seqBlocked (s : State) : Bool := !seqOpen s || lagging s || s.c.bezel.hold.isSome || catchFull s

/-- What the sides use of a port, as it stands. -/
def RfPort.seen (q : RfPort) : PortSeen :=
  { lo := q.lo, calDone := q.calDone, calFail := q.calFail, cancOk := q.cancOk, txOff := q.txOff }

/-- The pages whose settings the sides' own rules use. -/
def seenPages : List Nat :=
  [Pg.RFS, Pg.RFS + 1, Pg.RFS + 2, Pg.CHZ, Pg.CHZ + 1, Pg.CHZ + 2, Pg.DUTY, Pg.ETH0, Pg.ETH1, Pg.ERR, Pg.IBE, Pg.CEVT]

/-- The settings that go with an input sequenced now (R16). -/
def Commons.seen (c : Commons) : Seen :=
  { regs := c.regs.filter fun e => seenPages.contains (e.1 / 4096 % 128), unsync := c.time.unsync
    -- an IBE whose domain is not on refuses as one that is busy (R526)
    ibePhase := if c.pd.dom 20 = .on then c.ibe.phase else 1
    portS := c.rfS.seen, portM := c.rfM.seen, portH := c.rfH.seen }

/-- A port as it was seen. -/
def PortSeen.port (q : PortSeen) : RfPort :=
  { RfPort.reset q.lo with calDone := q.calDone, calFail := q.calFail, cancOk := q.cancOk, txOff := q.txOff }

/-- The commons as a side knows them: the settings that came with its last input, everything else as after reset (R16). -/
def Side.view (d : Side) : Commons :=
  { Commons.reset with
    regs := d.seen.regs, time := { TimeState.reset with unsync := d.seen.unsync }
    ibe := { IbeState.reset with phase := d.seen.ibePhase }
    rfS := d.seen.portS.port, rfM := d.seen.portM.port, rfH := d.seen.portH.port }

/-- A side's queue with an input appended, if the side takes part. -/
def Side.deliver (d : Side) (yes : Bool) (i : Seqd) : Side := if yes then { d with inq := d.inq ++ [i] } else d

/-- A time input. -/
def Input.isTime : Input → Bool
  | .time _ _ _ => true
  | _ => false

/-- The sequencer numbers an input and delivers it to the sides that take part, with the LT now (R15, R17). -/
def State.sequence (s : State) (i : Input) : State :=
  let q : Seqd := { seq := s.c.bezel.seq, lt := s.c.lt, inp := i, seen := s.c.seen }
  { s with
    c := { s.c with bezel := { s.c.bezel with seq := s.c.bezel.seq + 1
                                              timeAt := if i.isTime then some s.c.lt else s.c.bezel.timeAt } }
    a := s.a.deliver (s.c.bezel.receives .a) q
    b := s.b.deliver (s.c.bezel.receives .b) q }

/-- A source offers an input: it is sequenced, or it waits behind what its source already has waiting (R15, R21). -/
def State.offer (s : State) (src : InputSource) (i : Input) : State :=
  if seqBlocked s || s.c.bezel.waiting.any (fun w => decide (w.1 = src)) then
    { s with c := { s.c with bezel := { s.c.bezel with waiting := s.c.bezel.waiting ++ [(src, i)] } } }
  else s.sequence i

/-- A notice: it reaches both sides as a sequenced commons event (R479). -/
def State.notice (s : State) (n : Notice) : State := s.offer .units (.notice n)

/-- The oldest waiting input of a source, and the rest. -/
def takeWaiting (src : InputSource) : List (InputSource × Input) → Option (Input × List (InputSource × Input))
  | [] => none
  | (k, i) :: t => if k = src then some (i, t) else
    match takeWaiting src t with
    | some (j, r) => some (j, (k, i) :: r)
    | none => none

/-- The number of the input that a side works on. -/
def Side.inputNo (d : Side) : Nat := d.point - 1

/-! ## Outputs of a side -/

/-- A side offers an output: it carries the TOKEN of the last LEASE_GRANT it consumed and its sequence point
(R422). -/
def Side.emit (d : Side) (b : TxnBody) : Side :=
  { d with outq := d.outq ++ [{ body := b, token := d.token, point := d.point }] }

/-- The holder by majority of Clasp's replicas, none when no two agree (R418). -/
def ClaspState.vote (k : ClaspState) : Option Replica :=
  if k.r0 = k.r1 ∨ k.r0 = k.r2 then some k.r0 else if k.r1 = k.r2 then some k.r1 else none

/-- The side that holds the lease. -/
def ClaspState.holder (k : ClaspState) : Option SideId :=
  match k.vote with
  | some r => if r.holder = 1 then some .a else if r.holder = 2 then some .b else none
  | none => none

/-- The current TOKEN, 0 without one. -/
def ClaspState.token (k : ClaspState) : Nat := match k.vote with
  | some r => r.token
  | none => 0

/-- All three replicas written (R418). -/
def ClaspState.write (k : ClaspState) (r : Replica) : ClaspState := { k with r0 := r, r1 := r, r2 := r }

/-- Outputs pass without comparison: one side is out of service, or the variant has one (R27, R28). -/
def single (s : State) : Bool :=
  !s.variant.full ||
  !(decide (s.c.bezel.stA = .compared ∨ s.c.bezel.stA = .selfCheck) &&
    decide (s.c.bezel.stB = .compared ∨ s.c.bezel.stB = .selfCheck))

/-- Bezel holds the commons: a mismatch is in hand, or the commons are held after a double failure or a lost lease
(R421, R427, R429). -/
def BezelState.held (z : BezelState) : Bool := z.hold.isSome || z.dead

end Sys2Proof.Machine
end

