-- ==== Sys2Proof/Machine/Operands.lean ====
section
/-! DEFINITION. The operand forms of register accesses: who makes them, by which address, with which byte enables, and what a write is
in each field of a register (R6, R468, R469, R474 to R477). -/

namespace Sys2Proof

/-- The requester can exist on the variant (R3, R4). -/
def Requester.presentOn (full : Bool) : Requester → Bool
  | .hostB | .core .b => full
  | _ => true

/-- The second host port, for a host requester. -/
def Requester.isHost : Requester → Option Bool
  | .hostA => some false
  | .hostB => some true
  | _ => none

end Sys2Proof

namespace Sys2Proof.Machine

open Sys2Proof

/-- The bytes of a word that byte enables select. -/
def beMask (be : Nat) : Word :=
  w32 ((b2n (nbit be 0)) * 0xFF + (b2n (nbit be 1)) * 0xFF00 + (b2n (nbit be 2)) * 0xFF0000 + (b2n (nbit be 3)) * 0xFF000000)

/-- The enabled bytes of a written word over an old one. -/
def mergeBytes (old v : Word) (be : Nat) : Word := (old &&& ~~~beMask be) ||| (v &&& beMask be)

/-- A field's bits of a register. -/
def RegField.mask (f : RegField) : Word := setFld 0#32 f.hi f.lo (2 ^ (f.hi - f.lo + 1) - 1)

/-- A value of a field moved to the nearer limit of its range (R602). -/
def RegField.clamp (f : RegField) (n : Nat) : Nat := match f.lim with
  | some (lo, hi) => clampNat lo hi n
  | none => n

/-- The field takes a write as RW: it is RW, or RWL and not locked (R10, R471). -/
def RegField.open_ (f : RegField) (locked : Bool) : Bool :=
  decide (f.acc = .rw) || (decide (f.acc = .rwl) && !locked)

/-- One field of the effective word of a write: the new value of an RW field, the written bits of a W1C, W1S or WO field, zero for
a field that is read only now (R10, R468). DESIGN CHOICE: a written word is cut to the field before the value is moved into its
range (R602): to JUMP_THRESH, whose field is [29:0], a word of 2,000,000,000 writes what its low 30 bits hold (R53). -/
def RegField.effect (f : RegField) (locked : Bool) (old v : Word) (be : Nat) : Nat :=
  match f.acc with
  | .rw | .rwl =>
    if f.open_ locked && decide (f.mask &&& beMask be ≠ 0) then f.clamp (fld (mergeBytes old v be) f.hi f.lo)
    else fld old f.hi f.lo
  | .w1c | .w1s | .wo => fld (v &&& beMask be) f.hi f.lo
  | .ro => 0

/-- The effective word of a write: what each writable field is written with. -/
def RegRow.effect (r : RegRow) (locked : Bool) (old v : Word) (be : Nat) : Word :=
  r.fields.foldl (fun w f => setFld w f.hi f.lo (f.effect locked old v be)) 0#32

/-- The W1C bits of a register. -/
def RegRow.w1c (r : RegRow) : Word := r.fields.foldl (fun w f => if f.acc = .w1c then w ||| f.mask else w) 0#32

/-- One field as it is stored after a write of an effective word. -/
def RegField.after (f : RegField) (old w : Word) : Nat :=
  match f.acc with
  | .rw | .rwl => fld w f.hi f.lo
  | .w1c => fld (old &&& ~~~w) f.hi f.lo
  | .w1s => fld (old ||| w) f.hi f.lo
  | .wo => 0
  | .ro => fld old f.hi f.lo

/-- The register after a write of an effective word. -/
def RegRow.after (r : RegRow) (old w : Word) : Word :=
  r.fields.foldl (fun a f => setFld a f.hi f.lo (f.after old w)) 0#32

/-- Ranges that a page table does not carry (R602): the least BLANK_DIST is its default (R103), DET_THRESH is signed (FACET
page), SHP_IDX.INDEX names a tenant, a tenant and service or a Trowel port by its LEVEL (TROWEL page). -/
def rangeOf (page off : Nat) (w : Word) : Word :=
  if Pg.RFS ≤ page ∧ page < Pg.RFS + 3 ∧ off = Reg.RF_BLANK_DIST then w32 (max (regReset page off).toNat w.toNat)
  else if Pg.FACET ≤ page ∧ page < Pg.FACET + 3 ∧ off = Reg.FACET_DET_THRESH then
    let n := signed 8 w.toNat
    w32 (unsignedOf 8 (max (-32) (min 31 n)))
  else if page = Pg.TROWEL ∧ off = Reg.TROWEL_SHP_IDX then
    let top := if fld w 17 16 = 0 then 1023 else if fld w 17 16 = 1 then 8191 else 15
    setFld w 12 0 (min top (fld w 12 0))
  else w

/-- The owner ID of a requester; the chain port and JTAG have none (R411, R504). -/
def ownerId : Requester → Option Nat
  | .hostA => some 1
  | .hostB => some 2
  | .core x => some (x.num + 2)
  | .chain | .jtag => none

/-- The address by which a requester reaches a register of a page: the cores' own addresses, the commons range of BAR0, the
paired window (R474 to R476). -/
def regAddr (r : Requester) (page off : Nat) : Nat :=
  match r with
  | .core _ => if page < 64 then 0x800000 + 4096 * page + off else 0x400000 + 4096 * (page - 64) + off
  | _ => if page < 64 then 4096 * page + off else 0x80000 + 4096 * (page - 64) + off

/-- The page and offset of a core's address, if it is one of R476. -/
def coreAddr (a : Nat) : Option (Nat × Nat) :=
  if 0x400000 ≤ a ∧ a < 0x420000 then some (64 + (a - 0x400000) / 4096, a % 4096)
  else if 0x800000 ≤ a ∧ a < 0x840000 then some ((a - 0x800000) / 4096, a % 4096)
  else none

/-- A side-local field: those of the side's PMBus page (R22). -/
def sideLocal (page : Nat) : Bool := decide (page = Pg.SPMB)

end Sys2Proof.Machine
end

