-- ==== Sys2Proof/Machine/Flags.lean ====
section
/-! DEFINITION. The flags of a page when software writes them: sticky errors and their first-error record, masks, counters and peaks (R122,
R443 to R447). -/

namespace Sys2Proof.Machine

open Sys2Proof

/-- W1C to ERR_STICKY: a record that is left with no unmasked bit is emptied (R446). -/
def clearSticky (t : Tab Word) (page : Nat) (w : Word) : Tab Word :=
  let t1 := wr t page Reg.HDR_ERR_STICKY (rd t page Reg.HDR_ERR_STICKY &&& ~~~w)
  if errPending t1 page then t1 else wr (wr t1 page Reg.HDR_ERR_FIRST 0) page Reg.HDR_ERR_LT 0

/-- The code of an ERR_STICKY bit of a page (R443, table "Bezel error codes"). -/
def errCode (page bit lastCause : Nat) : Nat := if page = Pg.BEZEL then (if bit = 0 then lastCause else bit + 4) else bit + 1

/-- W1C to ERR_STICKY of a commons page. What hardware set in this cycle stays set; if that is all that stays unmasked, it is
recorded anew with the LT of this cycle (R11, R446). -/
def Commons.clearSticky (c : Commons) (page lastCause : Nat) (w : Word) : Commons :=
  let sticky := rd c.regs page Reg.HDR_ERR_STICKY
  let unmasked := ~~~rd c.regs page Reg.HDR_ERR_MASK
  let c1 := c.updR fun t => Machine.clearSticky t page (c.clears page Reg.HDR_ERR_STICKY w)
  if sticky &&& ~~~w &&& unmasked &&& ~~~c.freshBits page newSticky ≠ 0 then c1
  else match bitsBelow (c.freshBits page Reg.HDR_ERR_STICKY &&& unmasked).toNat 32 with
    | [] => c1
    | b :: _ => c1.updR fun t => wr (wr t page Reg.HDR_ERR_FIRST (w32 (Machine.errCode page b lastCause))) page Reg.HDR_ERR_LT (w32 c.lt)

/-- A write to ERR_MASK: a set bit that it unmasks is recorded if nothing is (R447, R445). -/
def writeErrMask (t : Tab Word) (page lastCause lt : Nat) (w : Word) : Tab Word :=
  let fresh := (rd t page Reg.HDR_ERR_STICKY &&& rd t page Reg.HDR_ERR_MASK &&& ~~~w).toNat
  let t1 := wr t page Reg.HDR_ERR_MASK w
  match bitsBelow fresh 32 with
  | [] => t1
  | b :: _ =>
    if rd t page Reg.HDR_ERR_FIRST = 0 then
      wr (wr t1 page Reg.HDR_ERR_FIRST (w32 (errCode page b lastCause))) page Reg.HDR_ERR_LT (w32 lt)
    else t1

/-- CNT_CLR of a page and its counters' first and last offset. -/
def counterMap : List (Nat × Nat × Nat × Nat) :=
  [(Pg.RFS, Reg.RF_CNT_CLR, Reg.RF_LAUNCHED, Reg.RF_ADC_CLIP), (Pg.RFM, Reg.RF_CNT_CLR, Reg.RF_LAUNCHED, Reg.RF_ADC_CLIP),
   (Pg.RFH, Reg.RF_CNT_CLR, Reg.RF_LAUNCHED, Reg.RF_ADC_CLIP),
   (Pg.FACET, Reg.FACET_CNT_CLR, Reg.FACET_DETECT, Reg.FACET_CHSEL_FULL),
   (Pg.FACET + 1, Reg.FACET_CNT_CLR, Reg.FACET_DETECT, Reg.FACET_CHSEL_FULL),
   (Pg.FACET + 2, Reg.FACET_CNT_CLR, Reg.FACET_DETECT, Reg.FACET_CHSEL_FULL),
   (Pg.AIR, Reg.AIR_CNT_CLR, Reg.AIR_RX_ACCEPT, Reg.AIR_FILT_MHR), (Pg.IBE, Reg.IBE_CNT_CLR, Reg.IBE_SYM_SRC, Reg.IBE_REQ_ENDED),
   (Pg.SEM, Reg.SEM_CNT_CLR, Reg.SEM_ACQ_OK, Reg.SEM_NOT_OWNER), (Pg.CLASP, Reg.CLASP_CNT_CLR, Reg.CLASP_GRANTS, Reg.CLASP_DRILL_SKIP),
   (Pg.BEZEL, Reg.BEZEL_CNT_CLR, Reg.BEZEL_MISMATCH, Reg.BEZEL_PATH_FAULT), (Pg.CEVT, Reg.CEVT_CNT_CLR, Reg.CEVT_MSG_A, Reg.CEVT_MOD_DEFER),
   (Pg.HOSTA, Reg.HOST_CNT_CLR, Reg.HOST_WR_TLP, Reg.HOST_ITEM_DISCARD), (Pg.HOSTB, Reg.HOST_CNT_CLR, Reg.HOST_WR_TLP, Reg.HOST_ITEM_DISCARD),
   (Pg.CHAIN, Reg.CHAIN_CNT_CLR, Reg.CHAIN_FRAMES, Reg.CHAIN_BUSY), (Pg.WAKE, Reg.WAKE_CNT_CLR, Reg.WAKE_I2C_MATCH, Reg.WAKE_WAKE_ABORTS)] ++
  [(Pg.PD, Reg.PD_CNT_CLR, Reg.PD_REQ_OK, Reg.PD_RET_LOST_CNT), (Pg.PMB, Reg.PMB_CNT_CLR, Reg.PMB_REQUESTS, Reg.PMB_ALERTS),
   (Pg.CLK, Reg.CLK_CNT_CLR, Reg.CLK_PLL_UNLOCK, Reg.CLK_REFCLK_LOSS), (Pg.RST, Reg.RST_CNT_CLR, Reg.RST_WARM_RESETS, Reg.RST_HBOOT_REJ),
   (Pg.ETH0, Reg.ETH_CNT_CLR, Reg.ETH_RX_OK, Reg.ETH_TX_LINKDOWN), (Pg.ETH1, Reg.ETH_CNT_CLR, Reg.ETH_RX_OK, Reg.ETH_TX_LINKDOWN),
   (Pg.ERR, Reg.ERR_CNT_CLR, Reg.ERR_ECC_CORR_A, Reg.ERR_STALLS)] ++
  [(Pg.DISP, Reg.DISP_CNT_CLR, Reg.DISP_TIMEOUTS, Reg.DISP_OP_FAIL), (Pg.STRAND, Reg.STRAND_CNT_CLR, Reg.STRAND_PUSHED, Reg.STRAND_BAD_DESC),
   (Pg.SEVT, Reg.SEVT_CNT_CLR, Reg.SEVT_SIGNALS, Reg.SEVT_IRQ_RISES), (Pg.DML, Reg.DML_CNT_CLR, Reg.DML_RX_OK, Reg.DML_TX_NOID),
   (Pg.SKIM, Reg.SKIM_CNT_CLR, Reg.SKIM_LOOKUP, Reg.SKIM_HEARD), (Pg.NODE, Reg.NODE_CNT_CLR, Reg.NODE_LOOKUP, Reg.NODE_CMD_FAIL),
   (Pg.PCAM, Reg.PCAM_CNT_CLR, Reg.PCAM_LOOKUP, Reg.PCAM_FULL), (Pg.SANDER, Reg.SANDER_CNT_CLR, Reg.SANDER_VISITED, Reg.SANDER_KEPT_STATIC),
   (Pg.LOWPAN, Reg.LOWPAN_CNT_CLR, Reg.LOWPAN_DECOMP, Reg.LOWPAN_FRAG_TX),
   (Pg.LOCKET, Reg.LOCKET_CNT_CLR, Reg.LOCKET_UNWRAP_FAIL, Reg.LOCKET_ZEROIZE), (Pg.FILIG, Reg.FILIG_CNT_CLR, Reg.FILIG_REQ, Reg.FILIG_CMD_FAIL),
   (Pg.SEC, Reg.SEC_CNT_CLR, Reg.SEC_RX_OK, Reg.SEC_TAMPERED), (Pg.HALL, Reg.HALL_CNT_CLR, Reg.HALL_UPD_OK, Reg.HALL_UPD_REPLAY),
   (Pg.PEND, Reg.PEND_CNT_CLR, Reg.PEND_PARKED, Reg.PEND_NODE_DRIFT), (Pg.TROWEL, Reg.TROWEL_CNT_CLR, Reg.TROWEL_ENQ, Reg.TROWEL_REDIRECT),
   (Pg.GATE, Reg.GATE_CNT_CLR, Reg.GATE_SWAPS, Reg.GATE_SWAPS), (Pg.MRAM, Reg.MRAM_CNT_CLR, Reg.MRAM_WR_WORDS, Reg.MRAM_CMD_FAIL),
   (Pg.SPMB, Reg.PMB_CNT_CLR, Reg.PMB_REQUESTS, Reg.PMB_ALERTS)]

/-- The offset of a page's CNT_CLR, 0 where the page has none. -/
def cntClrOff (page : Nat) : Nat := match counterMap.find? fun e => decide (e.1 = page) with
  | some (_, clr, _, _) => clr
  | none => 0

/-- The registers of a page from one offset to another at 0, those of every index; of one index only if it is given. -/
def clearRange (t : Tab Word) (page lo hi : Nat) (only : Option Nat) : Tab Word :=
  t.filter fun e =>
    !(decide (e.1 / 4096 % 128 = page ∧ lo ≤ e.1 % 4096 ∧ e.1 % 4096 ≤ hi) &&
      (match only with
       | some i => decide (e.1 / 4096 / 128 = i)
       | none => true))

/-- The counters of a page cleared. -/
def clearCounters (t : Tab Word) (page : Nat) (only : Option Nat) : Tab Word :=
  match counterMap.find? fun e => decide (e.1 = page) with
  | some (_, _, lo, hi) => clearRange t page lo hi only
  | none => t

end Sys2Proof.Machine
end

