-- ==== Sys2Proof/Machine/Crc.lean ====
section
/-! DEFINITION. Checksums: CRC-32C (R601), CRC-8 of the management chain (R499), and the frame check sequences of
IEEE 802.15.4 for the acknowledgements the part builds (R171). -/

namespace Sys2Proof.Machine

open Sys2Proof

/-- `k` shifts of a reflected CRC register. -/
def crcShift (poly : Nat) : Nat → Nat → Nat
  | 0, r => r
  | k + 1, r => crcShift poly k (if r % 2 = 1 then (r / 2) ^^^ poly else r / 2)

/-- A reflected CRC register after the bytes. -/
def crcReflected (poly : Nat) (r : Nat) (bs : List Byte) : Nat :=
  bs.foldl (fun r b => crcShift poly 8 (r ^^^ b.toNat)) r

/-- CRC-32C of R601 with an initial value. -/
def crc32cFrom (init : Nat) (bs : List Byte) : Nat := crcReflected 0x82F63B78 init bs ^^^ 0xFFFFFFFF

/-- CRC-32C of R601. -/
def crc32c (bs : List Byte) : Nat := crc32cFrom 0xFFFFFFFF bs

/-- `k` shifts of the CRC-8 register of R499, most significant bit first. -/
def crc8Shift : Nat → Nat → Nat
  | 0, r => r
  | k + 1, r => crc8Shift k (if 128 ≤ r then ((r * 2) ^^^ 0x07) % 256 else r * 2)

/-- CRC-8 with polynomial 0x07, initial value 0, no reflection, no final XOR (R499). -/
def crc8 (bs : List Byte) : Nat := bs.foldl (fun r b => crc8Shift 8 (r ^^^ b.toNat)) 0

/-- The 2-octet FCS of IEEE 802.15.4. PRESUMED: the standard's CRC. -/
def fcs16 (bs : List Byte) : List Byte := leBytes 2 (crcReflected 0x8408 0 bs)

/-- The 4-octet FCS of IEEE 802.15.4. PRESUMED: the standard's CRC, short frames padded to 4 octets. -/
def fcs32 (bs : List Byte) : List Byte :=
  let padded := if bs.length < 4 then bs ++ List.replicate (4 - bs.length) 0 else bs
  leBytes 4 (crcReflected 0xEDB88320 0xFFFFFFFF padded ^^^ 0xFFFFFFFF)

end Sys2Proof.Machine
end

