-- ==== Sys2Proof/Machine/Mac.lean ====
section
/-! DEFINITION. The MAC header of IEEE 802.15.4 as the filter and the sides read it (R160, R284). PRESUMED: the octet
layout is the standard's, which the spec names and does not repeat. -/

namespace Sys2Proof.Machine

open Sys2Proof

/-- An auxiliary security header: level, key identifier mode, frame counter unless suppressed, key source and key
index. -/
structure AuxSec where
  level : Nat
  keyMode : Nat
  fc : Option Nat
  asn : Bool
  keySrc : List Byte
  keyIdx : Nat
  deriving DecidableEq, Repr

/-- A parsed MAC header. Address modes are 0 none, 2 short, 3 extended. -/
structure Mhr where
  ftype : Nat
  sec : Bool
  framePending : Bool
  ar : Bool
  version : Nat
  seqSup : Bool
  seq : Nat
  iePresent : Bool
  dstPan : Option Nat
  dstMode : Nat
  dst : Nat
  srcPan : Option Nat
  srcMode : Nat
  src : Nat
  aux : Option AuxSec
  ies : List (Nat × List Byte)   -- header IEs: element ID and content
  auxOff : Nat                   -- place of the auxiliary security header
  len : Nat                      -- octets of the whole header
  deriving DecidableEq, Repr

/-- Octets of an address of a mode. -/
def addrLen (mode : Nat) : Nat := if mode = 2 then 2 else if mode = 3 then 8 else 0

/-- An address as it stands in a header: a short one low octet first; an extended one is the number whose most
significant octet is the first on the air (R226, R378). -/
def addrAt (bs : List Byte) (off mode : Nat) : Nat :=
  if mode = 3 then beNat (slice bs off 8) else leAt bs off (addrLen mode)

/-- The octets of an address of a mode, as `addrAt` reads them. -/
def addrBytes (mode a : Nat) : List Byte := if mode = 3 then beBytes 8 a else leBytes (addrLen mode) a

/-- Which PAN IDs a header carries: destination, source. -/
def panIds (version dstMode srcMode : Nat) (comp : Bool) : Bool × Bool :=
  if version ≤ 1 then (decide (dstMode ≠ 0), decide (srcMode ≠ 0) && !(comp && decide (dstMode ≠ 0)))
  else if dstMode = 0 ∧ srcMode = 0 then (comp, false)
  else if srcMode = 0 then (!comp, false)
  else if dstMode = 0 then (false, !comp)
  else if dstMode = 3 ∧ srcMode = 3 then (!comp, false)
  else (true, !comp)

/-- The auxiliary security header at a place, with its length. -/
def parseAux (bs : List Byte) (off : Nat) : Option (AuxSec × Nat) :=
  if bs.length ≤ off then none
  else
    let sc := byteAt bs off
    let fcLen := if nbit sc 5 then 0 else 4
    let km := (sc / 8) % 4
    let srcLen := if km = 2 then 4 else if km = 3 then 8 else 0
    let idxLen := if km = 0 then 0 else 1
    let n := 1 + fcLen + srcLen + idxLen
    if bs.length < off + n then none
    else some ({ level := sc % 8, keyMode := km,
                 fc := if fcLen = 0 then none else some (leAt bs (off + 1) 4),
                 asn := nbit sc 6, keySrc := slice bs (off + 1 + fcLen) srcLen,
                 keyIdx := if idxLen = 0 then 0 else byteAt bs (off + 1 + fcLen + srcLen) }, n)

/-- The header IEs from a place, with the place after them: a termination IE, or the end of the octets, ends the
list. -/
def parseIes (bs : List Byte) : Nat → Nat → Option (List (Nat × List Byte) × Nat)
  | 0, off => if bs.length ≤ off then some ([], off) else none
  | fuel + 1, off =>
    if bs.length ≤ off then some ([], off)
    else if bs.length < off + 2 then none
    else
      let d := leAt bs off 2
      let n := d % 128
      let id := (d / 128) % 256
      if nbit d 15 then none
      else if bs.length < off + 2 + n then none
      else if id = 0x7E ∨ id = 0x7F then some ([], off + 2 + n)
      else match parseIes bs fuel (off + 2 + n) with
        | some (l, e) => some ((id, slice bs (off + 2) n) :: l, e)
        | none => none

/-- The frame version of a frame control field. -/
def fcfVersion (bs : List Byte) : Nat := (leAt bs 0 2 / 4096) % 4

/-- The MAC header of the octets before the FCS, or none when its form is not valid: a reserved address mode, or
octets missing (R160 step 1). -/
def parseMhr (bs : List Byte) : Option Mhr :=
  if bs.length < 2 then none
  else
    let f := leAt bs 0 2
    let ver := (f / 4096) % 4
    let v2 := decide (ver = 2)
    let dm := (f / 1024) % 4
    let sm := (f / 16384) % 4
    let sup := v2 && nbit f 8
    let ie := v2 && nbit f 9
    let pans := panIds ver dm sm (nbit f 6)
    let o1 := if sup then 2 else 3
    let o2 := o1 + (if pans.1 then 2 else 0)
    let o3 := o2 + addrLen dm
    let o4 := o3 + (if pans.2 then 2 else 0)
    let o5 := o4 + addrLen sm
    if dm = 1 ∨ sm = 1 ∨ bs.length < o5 then none
    else
      let aux := if nbit f 3 then (parseAux bs o5).map (fun a => (some a.1, a.2)) else some (none, 0)
      match aux with
      | none => none
      | some (a, n) =>
        let ies := if ie then parseIes bs bs.length (o5 + n) else some ([], o5 + n)
        match ies with
        | none => none
        | some (l, e) => some
          { ftype := f % 8, sec := nbit f 3, framePending := nbit f 4, ar := nbit f 5, version := ver, seqSup := sup,
            seq := if sup then 0 else byteAt bs 2, iePresent := ie,
            dstPan := if pans.1 then some (leAt bs o1 2) else none, dstMode := dm, dst := addrAt bs o2 dm,
            srcPan := if pans.2 then some (leAt bs o3 2) else none, srcMode := sm, src := addrAt bs o4 sm,
            aux := a, ies := l, auxOff := o5, len := e }

/-- Octets of the FCS that a PHY_OPT byte names; code 14 has 2 (R127, R129). -/
def fcsLen (mode phyOpt : Nat) : Nat := if mode ≠ 14 ∧ nbit phyOpt 5 then 4 else 2

/-- The octets of a PSDU before its FCS. -/
def beforeFcs (psdu : List Byte) (n : Nat) : List Byte := psdu.take (psdu.length - n)

end Sys2Proof.Machine
end

