-- ==== Sys2Proof/Machine/Crypto.lean ====
section
/-! DEFINITION. The cryptographic functions that the spec names by their standards: AES-128 and AES-256 (FIPS 197),
AES-CMAC (SP 800-38B), the counter-mode KDF of R262, key wrap KW (SP 800-38F), CCM* (IEEE 802.15.4), SHA-256 and ECDSA
P-256 verification. PRESUMED: the standards' own definitions, which the spec names and does not repeat. -/

namespace Sys2Proof.Machine

open Sys2Proof

/-! ## AES -/

/-- Multiplication by x in GF(2^8). -/
def gf2 (a : Nat) : Nat := if a < 128 then 2 * a else ((2 * a) ^^^ 0x11B) % 256

/-- Multiplication in GF(2^8), over the low `k` bits of the second factor. -/
def gfMulK : Nat → Nat → Nat → Nat
  | 0, _, _ => 0
  | k + 1, a, b => (if b % 2 = 1 then a else 0) ^^^ gfMulK k (gf2 a) (b / 2)

/-- Multiplication in GF(2^8). -/
def gfMul (a b : Nat) : Nat := gfMulK 8 a b

/-- The inverse in GF(2^8), 0 of 0: the power 254. -/
def gfInv (a : Nat) : Nat :=
  let a2 := gfMul a a
  let a4 := gfMul a2 a2
  let a8 := gfMul a4 a4
  let a16 := gfMul a8 a8
  let a32 := gfMul a16 a16
  let a64 := gfMul a32 a32
  let a128 := gfMul a64 a64
  gfMul (gfMul (gfMul a2 a4) (gfMul a8 a16)) (gfMul (gfMul a32 a64) a128)

/-- An octet rotated left. -/
def rotl8 (a n : Nat) : Nat := (a * 2 ^ n) % 256 + a / 2 ^ (8 - n)

/-- The AES S-box. -/
def sbox (a : Nat) : Nat :=
  let b := gfInv a
  b ^^^ rotl8 b 1 ^^^ rotl8 b 2 ^^^ rotl8 b 3 ^^^ rotl8 b 4 ^^^ 0x63

/-- The inverse S-box. -/
def sboxInv (a : Nat) : Nat := gfInv (rotl8 a 1 ^^^ rotl8 a 3 ^^^ rotl8 a 6 ^^^ 0x05)

/-- Octet-wise exclusive or, over the shorter list. -/
def xorN : List Nat → List Nat → List Nat
  | a :: t, b :: u => (a ^^^ b) :: xorN t u
  | _, _ => []

/-- Key expansion: `fuel` further words after those already made, newest first; `nk` key words. -/
def aesExpand (nk : Nat) : Nat → Nat → Nat → List (List Nat) → List (List Nat)
  | 0, _, _, ws => ws
  | fuel + 1, i, rc, ws =>
    let prev := ws.headD []
    let back := ws.getD (nk - 1) []
    let t :=
      if i % nk = 0 then
        let s := (prev.drop 1 ++ prev.take 1).map sbox
        xorN s [rc, 0, 0, 0]
      else if 6 < nk ∧ i % nk = 4 then prev.map sbox
      else prev
    aesExpand nk fuel (i + 1) (if i % nk = 0 then gf2 rc else rc) (xorN back t :: ws)

/-- The octets of a list in groups of four. -/
def words4 : Nat → List Nat → List (List Nat)
  | 0, _ => []
  | n + 1, l => l.take 4 :: words4 n (l.drop 4)

/-- The octets of a list in groups of sixteen. -/
def blocks16 : Nat → List Nat → List (List Nat)
  | 0, _ => []
  | n + 1, l => l.take 16 :: blocks16 n (l.drop 16)

/-- The round keys of a key of 16 or 32 octets. -/
def aesKeys (key : List Nat) : List (List Nat) :=
  let nk := key.length / 4
  let total := 4 * (nk + 7)
  let ws := (aesExpand nk (total - nk) nk 1 (words4 nk key).reverse).reverse
  blocks16 (nk + 7) ws.flatten

/-- One column of MixColumns with four coefficients. -/
def mixCol (a b c d : Nat) (s : List Nat) : List Nat :=
  let x := s.getD 0 0
  let y := s.getD 1 0
  let z := s.getD 2 0
  let w := s.getD 3 0
  [gfMul x a ^^^ gfMul y b ^^^ gfMul z c ^^^ gfMul w d, gfMul x d ^^^ gfMul y a ^^^ gfMul z b ^^^ gfMul w c,
   gfMul x c ^^^ gfMul y d ^^^ gfMul z a ^^^ gfMul w b, gfMul x b ^^^ gfMul y c ^^^ gfMul z d ^^^ gfMul w a]

/-- The four columns of a state through MixColumns. -/
def mixCols (a b c d : Nat) (s : List Nat) : List Nat := ((words4 4 s).map (mixCol a b c d)).flatten

/-- The octets of a state at the places given. -/
def permute (places : List Nat) (s : List Nat) : List Nat := places.map fun i => s.getD i 0

/-- ShiftRows. -/
def shiftRows : List Nat → List Nat := permute [0, 5, 10, 15, 4, 9, 14, 3, 8, 13, 2, 7, 12, 1, 6, 11]

/-- InvShiftRows. -/
def shiftRowsInv : List Nat → List Nat := permute [0, 13, 10, 7, 4, 1, 14, 11, 8, 5, 2, 15, 12, 9, 6, 3]

/-- Rounds after the first AddRoundKey. -/
def aesRounds : List (List Nat) → List Nat → List Nat
  | [], s => s
  | [k], s => xorN (shiftRows (s.map sbox)) k
  | k :: ks, s => aesRounds ks (xorN (mixCols 2 3 1 1 (shiftRows (s.map sbox))) k)

/-- Inverse rounds, the round keys in reverse order. -/
def aesRoundsInv : List (List Nat) → List Nat → List Nat
  | [], s => s
  | [k], s => xorN ((shiftRowsInv s).map sboxInv) k
  | k :: ks, s => aesRoundsInv ks (mixCols 14 11 13 9 (xorN ((shiftRowsInv s).map sboxInv) k))

/-- One block encrypted. -/
def aesEncN (key b : List Nat) : List Nat :=
  match aesKeys key with
  | [] => b
  | k :: ks => aesRounds ks (xorN b k)

/-- One block decrypted. -/
def aesDecN (key b : List Nat) : List Nat :=
  match (aesKeys key).reverse with
  | [] => b
  | k :: ks => aesRoundsInv ks (xorN b k)

/-- Octets as numbers. -/
def nats (bs : List Byte) : List Nat := bs.map fun b => b.toNat

/-- Numbers as octets. -/
def octets (l : List Nat) : List Byte := l.map b8

/-- One block encrypted under a key of 16 or 32 octets. -/
def aesEnc (key b : List Byte) : List Byte := octets (aesEncN (nats key) (nats b))

/-- One block decrypted. -/
def aesDec (key b : List Byte) : List Byte := octets (aesDecN (nats key) (nats b))

/-- Octet-wise exclusive or. -/
def xorB (a b : List Byte) : List Byte := List.zipWith (· ^^^ ·) a b

/-! ## CMAC and the KDF -/

/-- Zero octets. -/
def zeros (n : Nat) : List Byte := List.replicate n 0

/-- A list cut in pieces of `k` octets, the last one possibly shorter. -/
def pieces (k : Nat) : Nat → List Byte → List (List Byte)
  | 0, _ => []
  | fuel + 1, l => if l.isEmpty then [] else l.take k :: pieces k fuel (l.drop k)

/-- Doubling of a 128-bit block for the CMAC subkeys. -/
def cmacDouble (b : List Byte) : List Byte :=
  let n := beNat b
  let d := (2 * n) % 2 ^ 128
  beBytes 16 (if 2 ^ 127 ≤ n then d ^^^ 0x87 else d)

/-- AES-CMAC. -/
def cmac (key m : List Byte) : List Byte :=
  let k1 := cmacDouble (aesEnc key (zeros 16))
  let k2 := cmacDouble k1
  let ps := pieces 16 m.length m
  let last := ps.getLast?.getD []
  let lastBlock := if last.length = 16 then xorB last k1 else xorB (last ++ [0x80#8] ++ zeros (15 - last.length)) k2
  aesEnc key (xorB (ps.dropLast.foldl (fun x p => aesEnc key (xorB x p)) (zeros 16)) lastBlock)

/-- The KDF of R262: L bits under a parent key. -/
def kdf (parent label context : List Byte) (bits : Nat) : List Byte :=
  let n := ceilDiv bits 128
  (((List.range n).map fun i =>
    cmac parent ([b8 (i + 1)] ++ label ++ [0#8] ++ context ++ beBytes 2 bits)).flatten).take (bits / 8)

/-! ## Key wrap -/

/-- The steps of KW over semiblocks: `t` counts from 1. -/
def kwWrapSteps (key : List Byte) (n : Nat) : Nat → Nat → List Byte → List (List Byte) → List Byte × List (List Byte)
  | 0, _, a, r => (a, r)
  | fuel + 1, t, a, r =>
    let i := (t - 1) % n
    let b := aesEnc key (a ++ r.getD i [])
    kwWrapSteps key n fuel (t + 1) (xorB (b.take 8) (beBytes 8 t)) (r.set i (b.drop 8))

/-- KW of a text of at least two semiblocks. -/
def kwWrap (key p : List Byte) : List Byte :=
  let n := p.length / 8
  let res := kwWrapSteps key n (6 * n) 1 (List.replicate 8 0xA6#8) (pieces 8 p.length p)
  res.1 ++ res.2.flatten

/-- The inverse steps of KW. -/
def kwUnwrapSteps (key : List Byte) (n : Nat) : Nat → List Byte → List (List Byte) → List Byte × List (List Byte)
  | 0, a, r => (a, r)
  | t + 1, a, r =>
    let i := t % n
    let b := aesDec key (xorB a (beBytes 8 (t + 1)) ++ r.getD i [])
    kwUnwrapSteps key n t (b.take 8) (r.set i (b.drop 8))

/-- The text of a wrapped one, or none when its integrity check fails. -/
def kwUnwrap (key c : List Byte) : Option (List Byte) :=
  if c.length % 8 ≠ 0 ∨ c.length < 24 then none
  else
    let n := c.length / 8 - 1
    let res := kwUnwrapSteps key n (6 * n) (c.take 8) (pieces 8 c.length (c.drop 8))
    if res.1 = List.replicate 8 0xA6#8 then some res.2.flatten else none

/-! ## CCM* -/

/-- A list filled with zero octets to a multiple of 16. -/
def pad16 (l : List Byte) : List Byte := l ++ zeros ((16 - l.length % 16) % 16)

/-- The CBC-MAC over the blocks of CCM*: nonce of 13 octets, MIC length, authenticated data, message. -/
def ccmTag (key nonce a m : List Byte) (mic : Nat) : List Byte :=
  let flags := (if a.isEmpty then 0 else 64) + (if mic = 0 then 0 else (mic - 2) / 2 * 8) + 1
  let b0 := [b8 flags] ++ nonce ++ beBytes 2 m.length
  let aBlocks := if a.isEmpty then [] else pad16 (beBytes 2 a.length ++ a)
  let all := b0 ++ aBlocks ++ pad16 m
  (pieces 16 all.length all).foldl (fun x p => aesEnc key (xorB x p)) (zeros 16)

/-- The keystream block of a counter. -/
def ccmStream (key nonce : List Byte) (i : Nat) : List Byte := aesEnc key ([1#8] ++ nonce ++ beBytes 2 i)

/-- The message encrypted or decrypted. -/
def ccmCrypt (key nonce m : List Byte) : List Byte :=
  ((pieces 16 m.length m).mapIdx fun i p => xorB p (ccmStream key nonce (i + 1))).flatten

/-- The MIC as sent. -/
def ccmMic (key nonce a m : List Byte) (mic : Nat) : List Byte :=
  (xorB (ccmTag key nonce a m mic) (ccmStream key nonce 0)).take mic

/-! ## SHA-256 -/

/-- The round constants. -/
def shaK : List Nat :=
  [0x428A2F98, 0x71374491, 0xB5C0FBCF, 0xE9B5DBA5, 0x3956C25B, 0x59F111F1, 0x923F82A4, 0xAB1C5ED5] ++
  [0xD807AA98, 0x12835B01, 0x243185BE, 0x550C7DC3, 0x72BE5D74, 0x80DEB1FE, 0x9BDC06A7, 0xC19BF174] ++
  [0xE49B69C1, 0xEFBE4786, 0x0FC19DC6, 0x240CA1CC, 0x2DE92C6F, 0x4A7484AA, 0x5CB0A9DC, 0x76F988DA] ++
  [0x983E5152, 0xA831C66D, 0xB00327C8, 0xBF597FC7, 0xC6E00BF3, 0xD5A79147, 0x06CA6351, 0x14292967] ++
  [0x27B70A85, 0x2E1B2138, 0x4D2C6DFC, 0x53380D13, 0x650A7354, 0x766A0ABB, 0x81C2C92E, 0x92722C85] ++
  [0xA2BFE8A1, 0xA81A664B, 0xC24B8B70, 0xC76C51A3, 0xD192E819, 0xD6990624, 0xF40E3585, 0x106AA070] ++
  [0x19A4C116, 0x1E376C08, 0x2748774C, 0x34B0BCB5, 0x391C0CB3, 0x4ED8AA4A, 0x5B9CCA4F, 0x682E6FF3] ++
  [0x748F82EE, 0x78A5636F, 0x84C87814, 0x8CC70208, 0x90BEFFFA, 0xA4506CEB, 0xBEF9A3F7, 0xC67178F2]

/-- A 32-bit word rotated right. -/
def rotr32 (x n : Nat) : Nat := x / 2 ^ n + (x % 2 ^ n) * 2 ^ (32 - n)

/-- The message schedule, newest first, extended by `fuel` words. -/
def shaSched : Nat → List Nat → List Nat
  | 0, w => w
  | fuel + 1, w =>
    let a := w.getD 14 0
    let b := w.getD 1 0
    let s0 := rotr32 a 7 ^^^ rotr32 a 18 ^^^ (a / 8)
    let s1 := rotr32 b 17 ^^^ rotr32 b 19 ^^^ (b / 1024)
    shaSched fuel (((w.getD 15 0 + s0 + w.getD 6 0 + s1) % 2 ^ 32) :: w)

/-- One round on the eight working variables. -/
def shaRound (v : List Nat) (kw : Nat × Nat) : List Nat :=
  let a := v.getD 0 0
  let b := v.getD 1 0
  let c := v.getD 2 0
  let e := v.getD 4 0
  let f := v.getD 5 0
  let g := v.getD 6 0
  let s1 := rotr32 e 6 ^^^ rotr32 e 11 ^^^ rotr32 e 25
  let ch := (e &&& f) ^^^ ((2 ^ 32 - 1 - e) &&& g)
  let t1 := v.getD 7 0 + s1 + ch + kw.1 + kw.2
  let s0 := rotr32 a 2 ^^^ rotr32 a 13 ^^^ rotr32 a 22
  let maj := (a &&& b) ^^^ (a &&& c) ^^^ (b &&& c)
  [(t1 + s0 + maj) % 2 ^ 32, a, b, c, (v.getD 3 0 + t1) % 2 ^ 32, e, f, g]

/-- One block of 64 octets. -/
def shaBlock (h : List Nat) (blk : List Byte) : List Nat :=
  let w := (shaSched 48 ((pieces 4 64 blk).map beNat).reverse).reverse
  List.zipWith (fun a b => (a + b) % 2 ^ 32) h ((shaK.zip w).foldl shaRound h)

/-- SHA-256. -/
def sha256 (m : List Byte) : List Byte :=
  let padded := m ++ [0x80#8] ++ zeros ((64 - (m.length + 9) % 64) % 64) ++ beBytes 8 (8 * m.length)
  let h0 := [0x6A09E667, 0xBB67AE85, 0x3C6EF372, 0xA54FF53A, 0x510E527F, 0x9B05688C, 0x1F83D9AB, 0x5BE0CD19]
  ((((pieces 64 padded.length padded).foldl shaBlock h0).map (beBytes 4))).flatten

/-! ## ECDSA P-256 -/

/-- The field prime. -/
def p256P : Nat := 0xFFFFFFFF00000001000000000000000000000000FFFFFFFFFFFFFFFFFFFFFFFF
/-- The group order. -/
def p256N : Nat := 0xFFFFFFFF00000000FFFFFFFFFFFFFFFFBCE6FAADA7179E84F3B9CAC2FC632551
/-- The curve's coefficient b. -/
def p256B : Nat := 0x5AC635D8AA3A93E7B3EBBD55769886BC651D06B0CC53B0F63BCE3C3E27D2604B
/-- The base point. -/
def p256G : Nat × Nat :=
  (0x6B17D1F2E12C4247F8BCE6E563A440F277037D812DEB33A0F4A13945D898C296,
   0x4FE342E2FE1A7F9B8EE7EB4A7C0F9E162BCE33576B315ECECBB6406837BF51F5)

/-- A power modulo m, over the low `k` bits of the exponent. -/
def powMod (m : Nat) : Nat → Nat → Nat → Nat
  | 0, _, _ => 1 % m
  | k + 1, b, e => ((if e % 2 = 1 then b else 1) * powMod m k (b * b % m) (e / 2)) % m

/-- The inverse modulo a prime. -/
def invMod (m a : Nat) : Nat := powMod m 256 (a % m) (m - 2)

/-- A point with a slope, as the third point of its line reflected. -/
def p256Line (l : Nat) (a : Nat × Nat) (x2 : Nat) : Nat × Nat :=
  let x := (l * l + 2 * p256P - a.1 - x2) % p256P
  (x, (l * (a.1 + p256P - x) + p256P - a.2) % p256P)

/-- The sum of two points; none is the point at infinity. -/
def p256Add : Option (Nat × Nat) → Option (Nat × Nat) → Option (Nat × Nat)
  | none, q => q
  | p, none => p
  | some a, some b =>
    if a.1 = b.1 then
      if (a.2 + b.2) % p256P = 0 then none
      else some (p256Line ((3 * a.1 * a.1 + p256P - 3) * invMod p256P (2 * a.2) % p256P) a b.1)
    else some (p256Line ((b.2 + p256P - a.2) * invMod p256P (b.1 + p256P - a.1) % p256P) a b.1)

/-- A multiple of a point, over the low `k` bits of the factor. -/
def p256Mul : Nat → Nat → Option (Nat × Nat) → Option (Nat × Nat)
  | 0, _, _ => none
  | k + 1, e, q => p256Add (if e % 2 = 1 then q else none) (p256Mul k (e / 2) (p256Add q q))

/-- The signature r then s verifies under the public key X then Y over the digest of the message. -/
def ecdsaOk (pub sig m : List Byte) : Bool :=
  let x := beNat (pub.take 32)
  let y := beNat (slice pub 32 32)
  let r := beNat (sig.take 32)
  let s := beNat (slice sig 32 32)
  let z := beNat (sha256 m)
  decide (x < p256P) && decide (y < p256P) &&
  decide ((y * y) % p256P = (x * x * x + (p256P - 3) * x + p256B) % p256P) &&
  decide (1 ≤ r) && decide (r < p256N) && decide (1 ≤ s) && decide (s < p256N) &&
  (let w := invMod p256N s
   match p256Add (p256Mul 256 (z * w % p256N) (some p256G)) (p256Mul 256 (r * w % p256N) (some (x, y))) with
   | some q => decide (q.1 % p256N = r)
   | none => false)

end Sys2Proof.Machine
end

