-- ==== Sys2Proof/Machine/Lockstep.lean ====
section
/-! DEFINITION. Clasp's moves of the lease, the mismatch and the hold, the refill that fails, and the skew between the
sides (R23, R414, R418 to R437). -/

namespace Sys2Proof.Machine

open Sys2Proof

/-! ## Clasp and Bezel changed -/

/-- Bezel changed. -/
def State.updZ (s : State) (f : BezelState → BezelState) : State := s.updC fun c => { c with bezel := f c.bezel }

/-- Clasp changed. -/
def State.updK (s : State) (f : ClaspState → ClaspState) : State := s.updC fun c => { c with clasp := f c.clasp }

/-- A counter of a commons page advanced. -/
def State.bumpC (s : State) (page off : Nat) : State := s.updR fun t => bump t page off

/-- An event bit of a commons page set. -/
def State.event (s : State) (page bit : Nat) : State := s.updC fun c => c.event page bit

/-- An error of a commons page with its code (R441 to R445). -/
def State.errCode (s : State) (page bit code : Nat) : State := s.updC fun c => c.errCode page bit code

/-- Both sides are compared. -/
def BezelState.compares (z : BezelState) : Bool := decide (z.stA = .compared) && decide (z.stB = .compared)

/-- A refill is in progress: one that failed and waits for its retry is not (R434). -/
def BezelState.refilling (z : BezelState) : Bool := match z.refill with
  | some r => decide (r.phase ≠ 0)
  | none => false

/-- A firmware update is in progress: it has passed its checks and is neither DONE nor FAILED (R361). -/
def Side.updating (d : Side) : Bool := decide (1 ≤ d.fw.phase ∧ d.fw.phase ≤ 5)

/-- An update is in progress in a side that takes part. -/
def updating (s : State) : Bool :=
  (s.c.bezel.receives .a && s.a.updating) || (s.c.bezel.receives .b && s.b.updating)

/-- LEASE_TO in ns (CLASP.CFG). -/
def leaseNs (c : Commons) : Nat := 1000000 * (clampNat 1 50 (rf c.regs Pg.CLASP Reg.CLASP_CFG 5 0))

/-- GRANT_WAIT in ns. -/
def grantWaitNs (c : Commons) : Nat := 1000000 * (rf c.regs Pg.CLASP Reg.CLASP_CFG 23 16)

/-- The holder that a number names. -/
def SideId.ofNum : Nat → Option SideId
  | 1 => some .a
  | 2 => some .b
  | _ => none

/-! ## Moves of the lease (R414, R418, R419, R423) -/

/-- Every semaphore that a side owns takes the ID of the new holder (R414). -/
def moveSems (t : Tab Word) (owner : Nat) : Tab Word :=
  (List.range 64).foldl (fun t n =>
    let v := rd t Pg.SEM (Reg.SEM_SEM + 4 * n)
    if fld v 10 8 = 3 ∨ fld v 10 8 = 4 then wr t Pg.SEM (Reg.SEM_SEM + 4 * n) (setFld v 10 8 owner) else t) t

/-- The TOKEN after one, wrapping from 0xFFFF to 1 (R419). -/
def nextToken (t : Nat) : Nat := if t = 0xFFFF then 1 else t + 1

/-- Clasp moves the lease: the next TOKEN, EXPIRY, the semaphores, the LEASE_GRANT input or the swap marker that carries
HOLDER and TOKEN to both sides (R414, R419, R422, R423). -/
def grant (s : State) (tgt : SideId) (marker : Bool) : State :=
  let k := s.c.clasp
  let old := match k.holder with
    | some x => x.num
    | none => 0
  let tok := nextToken k.token
  let k1 := k.write { holder := tgt.num, token := tok, expiry := s.c.lt + leaseNs s.c }
  let k2 : ClaspState :=
    { k1 with grantPoint := s.c.bezel.seq + 1, prevToken := k.token, oldHolder := if marker then old else 0,
              grantDue := none }
  let s1 := ((s.updK fun _ => k2).bumpC Pg.CLASP Reg.CLASP_GRANTS).event Pg.CLASP 0
  let s2 := s1.updR fun t => moveSems t (tgt.num + 2)
  s2.sequence (.marker (if marker then .swap tgt.num tok else .leaseGrant tgt.num tok))

/-- HOLDER becomes none; TOKEN stays, so that the next grant increments it. -/
def revoke (s : State) : State :=
  s.updK fun k => { k.write { holder := 0, token := k.token, expiry := 0 } with oldHolder := 0 }

/-! ## Drills and updates that end (R362, R363, R436, R437) -/

/-- The next takeover drill after an LT: a whole multiple of DRILL_PER seconds plus DRILL_PHASE seconds (R436). -/
def nextDrill (c : Commons) (lt : Nat) : Option Nat :=
  let per := 1000000000 * ((rd c.regs Pg.CLASP Reg.CLASP_DRILL_PER).toNat)
  let ph := 1000000000 * ((rd c.regs Pg.CLASP Reg.CLASP_DRILL_PHASE).toNat)
  if per = 0 then none
  else if lt < ph then some ph
  else some (ph + ((lt - ph) / per + 1) * per)

/-- A drill in progress ends: it is counted, and a swap back that was to come is cancelled (R436, R437). -/
def endDrill (s : State) : State :=
  if s.c.clasp.drillHome.isSome then
    (s.updK fun k => { k with drillHome := none, drillEnd := none, swapTo := none }).bumpC Pg.CLASP Reg.CLASP_DRILLS
  else s

/-- An update that fails before its step 4 ends FAILED with its cause (R362). -/
def Side.failUpdate (d : Side) (cause : Nat) : Side :=
  if 1 ≤ d.fw.phase ∧ d.fw.phase ≤ 3 then { d with fw := { d.fw with phase := 7, cause := cause } } else d

/-- An update in progress in either side fails. -/
def failUpdates (s : State) (cause : Nat) : State := (s.upd .a fun d => d.failUpdate cause).upd .b fun d => d.failUpdate cause

/-! ## The commons held (R421, R427, R435) -/

/-- Both sides stop, HOLDER becomes none and the commons stay held, as after a double failure. -/
def halt (s : State) : State :=
  let s1 := (endDrill s).updZ fun z =>
    { z with dead := true, hold := none, heldA := [], heldB := [], refill := none,
             stA := if z.stA = .off then .off else .stopped, stB := if z.stB = .off then .off else .stopped }
  revoke (s1.updK fun k => { k with swapTo := none, swapOut := none })

/-- A mismatch (R427): the error record, the cause and the sequence point, the hold; both sides begin their
self-checks. For SIDE_ERR the reporting side has failed and the other has passed (R428). -/
def mismatch (s : State) (cause point : Nat) (mA mB : Option Txn) (rA rB : Option Bool) : State :=
  if s.c.bezel.hold.isSome || s.c.bezel.dead || !s.c.bezel.compares then s
  else
    let s1 := failUpdates (endDrill s) 12
    let s2 := (s1.errCode Pg.BEZEL 0 cause).bumpC Pg.BEZEL Reg.BEZEL_MISMATCH
    (s2.updK fun k => { k with swapTo := none, swapOut := none }).updZ fun z =>
      { z with
        hold := some { cause := cause, memberA := mA, memberB := mB, resA := rA, resB := rB, start := s.c.lt }
        lastCause := cause, misSeq := point - 1, stA := .selfCheck, stB := .selfCheck
        gapFrom := some s.c.lt, leadA := [], leadB := [] }

/-- A refill ends in failure: the cause, the count, the event, and the retry while attempts are left (R434). A failure
of the transfer of an update before its step 4 ends the update instead, and the side is refilled at once (R362). -/
def refillFail (s : State) (cause : Nat) : State :=
  match s.c.bezel.refill with
  | none => s
  | some r =>
    let off (r' : Option Refill) (s : State) : State :=
      (s.updZ fun z => { (z.setSt r.side .off) with refill := r' }).upd r.side fun d =>
        { d with inq := [], outq := [], reports := [] }
    if r.fwu then
      off (some { side := r.side, tries := 0, phase := 0, fwu := false, retryAt := some s.c.lt, copy := 0 })
        (failUpdates s (if cause = 2 then 3 else 12))
    else
      let cfg := rd s.c.regs Pg.BEZEL Reg.BEZEL_REFILL_CFG
      let next : Refill := { r with phase := 0, tries := r.tries + 1, retryAt := some (s.c.lt + 1000000000 * (fld cfg 7 0)) }
      let s1 := ((s.bumpC Pg.BEZEL Reg.BEZEL_REFILL_FAIL).errCode Pg.BEZEL 4 8).event Pg.BEZEL 5
      let s2 := off (if r.tries < fld cfg 11 8 then some next else none) (s1.updZ fun z => { z with refillCause := cause })
      s2.notice (.refillFail r.side cause)

/-- SIDE_ERR of a side: a mismatch while it is compared, the failure of its refill while it is refilled, the commons held
while it is alone (R427, R428, R434, R435, R450). -/
def sideError (s : State) (x : SideId) : State :=
  match s.c.bezel.hold with
  | some m => s.updZ fun z => { z with hold := some (match x with
      | .a => { m with resA := some false }
      | .b => { m with resB := some false }) }
  | none =>
    match s.c.bezel.st x with
    | .compared => match x with
      | .a => mismatch s 4 s.a.point none none (some false) (some true)
      | .b => mismatch s 4 s.b.point none none (some true) (some false)
    | .alone => failUpdates (halt s) 12
    | .refill | .boot => match s.c.bezel.refill with
      | some r => if r.side = x ∧ r.phase ≠ 0 then refillFail s 3 else s
      | none => s
    | _ => s

/-! ## Skew (R23) -/

/-- The first entry of a lead that lies beyond a point: the LT at which the next input was consumed there. -/
def leadAt (l : List (Nat × Nat)) (point : Nat) : Option Nat := (l.find? fun e => decide (point < e.1)).map (·.2)

/-- What a side that caught up with inputs consumed earlier by its twin has for skew, ns. -/
def skewOf (l : List (Nat × Nat)) (seen point lt : Nat) : Option Nat :=
  if seen < point then (leadAt l seen).map (lt - ·) else none

/-- The skew brought up to date after a command: a side that consumes what its twin has consumed before is as late as the
time between; above 20 µs it is a mismatch with cause SKEW (R23). -/
def trackSkew (s : State) : State :=
  let z := s.c.bezel
  let pa := s.a.point
  let pb := s.b.point
  if z.seenA = pa ∧ z.seenB = pb then s
  else if !z.compares then s.updZ fun z => { z with seenA := pa, seenB := pb, leadA := [], leadB := [] }
  else
    let la := if z.seenA < pa then z.leadA ++ [(pa, s.c.lt)] else z.leadA
    let lb := if z.seenB < pb then z.leadB ++ [(pb, s.c.lt)] else z.leadB
    let skew := (skewOf z.leadA z.seenB pb s.c.lt).orElse fun _ => skewOf z.leadB z.seenA pa s.c.lt
    let s1 := s.updZ fun z =>
      { z with seenA := pa, seenB := pb, leadA := la.filter fun e => decide (pb < e.1)
               leadB := lb.filter fun e => decide (pa < e.1) }
    match skew with
    | none => s1
    | some k =>
      let s2 := s1.updZ fun z => { z with skewNow := min 0xFFFF (k / 10), skewMax := max z.skewMax (min 0xFFFF (k / 10)) }
      if 20000 < k then mismatch s2 2 (max pa pb) none none none none else s2

/-- An input or a twin that a side has awaited for more than 20 µs (R23). -/
def skewOver (s : State) : Option Nat :=
  let late (t : Nat) : Bool := decide (20000 + t < s.c.lt)
  let z := s.c.bezel
  match z.leadA.find? fun e => late e.2 with
  | some e => some e.1
  | none => match z.leadB.find? fun e => late e.2 with
    | some e => some e.1
    | none => match (z.heldA ++ z.heldB).find? fun e => late e.1 with
      | some e => some e.2.point
      | none => none

end Sys2Proof.Machine
end

