-- ==== Sys2Proof/Machine/Wait.lean ====
section
/-! DEFINITION. The dispatcher's own operations on a side: ready lists, waiting, waking, signalling, dispatching and
cancelling (chapter 13). -/

namespace Sys2Proof.Machine

open Sys2Proof

/-! ## Threads, objects and cores -/

/-- What a core that reads the time CSR receives: the side's now (R17). -/
def Side.timeCsr (d : Side) : Nat := d.now

/-- ST of the side's now (R410). -/
def Side.st (d : Side) : Nat := stOf d.timeCsr

/-- ST units from one ST to a later one. -/
def stSince (since now : Nat) : Nat := (now + 2 ^ 40 - since % 2 ^ 40) % 2 ^ 40

/-- A step passes over an ST target: 0 < d ≤ step against the LT before it (R70). -/
def stPassed (old new st : Nat) : Bool :=
  decide (0 < stDiff st (stOf old)) && decide (stDiff st (stOf old) ≤ ((new / 256 - old / 256 : Nat) : Int))

/-- The dispatcher changed. -/
def Side.updDisp (d : Side) (f : DispState → DispState) : Side := { d with disp := f d.disp }

/-- A thread changed. -/
def DispState.setThread (k : DispState) (t : Nat) (f : Thread → Thread) : DispState :=
  match k.threads.find t with
  | some th => { k with threads := k.threads.put t (f th) }
  | none => k

/-- A wait object, none while it has not been initialised (R399). -/
def DispState.obj (k : DispState) (n : Nat) : Option Obj :=
  match k.objs.find n with
  | some o => some o
  | none => if n < 64 then some ⟨true, 0⟩ else if n < 96 then some ⟨false, 0⟩ else none

/-- A wait object's count set. -/
def DispState.setCount (k : DispState) (n : Nat) (o : Obj) (c : Nat) : DispState :=
  { k with objs := k.objs.put n { o with count := c } }

/-- A core. -/
def DispState.core (k : DispState) (n : Nat) : Core := k.cores.getD n Core.idle

/-- A core changed. -/
def DispState.setCore (k : DispState) (n : Nat) (f : Core → Core) : DispState :=
  { k with cores := setAt k.cores n (f (k.core n)) }

/-- A core is released from reset (R397). -/
def Side.coreOn (d : Side) (n : Nat) : Bool := rb d.regs Pg.DISP Reg.DISP_CORE_EN n

/-- The priority of a thread. -/
def DispState.prio (k : DispState) (t : Nat) : Nat := match k.threads.find t with
  | some th => th.prio
  | none => 0

/-- READY threads of a priority. -/
def DispState.depth (k : DispState) (p : Nat) : Nat := (k.ready.filter fun t => decide (k.prio t = p)).length

/-- What is observed of a priority. -/
def DispState.stat (k : DispState) (p : Nat) : PrioStat := (k.stats.find p).getD ⟨0, 0, 0, 0⟩

/-- The best of a list by a measure that must be greatest, the first on a tie. -/
def bestBy (m : Nat → Nat) : List Nat → Option Nat
  | [] => none
  | x :: t => match bestBy m t with
    | some y => if m x < m y then some y else some x
    | none => some x

/-- The core that a thread made READY interrupts, and whether it was busy (R404). -/
def Side.interruptFor (d : Side) (th : Thread) : Option (Nat × Bool) :=
  let el := (List.range 8).filter fun n => nbit th.aff n && d.coreOn n
  match el.find? fun n => (d.disp.core n).cur.isNone with
  | some n => some (n, false)
  | none =>
    if rb d.regs Pg.DISP Reg.DISP_CFG 0 then
      let lower := el.filter fun n => match (d.disp.core n).cur with
        | some t => decide (d.disp.prio t < th.prio)
        | none => false
      (bestBy (fun n => 63 - (match (d.disp.core n).cur with
        | some t => d.disp.prio t
        | none => 0)) lower).map (·, true)
    else none

/-- The dispatch interrupt raised on a core. -/
def Side.interrupt (d : Side) (n : Nat) : Side := d.updDisp fun k => k.setCore n fun c => { c with irq := true }

/-- A thread becomes READY at the tail of its priority; its dispatch interrupt is raised (R404). -/
def Side.makeReady (d : Side) (lt t : Nat) : Side :=
  match d.disp.threads.find t with
  | none => d
  | some th =>
    let d1 := d.updDisp fun k =>
      let k1 := { k with ready := k.ready ++ [t], waiters := k.waiters.filter (· ≠ t) }
      let k2 := k1.setThread t fun th => { th with st := .ready, readyAt := d.st, readyLt := lt, deadline := none }
      let x := k2.stat th.prio
      { k2 with stats := k2.stats.put th.prio { x with peak := max x.peak (k2.depth th.prio) } }
    match d1.interruptFor th with
    | some (n, busy) => let d2 := d1.interrupt n
                        if busy then d2.count Pg.DISP Reg.DISP_PREEMPTS else d2
    | none => d1

/-- The running time of a core added up to now, and its thread taken off it. -/
def Side.stopCore (d : Side) (n : Nat) : Side :=
  match (d.disp.core n).cur with
  | none => d
  | some _ => d.updDisp fun k =>
    let k1 := { k with load := k.load.put n ((k.load.find n).getD 0 + stSince (k.core n).since d.st) }
    k1.setCore n fun c => { c with cur := none, sliced := false }

/-- A timed wait is due at the last time input (R40, R406). -/
def Side.waitDue (d : Side) (t : Nat) : Bool :=
  match d.disp.threads.find t with
  | some th => match th.deadline with
    | some target => stDue target (stOf d.tick)
    | none => false
  | none => false

/-! ## Signalling -/

/-- The first waiter of an object: the highest priority, first come first served (R400). -/
def DispState.firstWaiter (k : DispState) (o : Nat) : Option Nat :=
  bestBy k.prio (k.waiters.filter fun t => match k.threads.find t with
    | some th => decide (th.obj = o)
    | none => false)

/-- A wait ends with a result, and its thread becomes READY (R407). -/
def Side.wakeWith (d : Side) (lt t res : Nat) : Side :=
  (d.updDisp fun k => k.setThread t fun th => { th with res := res }).makeReady lt t

/-- Every waiter of an event woken, in order. -/
def Side.wakeAll (d : Side) (lt o : Nat) : Nat → Side
  | 0 => d
  | n + 1 => match d.disp.firstWaiter o with
    | some t => (d.wakeWith lt t 0).wakeAll lt o n
    | none => d

/-- SIGNAL applied to an object (R400): whether it succeeded, and the side after it. -/
def Side.signal (d : Side) (lt n : Nat) (all : Bool) : Bool × Side :=
  match d.disp.obj n with
  | none => (false, d.count Pg.DISP Reg.DISP_OP_FAIL)
  | some o => match d.disp.firstWaiter n with
    | some t => (true, if !o.counting && all then d.wakeAll lt n 1024 else d.wakeWith lt t 0)
    | none =>
      if o.counting then
        if 65535 ≤ o.count then (true, d.count Pg.DISP Reg.DISP_OP_FAIL)
        else (true, d.updDisp fun k => k.setCount n o (o.count + 1))
      else (true, d.updDisp fun k => k.setCount n o 1)

end Sys2Proof.Machine
end

