-- ==== Sys2Proof/Machine/Events.lean ====
section
/-! DEFINITION. The events and the error summary: which sources are pending, the messages to the hosts, the delivery
to the sides, and the summary of the ERR page (R447 to R449, R478 to R486). `refresh` brings all of it up to date. -/

namespace Sys2Proof.Machine

open Sys2Proof

/-- A number inserted into a rising list. -/
def insNat (n : Nat) : List Nat → List Nat
  | [] => [n]
  | k :: t => if n < k then n :: k :: t else if n = k then k :: t else k :: insNat n t

/-! ## Sources and summary -/

/-- The page of a commons page source (R474): sources 31 and 63 are those of the ERR page. -/
def srcPage (n : Nat) : Nat := if n = 31 then Pg.ERR else n

/-- A commons source is pending (table "Event source groups" of R478). -/
def commonsSrc (c : Commons) (n : Nat) : Bool :=
  if n = 31 then decide ((w32 c.evt.errEvt) &&& (rd c.regs Pg.ERR Reg.HDR_EVT_EN) ≠ 0)
  else if n < 32 then evtPending c.regs n
  else if n < 64 then errPending c.regs (srcPage (n - 32))
  else if n < 96 then c.evt.slotPend.contains (n - 64)
  else false

/-- The pages that have a register in a store, so that a source of theirs can be pending. -/
def livePages (t : Tab Word) : List Nat := (t.map fun e => (e.1 / 4096) % 128).eraseDups

/-- The commons sources pending now, rising. -/
def commonsPending (c : Commons) : List Nat :=
  let ps := livePages c.regs
  (List.range 96).filter fun n =>
    (decide (64 ≤ n) || decide (n = 31) || ps.contains (srcPage (n % 32))) && commonsSrc c n

/-- The page event and error sources of a side that are pending, rising (R478): 192 + k and 224 + k. -/
def sidePagesPending (d : Side) : List Nat :=
  let ps := livePages d.regs
  ((List.range 18).filter fun k => ps.contains (64 + k) && evtPending d.regs (64 + k)).map (192 + ·) ++
  ((List.range 18).filter fun k => ps.contains (64 + k) && errPending d.regs (64 + k)).map (224 + ·)

/-- The pages whose summary bit is 1 (R448): commons pages, side A pages at 64 + k, side B pages at 96 + k. -/
def summary (s : State) : List Nat :=
  let cs := livePages s.c.regs
  let as := livePages s.a.regs
  let bs := livePages s.b.regs
  ((List.range 64).filter fun n => cs.contains n && errPending s.c.regs n) ++
  ((List.range 32).filter fun k => as.contains (64 + k) && errPending s.a.regs (64 + k)).map (64 + ·) ++
  ((List.range 32).filter fun k => s.variant.full && bs.contains (64 + k) && errPending s.b.regs (64 + k)).map (96 + ·)

/-! ## Messages to the hosts -/

/-- A vector's messages are held: masked, Function Mask, MSI-X Enable 0 or Bus Master Enable 0 (R494). -/
def HostPort.holds (h : HostPort) (vec : Nat) : Bool :=
  h.masked.contains vec || h.funcMask || !h.msixEn || !h.bme

/-- A message leaves on a vector, or is held as its pending bit (R494). -/
def Commons.message (c : Commons) (second : Bool) (vec : Nat) : Commons :=
  if (c.host second).holds vec then c.updHost second fun h => { h with pba := insNat vec h.pba }
  else { c with evt := { c.evt with
    sent := c.evt.sent ++ [(second, vec)]
    msgA := if second then c.evt.msgA else min (2 ^ 32 - 1) (c.evt.msgA + 1)
    msgB := if second then min (2 ^ 32 - 1) (c.evt.msgB + 1) else c.evt.msgB } }

/-- A message falls due on a vector: inside the vector's MOD interval it waits for the interval's end, otherwise it
goes out and opens the next interval (R485). -/
def Commons.messageDue (c : Commons) (second : Bool) (vec : Nat) : Commons :=
  let mod := rf c.regs Pg.CEVT (if second then Reg.CEVT_MOD_B else Reg.CEVT_MOD_A) 7 0
  let tab := if second then c.evt.modB else c.evt.modA
  let put (c : Commons) (v : Nat × Bool) : Commons :=
    { c with evt := { c.evt with
      modA := if second then c.evt.modA else c.evt.modA.put vec v
      modB := if second then c.evt.modB.put vec v else c.evt.modB } }
  if mod = 0 then c.message second vec
  else match tab.find vec with
    | some (until_, w) =>
      if c.lt < until_ then
        let c1 := put c (until_, true)
        if w then c1 else { c1 with evt := { c1.evt with modDefer := min (2 ^ 32 - 1) (c1.evt.modDefer + 1) } }
      else put (c.message second vec) (c.lt + 1000 * mod, false)
    | none => put (c.message second vec) (c.lt + 1000 * mod, false)

/-- Host routing of a source (EVT.SRC_ROUTE, commons instance): enabled on a port, and on which vector. -/
def routeEn (c : Commons) (second : Bool) (src : Nat) : Bool :=
  bitOf (rdI c.regs Pg.CEVT Reg.CEVT_SRC_ROUTE src) (if second then 14 else 6)

/-- The vector of a source on a host port. -/
def routeVec (c : Commons) (second : Bool) (src : Nat) : Nat :=
  let v := rdI c.regs Pg.CEVT Reg.CEVT_SRC_ROUTE src
  if second then fld v 13 8 else fld v 5 0

/-- The ARMED bit of a source on a host port (R483). -/
def EvtState.armed (e : EvtState) (second : Bool) (src : Nat) : Bool :=
  if second then !e.disarmedB.contains src else !e.disarmedA.contains src

/-- ARMED cleared when a message falls due (R483, R494). -/
def EvtState.disarm (e : EvtState) (second : Bool) (src : Nat) : EvtState :=
  if second then { e with disarmedB := insNat src e.disarmedB } else { e with disarmedA := insNat src e.disarmedA }

/-- ARMED set again (R483). -/
def EvtState.rearm (e : EvtState) (second : Bool) (src : Nat) : EvtState :=
  if second then { e with disarmedB := e.disarmedB.filter (· ≠ src) }
  else { e with disarmedA := e.disarmedA.filter (· ≠ src) }

/-- A pending source that is enabled and armed on a port sends one message and clears ARMED (R483). -/
def Commons.trySend (second : Bool) (c : Commons) (src : Nat) : Commons :=
  if routeEn c second src && c.evt.armed second src then
    ({ c with evt := c.evt.disarm second src }).messageDue second (routeVec c second src)
  else c

/-! ## Bringing events up to date -/

/-- An event of the ERR page. -/
def Commons.errEvent (c : Commons) (bit : Nat) : Commons :=
  ({ c with evt := { c.evt with errEvt := setNBit c.evt.errEvt bit true } }).mark Pg.ERR Reg.HDR_EVT_STAT (bitMask bit)

/-- The ERR summary after a command: FIRST_PAGE and FIRST_PLT take the first page that rises from an empty summary
and clear with the last; a rise raises ERR_ANY (R449). -/
def Commons.summarise (c : Commons) (sum : List Nat) : Commons :=
  let rises := sum.filter fun p => !c.evt.lastSum.contains p
  let c1 := { c with evt := { c.evt with
    lastSum := sum
    firstPage := if sum.isEmpty then none else if c.evt.lastSum.isEmpty then rises.head? else c.evt.firstPage
    firstPlt := if sum.isEmpty then 0 else if c.evt.lastSum.isEmpty then c.lt % 2 ^ 32 else c.evt.firstPlt
    }}
  if rises.isEmpty then c1 else c1.errEvent 0

/-- The sources delivered to the sides (SIDES = 1, R480) among those whose pending state changed. -/
def sidesChanges (c : Commons) (now : List Nat) : List (Nat × Bool) :=
  ((now.filter fun n => !c.evt.lastPend.contains n).map (·, true) ++
   (c.evt.lastPend.filter fun n => !now.contains n).map (·, false)).filter fun p =>
    decide (p.1 < 128) && bitOf (rdI c.regs Pg.CEVT Reg.CEVT_SRC_ROUTE p.1) 16

/-- The pending state of the commons sources brought up to date, with the messages that fall due. -/
def Commons.raise (c : Commons) (now : List Nat) : Commons :=
  let all := now ++ c.evt.sidePend
  let c1 := all.foldl (Commons.trySend false) c
  let c2 := all.foldl (Commons.trySend true) c1
  { c2 with evt := { c2.evt with lastPend := now } }

/-! ## Side sources -/

/-- The strand is HOST_OUT and holds a readable item (table "Event source groups" of R478). -/
def itemPending (d : Side) (n : Nat) (r : Ring) : Bool :=
  decide (fld (rdI d.regs Pg.STRAND Reg.STRAND_CFG n) 1 0 = 2) && decide (r.rp < r.ended)

/-- The side sources pending now, rising (R478). -/
def sidePending (d : Side) : List Nat :=
  (d.strand.rings.filterMap fun e => if itemPending d e.1 e.2 then some (128 + e.1) else none) ++ sidePagesPending d

/-- The rise of a source in a side acts on its TARGET (R481). Strand ITEM sources have none. -/
def Side.sourceRises (d : Side) (lt src : Nat) : Side :=
  if 128 ≤ src ∧ src < 192 then d
  else
    let v := rdI d.regs Pg.SEVT Reg.SEVT_SRC_ROUTE src
    if fld v 1 0 = 1 then ((d.signal lt (fld v 15 4) false).2).count Pg.SEVT Reg.SEVT_SIGNALS
    else if fld v 1 0 = 2 then d.count Pg.SEVT Reg.SEVT_IRQ_RISES
    else d

/-- The external interrupt of a core is driven: a source with TARGET 2 that names the core in CORES is pending (R481). -/
def Side.coreIrq (d : Side) (n : Nat) : Bool :=
  (d.evt.commonsPend ++ d.evt.lastPend).any fun src =>
    let v := rdI d.regs Pg.SEVT Reg.SEVT_SRC_ROUTE src
    !decide (128 ≤ src ∧ src < 192) && decide (fld v 1 0 = 2) && bitOf v (16 + n)

/-- Each rise and fall of a side source is offered to Bezel as a host completion transaction, and each rise acts on
its TARGET (R480 to R482). -/
def Side.syncSources (d : Side) (lt : Nat) : Side :=
  let now := sidePending d
  let rises := now.filter fun n => !d.evt.lastPend.contains n
  let falls := d.evt.lastPend.filter fun n => !now.contains n
  let d1 := rises.foldl (fun d n => (d.emit (.sourceState n true)).sourceRises lt n) d
  let d2 := falls.foldl (fun d n => d.emit (.sourceState n false)) d1
  { d2 with evt := { d2.evt with lastPend := now } }

/-- A side takes part in nothing while it is off, stopped or being reset. -/
def BezelState.quiet (z : BezelState) (x : SideId) : Bool :=
  match z.st x with
  | .off | .stopped => true
  | _ => false

/-- The side whose status path and registers stand for both: the holder of the lease, else the one in service, else
side A (R426, R450). -/
def activeSide (s : State) : SideId :=
  match s.c.clasp.holder with
  | some x => x
  | none => if s.c.bezel.stA = .off ∨ s.c.bezel.stA = .stopped then
      (if s.c.bezel.receives .b then .b else .a) else .a

/-- A report of a side acts on the ERR page, or counts in the HOSTx page (R453, R456, R458, R496). -/
def Commons.report (c : Commons) : Report → Commons
  | .disDrop => (c.count Pg.ERR Reg.ERR_DIS_DROP).err Pg.ERR 3
  | .lossMarker => c.count Pg.ERR Reg.ERR_LOSS_MARKERS
  | .lossWait => c.err Pg.ERR 2
  | .itemDiscard second => c.count (hostPage second) Reg.HOST_ITEM_DISCARD

/-- The reports of the sides reach the ERR page once: those of the active side. -/
def takeReports (s : State) : State :=
  { s with c := ((s.side (activeSide s)).reports).foldl Commons.report s.c
           a := { s.a with reports := [] }
           b := { s.b with reports := [] } }

/-- A side's sources brought up to date unless it is quiet. -/
def syncSide (s : State) (x : SideId) : State :=
  if s.c.bezel.quiet x then s else s.upd x fun d => d.syncSources s.c.lt

/-- Received frames that a side in service has not consumed yet; the catch-up buffer holds those of a side being refilled. -/
def Side.framesWaiting (d : Side) : Nat :=
  (d.inq.filter fun q => match q.inp with
    | .rxFrame _ => true
    | _ => false).length

/-- The cells of the commons receive buffer whose frames the slower side has not accepted (R21). -/
def sentUp (s : State) : Nat :=
  let n (x : SideId) : Nat := match s.c.bezel.st x with
    | .compared | .alone | .selfCheck => (s.side x).framesWaiting
    | _ => 0
  max (n .a) (n .b)

/-- The ERR summary, the events, the messages and the deliveries to the sides follow what a command did. -/
def refresh (s : State) : State :=
  let s0 := syncSide (syncSide (takeReports (trackSkew s)) .a) .b
  let s1 : State := { s0 with c := s0.c.summarise (summary s0) }
  let now := commonsPending s1.c
  let changes := sidesChanges s1.c now
  let s2 : State := { s1 with c := s1.c.raise now }
  let s3 := changes.foldl (fun s p => s.offer .units (.sourceState p.1 p.2)) s2
  s3.updC fun c => { c with air := { c.air with sentUp := sentUp s3 } }

end Sys2Proof.Machine
end

