-- ==== Sys2Proof/Machine/Strands.lean ====
section
/-! DEFINITION. Strands: descriptors, rings, places and cells, pushes and pops, the consumer controls, flushing, and
the items, results and completions (chapter 12), with the loss markers and held flows of R453 to R456. -/

namespace Sys2Proof.Machine

open Sys2Proof

/-! ## Descriptors (R378) -/

/-- Bits of a descriptor: byte, low bit in it, width. -/
def Desc.get (d : Desc) (byte lo width : Nat) : Nat := (d.toNat / 2 ^ (8 * byte + lo)) % 2 ^ width

/-- TYPE. -/
def Desc.ty (d : Desc) : Nat := d.get 0 0 4
/-- FIRST. -/
def Desc.first (d : Desc) : Bool := decide (d.get 0 4 1 = 1)
/-- LAST. -/
def Desc.last (d : Desc) : Bool := decide (d.get 0 5 1 = 1)
/-- CODE. -/
def Desc.code (d : Desc) : Nat := d.get 1 0 8
/-- CELL. -/
def Desc.cell (d : Desc) : Nat := d.get 2 0 10
/-- LEN. -/
def Desc.len (d : Desc) : Nat := d.get 4 0 12
/-- TENANT. -/
def Desc.tenant (d : Desc) : Nat := d.get 6 0 10
/-- SERVICE. -/
def Desc.service (d : Desc) : Nat := d.get 6 10 3
/-- GROUP. -/
def Desc.group (d : Desc) : Nat := d.get 6 13 3
/-- TAG. -/
def Desc.tag (d : Desc) : Nat := d.get 8 0 64
/-- KEY. -/
def Desc.key (d : Desc) : Nat := d.get 16 0 64

/-- A reserved bit is set. -/
def Desc.reserved (d : Desc) : Bool :=
  decide (d.get 0 7 1 ≠ 0) || decide (d.get 2 10 6 ≠ 0) || decide (d.get 4 12 4 ≠ 0) || decide (d.get 27 6 2 ≠ 0) ||
  decide (d.get 29 6 2 ≠ 0) || decide (d.get 30 0 16 ≠ 0)

/-- A descriptor with the fields given as (byte, low bit, value). -/
def mkDesc (fs : List (Nat × Nat × Nat)) : Desc :=
  BitVec.ofNat 256 ((fs.map fun f => f.2.2 * 2 ^ (8 * f.1 + f.2.1)).sum)

/-- Bytes 0 to 7 of a one-descriptor item, TYPE, CODE, LEN, with CELL = none, and its TAG and KEY. -/
def itemDesc (ty code len tenant service group tag key : Nat) : Desc :=
  mkDesc [(0, 0, ty), (0, 4, 3), (1, 0, code % 256), (2, 0, 0x3FF), (4, 0, len), (6, 0, tenant), (6, 10, service),
          (6, 13, group), (8, 0, tag), (16, 0, key)]

/-- A descriptor with its CELL field set. -/
def Desc.setCell (d : Desc) (c : Nat) : Desc :=
  BitVec.ofNat 256 (d.toNat - d.cell * 2 ^ 16 + (c % 1024) * 2 ^ 16)

/-- FRAME. -/
def tyFrame : Nat := 1
/-- COMMAND. -/
def tyCommand : Nat := 2
/-- RESULT. -/
def tyResult : Nat := 3
/-- COMPLETION. -/
def tyCompletion : Nat := 4
/-- NOTICE. -/
def tyNotice : Nat := 5
/-- LOSS. -/
def tyLoss : Nat := 6

/-! ## Rings -/

/-- CFG of a strand. -/
def Side.strandCfg (d : Side) (n : Nat) : Word := rdI d.regs Pg.STRAND Reg.STRAND_CFG n
/-- The strand is enabled. -/
def Side.strandOn (d : Side) (n : Nat) : Bool := bitOf (d.strandCfg n) 31
/-- DIR; 3 is treated as 0 (R376). -/
def Side.strandDir (d : Side) (n : Nat) : Nat := fld (d.strandCfg n) 1 0 % 3
/-- DEPTH. -/
def Side.strandDepth (d : Side) (n : Nat) : Nat := fld (d.strandCfg n) 26 16
/-- MODE = 1: held. -/
def Side.strandHeld (d : Side) (n : Nat) : Bool := bitOf (d.strandCfg n) 2
/-- RESP. -/
def Side.strandResp (d : Side) (n : Nat) : Nat := fld (d.strandCfg n) 13 8

/-- The strands changed. -/
def Side.updStrand (d : Side) (f : StrandState → StrandState) : Side := { d with strand := f d.strand }

/-- A ring. -/
def Side.ring (d : Side) (n : Nat) : Ring := (d.strand.rings.find n).getD Ring.reset

/-- A ring changed. -/
def Side.updRing (d : Side) (n : Nat) (f : Ring → Ring) : Side :=
  d.updStrand fun k => { k with rings := k.rings.put n (f ((k.rings.find n).getD Ring.reset)) }

/-- A counter of a strand (R395). -/
def Side.countStrand (d : Side) (n off : Nat) : Side := { d with regs := bumpI d.regs Pg.STRAND off n }

/-- Free cells in rising order (R374, R450). -/
def StrandState.freeCells (k : StrandState) : List Nat :=
  (List.range 960).filter fun c => !k.used.contains c && !k.gone.contains c

/-- CELLS_FREE. -/
def StrandState.cellsFree (k : StrandState) : Nat := 960 - k.used.length - k.gone.length

/-- A free cell taken, which one a free value; none when no cell is free. -/
def Side.takeCell (d : Side) : Option (Nat × Side) :=
  let fs := d.strand.freeCells
  if fs.isEmpty then none
  else
    let c := fs.getD (Config.pickCell d.strand.picks % fs.length) 0
    some (c, d.updStrand fun k => { k with used := insNat c k.used, picks := k.picks + 1 })

/-- A cell taken with others before it. -/
def Side.takeNext (e : List Nat × Side) : List Nat × Side := match e.2.takeCell with
  | none => e
  | some (c, d1) => (e.1 ++ [c], d1)

/-- Up to `n` cells taken. -/
def Side.takeCells (d : Side) (n : Nat) : List Nat × Side := (List.range n).foldl (fun e _ => Side.takeNext e) ([], d)

/-- Cells returned to the pool. -/
def Side.freeCellsOf (d : Side) (cs : List Nat) : Side :=
  d.updStrand fun k =>
    { k with used := k.used.filter fun c => !cs.contains c, data := cs.foldl (fun t c => t.del c) k.data }

/-- Contents of a cell: what was written, zero elsewhere. -/
def StrandState.cellData (k : StrandState) (c : Nat) : List Byte := (k.data.find c).getD []

/-- A cell's contents set. -/
def Side.setCell (d : Side) (c : Nat) (bs : List Byte) : Side :=
  d.updStrand fun k => { k with data := k.data.put c bs }

/-- Octets from a place of a cell, zero where nothing was written. -/
def cellSlice (bs : List Byte) (off n : Nat) : List Byte :=
  let got := slice bs off n
  got ++ List.replicate (n - got.length) 0

/-- Octets written over those of a cell (R497). -/
def overwrite (bs : List Byte) (off : Nat) (new : List Byte) : List Byte :=
  let base := cellSlice bs 0 (max bs.length off)
  base.take off ++ new ++ base.drop (off + new.length)

/-- Global places in use. -/
def StrandState.placesUsed (k : StrandState) : List Nat := (k.rings.map fun e => e.2.places).flatten

/-- Up to `n` global places taken from a list of free ones, which ones a free value. -/
def takePlaces (pick : Nat) : Nat → List Nat → List Nat
  | 0, _ => []
  | n + 1, fs => if fs.isEmpty then [] else
    let g := fs.getD (Config.pickPlace (pick + n) % fs.length) 0
    g :: takePlaces pick n (fs.filter (· ≠ g))

/-- The place of the ring that holds the slot at a position from the release point. -/
def ringPlace (r : Ring) (depth i : Nat) : Nat := (r.wpt + depth - r.slots.length + i) % depth

/-! ## Pushing -/

/-- The bytes 0 to 63 + LEN of a descriptor's cell, for its CRC (R385). -/
def Side.itemBytes (d : Side) (s : Slot) : List Byte :=
  match s.cell with
  | some c => cellSlice (d.strand.cellData c) 0 (64 + s.d.len)
  | none => []

/-- A descriptor stored at the write point: counted and noticed when it completes an item, offered to Bezel on a
HOST_OUT strand (R381, R382, R385). -/
def Side.store (d : Side) (lt n : Nat) (s : Slot) : Side :=
  let depth := d.strandDepth n
  let seq := d.inputNo
  let d1 := d.updRing n fun r =>
    let slots := r.slots ++ [{ s with seq := seq }]
    { r with slots := slots, wpt := (r.wpt + 1) % depth, ended := if s.d.last then slots.length else r.ended }
  let d2 := if s.d.last then
      ((d1.countStrand n Reg.STRAND_PUSHED).countStrand n Reg.STRAND_NOTICES) else d1
  if d2.strandDir n = 2 then
    d2.emit (.hostItem n s.d (match s.cell with
      | some _ => crc32c (d2.itemBytes s)
      | none => 0))
  else if s.d.last then (d2.signal lt n false).2 else d2

/-- The ring has a free place. -/
def Side.placeFree (d : Side) (n : Nat) : Bool := decide ((d.ring n).slots.length < d.strandDepth n)

/-- A push performed when a place, and a cell if it brings data, are free. -/
def Side.pushNow (d : Side) (lt n : Nat) (p : Push) : Option Side :=
  if !d.placeFree n then none
  else match p.data with
    | none => some (d.store lt n { d := p.d, cell := if p.d.cell < 960 ∧ d.strandDir n ≠ 1 then some p.d.cell else none,
                                   by_ := p.by_, seq := 0 })
    | some bs => match d.takeCell with
      | none => none
      | some (c, d1) => some ((d1.setCell c bs).store lt n { d := p.d.setCell c, cell := some c, by_ := p.by_, seq := 0 })

/-- A push, stalled behind those that already wait or when it finds no place (R388). -/
def Side.push (d : Side) (lt n : Nat) (p : Push) : Side :=
  let wait (d : Side) : Side :=
    (d.updRing n fun r => { r with stalled := r.stalled ++ [{ p with since := d.now }] }).countStrand n Reg.STRAND_STALLS
  if (d.ring n).stalled.isEmpty then
    match d.pushNow lt n p with
    | some d1 => d1
    | none => wait d
  else wait d

/-- A unit's one-descriptor item for a strand: dropped on a strand that is not enabled for it (R458). -/
def Side.pushUnit (d : Side) (lt n : Nat) (dd : Desc) (data : Option (List Byte)) : Side :=
  if d.strandOn n && decide (d.strandDir n ≠ 1) then
    d.push lt n { d := dd, data := data, by_ := none, since := 0, raised := false }
  else d

/-- The side page header's DIS_DROP path: a received frame dropped at a disabled unit (R458). -/
def Side.disDrop (d : Side) : Side := { d with reports := d.reports ++ [Report.disDrop] }

/-- A received frame's item for a strand, held behind a loss marker of its flow, or dropped and counted on a strand
that is not enabled (R454, R458). -/
def Side.pushFlow (d : Side) (lt n flow : Nat) (dd : Desc) (data : List Byte) : Side :=
  if d.strand.marks.any fun m => decide (m.flow = flow) then
    d.updStrand fun k => { k with held := k.held ++ [⟨n, flow, dd, some data⟩] }
  else if d.strandOn n && decide (d.strandDir n ≠ 1) then d.pushUnit lt n dd (some data)
  else d.disDrop

/-- The stalled pushes of a strand that now find a place, oldest first (R388). -/
def Side.resumePushes (d : Side) (lt n : Nat) : Nat → Side
  | 0 => d
  | fuel + 1 => match (d.ring n).stalled with
    | [] => d
    | p :: rest => match d.pushNow lt n p with
      | some d1 => (d1.updRing n fun r => { r with stalled := rest }).resumePushes lt n fuel
      | none => d

/-! ## Answers -/

/-- An answer on a strand's RESP strand (R392). -/
def Side.answer (d : Side) (lt n : Nat) (dd : Desc) (data : Option (List Byte)) : Side :=
  d.pushUnit lt (d.strandResp n) dd data

/-- A code that is returned under a disable: 256 added stands for the descriptor's ABORTED bit (R378, R457). -/
def underDisable (code : Nat) : Nat := code + 256

/-- A descriptor with its ABORTED bit set where the code was returned under a disable (R378). -/
def Desc.abortedBit (d : Desc) (code : Nat) : Desc := if 256 ≤ code then d ||| mkDesc [(0, 6, 1)] else d

/-- A RESULT with the command's TAG; its data follow 64 zero bytes in the cell (R392). -/
def Side.result (d : Side) (lt n : Nat) (cmd : Desc) (status : Nat) (data : List Byte) : Side :=
  d.answer lt n ((itemDesc tyResult status data.length cmd.tenant cmd.service cmd.group cmd.tag 0).abortedBit status)
    (if data.isEmpty then none else some (List.replicate 64 0 ++ data))

/-- A COMPLETION of a frame (R392). -/
def Side.completion (d : Side) (lt n code tenant service group tag : Nat) : Side :=
  d.answer lt n ((itemDesc tyCompletion code 0 tenant service group tag 0).abortedBit code) none

/-- BAD_ARG as a command status: image commands have code 1, the others 6 (R389). -/
def badArgOf (code : Nat) : Nat := if 32 ≤ code then 1 else 6

/-! ## Popping -/

/-- The item at the start of a list of slots, through its LAST. -/
def firstItem : List Slot → List Slot
  | [] => []
  | s :: t => if s.d.last then [s] else s :: firstItem t

/-- An emptied strand that was being disabled gives its places and cells back (R375, R377, R457). -/
def Side.finishClose (d : Side) (n : Nat) : Side :=
  let r := d.ring n
  if r.closing && r.slots.isEmpty && r.stalled.isEmpty then
    (d.freeCellsOf (r.cells ++ r.outCells)).updStrand fun k => { k with rings := k.rings.del n }
  else d

/-- What a unit takes from a HOST_IN strand: its descriptors, their data in one piece, the cells, and its place in sequence
order, that of its last descriptor. -/
structure Taken where
  descs : List Desc
  data : List Byte
  cells : List Nat
  seq : Nat
  deriving DecidableEq, Repr

/-- The first descriptor of what was taken. -/
def Taken.head (t : Taken) : Desc := t.descs.headD 0

/-- The cells of `k` places from the first slot exchanged for free ones (R377). -/
def Side.exchange (d : Side) (n i k : Nat) : List Nat × Side :=
  let r := d.ring n
  let depth := d.strandDepth n
  let t := d.takeCells k
  let ps := (List.range k).map fun j => ringPlace r depth (i + j)
  let old := ps.map fun p => r.cells.getD p 0
  (old, t.2.updRing n fun r => { r with cells := (ps.zip t.1).foldl (fun l e => l.set e.1 e.2) r.cells })

/-- Cells that a pop of `k` places needs (R377). -/
def Side.popCells (d : Side) (k : Nat) : Nat := max k (rf d.regs Pg.STRAND Reg.STRAND_CELL_RSV 9 0 + k - 1)

/-- The place in sequence order of an item: where its last descriptor was pushed. -/
def itemSeq (item : List Slot) : Nat := ((item.getLast?).map fun s => s.seq).getD 0

/-- The next item of a strand for a unit of the side: its slots, empty when a unit finds none. -/
def Side.nextSlots (d : Side) (n : Nat) : List Slot :=
  let r := d.ring n
  if d.strandDir n ≠ 1 ∨ r.ended = 0 ∨ r.itemAt.isSome ∨ r.rp ≠ 0 then [] else firstItem r.slots

/-- The first descriptor of a strand's next item for a unit of the side. -/
def Side.nextItem (d : Side) (n : Nat) : Option Desc := (d.nextSlots n).head?.map fun s => s.d

/-- A unit's pop of the next item finds the cells it needs (R377). -/
def Side.takeable (d : Side) (n : Nat) : Bool :=
  !(d.nextSlots n).isEmpty && decide (d.popCells (d.nextSlots n).length ≤ d.strand.cellsFree)

/-- A unit pops the first item of a HOST_IN strand (R377, R379): none without an item, or while the pop waits for
cells. -/
def Side.takeItem (d : Side) (n : Nat) : Option Taken × Side :=
  let r := d.ring n
  if d.strandDir n ≠ 1 ∨ r.ended = 0 ∨ r.itemAt.isSome ∨ r.rp ≠ 0 then (none, d)
  else
    let item := firstItem r.slots
    let k := item.length
    if d.strand.cellsFree < d.popCells k then (none, d.updRing n fun r => { r with popWait := some false })
    else
      let e := d.exchange n 0 k
      let data := ((e.1.zip item).map fun p => cellSlice (d.strand.cellData p.1) 64 p.2.d.len).flatten
      let d1 := e.2.updRing n fun r =>
        { r with slots := r.slots.drop k, ended := r.ended - k, popWait := none,
                 mark := none }
      (some { descs := item.map fun s => s.d, data := data, cells := e.1, seq := itemSeq item }, (d1.countStrand n Reg.STRAND_POPPED).finishClose n)

/-- An item keeps the rules of R379. -/
def Taken.ok (t : Taken) : Bool :=
  let h := t.head
  decide (t.descs.length ≤ 4) && h.first && !((t.descs.drop 1).any fun x => x.first) &&
  (decide (h.ty = tyFrame) || decide (h.ty = tyCommand)) &&
  t.descs.all fun x => decide (x.ty = h.ty) && !x.reserved && decide (x.len ≤ 2048) &&
    (decide (x.cell < 960) || (decide (x.cell = 0x3FF) && decide (h.ty ≠ tyFrame))) &&
  decide ((t.descs.map fun x => x.len).sum ≤ 2048)

/-- An item that breaks R379 is consumed and answered with BAD_DESC. -/
def Side.badItem (d : Side) (lt n : Nat) (t : Taken) : Side :=
  let h := t.head
  let d1 := (d.freeCellsOf t.cells).countStrand n Reg.STRAND_BAD_DESC
  d1.completion lt n 51 h.tenant h.service h.group h.tag

/-! ## Consumer controls (R386) -/

/-- Places and cells before a position freed, positions counted from the new release point. -/
def Side.releaseTo (d : Side) (n k : Nat) : Side :=
  let r := d.ring n
  let cs := (r.slots.take k).filterMap fun s => s.cell
  ((d.freeCellsOf cs).updRing n fun r =>
    { r with slots := r.slots.drop k, rp := r.rp - k, ended := r.ended - k, passed := r.passed - k,
             mark := none, itemAt := r.itemAt.map fun i => i - k }).finishClose n

/-- POP: the next descriptor is read, and freed in MODE 0; the idle item when nothing is readable (R383, R386). -/
def Side.cmdPop (d : Side) (n : Nat) : Side :=
  let r := d.ring n
  if r.ended ≤ r.rp then d.countStrand n Reg.STRAND_IDLE_READS
  else match r.slots[r.rp]? with
    | none => d
    | some s =>
      let hostIn : Bool := decide (d.strandDir n = 1)
      if hostIn && decide (d.strand.cellsFree < d.popCells 1) then
        d.updRing n fun r => { r with popWait := some true }
      else
        let ex := if hostIn then d.exchange n r.rp 1 else ([], d)
        let cell := if hostIn then ex.1.head? else s.cell
        let d1 := ex.2.updRing n fun r => { r with popWait := none }
        let d2 :=
          if d1.strandHeld n then
            d1.updRing n fun r =>
              { r with rp := r.rp + 1, slots := r.slots.set r.rp { s with cell := cell },
                       itemAt := if s.d.last then none else some (r.itemAt.getD r.rp) }
          else
            let outs := r.outCells ++ cell.toList
            let d3 := d1.updRing n fun r =>
              { r with slots := r.slots.drop 1, ended := r.ended - 1, passed := r.passed - 1, mark := none,
                       itemAt := if s.d.last then none else some 0, outCells := if s.d.last then [] else outs }
            (if s.d.last then d3.freeCellsOf outs else d3).finishClose n
        if s.d.last then d2.countStrand n Reg.STRAND_POPPED else d2

/-- MARK (MODE 1): the read point saved, or the start of the item it is inside. -/
def Side.cmdMark (d : Side) (n : Nat) : Side := d.updRing n fun r => { r with mark := some (r.itemAt.getD r.rp) }

/-- REWIND (MODE 1): the read point returns to the mark; NO_MARK without one. -/
def Side.cmdRewind (d : Side) (n : Nat) : Side :=
  match (d.ring n).mark with
  | some m => d.updRing n fun r => { r with rp := m, itemAt := none }
  | none => d.err Pg.STRAND 2

/-- RELEASE (MODE 1). -/
def Side.cmdRelease (d : Side) (n : Nat) : Side :=
  let r := d.ring n
  d.releaseTo n (r.itemAt.getD r.rp)

/-- DROP_REST: inside an item, the rest of it is discarded (MODE 0) or passed over (MODE 1). -/
def Side.cmdDropRest (d : Side) (n : Nat) : Side :=
  let r := d.ring n
  match r.itemAt with
  | none => d
  | some _ =>
    let rest := firstItem (r.slots.drop r.rp)
    let k := rest.length
    let d1 :=
      if d.strandHeld n then d.updRing n fun r => { r with rp := r.rp + k, itemAt := none }
      else
        let cs := r.outCells ++ rest.filterMap fun s => s.cell
        ((d.freeCellsOf cs).updRing n fun r =>
          { r with slots := r.slots.drop k, ended := r.ended - k, passed := r.passed - k, itemAt := none,
                   outCells := [] }).finishClose n
    d1.countStrand n Reg.STRAND_DROPPED

/-- The items of a list of slots, by their first descriptors. -/
def itemHeads : Bool → List Slot → List Desc
  | _, [] => []
  | start, s :: t => if start then s.d :: itemHeads s.d.last t else itemHeads s.d.last t

/-- The answers to the items of a HOST_IN strand that a flush or a disable discards (R389, R457). -/
def Side.answerAborted (d : Side) (lt n : Nat) (hs : List Desc) : Side :=
  let mark (code : Nat) : Nat := if (d.ring n).closing then underDisable code else code
  hs.foldl (fun d h =>
    if h.ty = tyCommand then d.result lt n h (mark (badArgOf h.code)) []
    else if h.ty = tyFrame then d.completion lt n (mark 7) h.tenant h.service h.group h.tag
    else d) d

/-- FLUSH: every item discarded, read or unread; a partial item absorbed; HOST_IN items answered (R389, R390). -/
def Side.cmdFlush (d : Side) (lt n : Nat) : Side :=
  let r := d.ring n
  let whole := r.slots.take r.ended
  let heads := itemHeads true whole
  let cs := r.outCells ++ r.slots.filterMap fun s => s.cell
  let partialItem : Bool := decide (r.ended < r.slots.length)
  let d1 := (d.freeCellsOf cs).updRing n fun r =>
    { r with slots := [], rp := 0, itemAt := none, ended := 0, passed := 0, mark := none, outCells := [],
             lost := r.lost + (r.slots.length - r.passed), absorb := r.absorb || partialItem,
             flushPartial := r.flushPartial || partialItem }
  let d2 := heads.foldl (fun d _ => d.countStrand n Reg.STRAND_FLUSHED) d1
  let d3 := if d2.strandDir n = 1 then d2.answerAborted lt n heads else d2
  d3.finishClose n

/-- One consumer control, by its CMD bit. -/
def Side.control (d : Side) (lt n bit : Nat) : Side :=
  if !(d.strandOn n || (d.ring n).closing) then d
  else if (bit = 1 ∨ bit = 2 ∨ bit = 3) ∧ d.strandHeld n = false then d.err Pg.STRAND 1
  else match bit with
    | 0 => d.cmdPop n
    | 1 => d.cmdMark n
    | 2 => d.cmdRewind n
    | 3 => d.cmdRelease n
    | 4 => d.cmdDropRest n
    | _ => d.cmdFlush lt n

/-- A CMD write: its bits in increasing order (R386). -/
def Side.writeStrandCmd (d : Side) (lt n : Nat) (v : Word) : Side :=
  (bitsBelow v.toNat 6).foldl (fun d b => d.control lt n b) d

/-! ## Host pushes (R384, R495) -/

/-- The key of a port's staging: HOSTA 0, HOSTB 1, chain 2, cores 3, JTAG 4. -/
def stageOf : Requester → Nat
  | .hostA => 0
  | .hostB => 1
  | .chain => 2
  | .core _ => 3
  | .jtag => 4

/-- The descriptor whose words 0 to 6 are staged and whose word 7 is written. -/
def Side.staged (d : Side) (r : Requester) (w7 : Word) : Desc :=
  BitVec.ofNat 256 (((List.range 7).map fun j =>
    ((d.strand.stage.find (stageOf r * 8 + j)).getD 0).toNat * 2 ^ (32 * j)).sum + w7.toNat * 2 ^ 224)

/-- The producer of the open item of a ring: who pushed the descriptors after the last complete item. -/
def Ring.openBy (r : Ring) : Option (Option Requester) := ((r.slots.drop r.ended).head?).map fun s => s.by_

/-- Descriptors of the open item. -/
def Ring.openLen (r : Ring) : Nat := r.slots.length - r.ended

/-- A descriptor pushed by a port or core: absorbed under R390; answered alone when it continues another port's item
(R495); a new FIRST or a fifth descriptor closes a broken item; else stored. -/
def Side.pushDesc (d : Side) (lt n : Nat) (r : Requester) (dd : Desc) : Side :=
  let q := d.ring n
  if q.absorb then d.updRing n fun q => { q with absorb := !dd.last }
  else
    let p : Push := { d := dd, data := none, by_ := some r, since := 0, raised := false }
    match q.openBy with
    | some who =>
      if dd.first = false ∧ who ≠ some r then
        let d1 := d.countStrand n Reg.STRAND_BAD_DESC
        d1.completion lt n 51 dd.tenant dd.service dd.group dd.tag
      else if dd.first ∨ 4 ≤ q.openLen then
        (d.updRing n fun q => { q with ended := q.slots.length }).push lt n p
      else d.push lt n p
    | none => d.push lt n p

/-- A write to PUSHj by a requester: staged, or at PUSH7 pushed, where the requester may produce for the strand
(R376, R384). -/
def Side.writePush (d : Side) (lt n : Nat) (r : Requester) (j : Nat) (v : Word) : Side :=
  if j < 7 then d.updStrand fun k => { k with stage := k.stage.put (stageOf r * 8 + j) v }
  else
    let may : Bool := match r with
      | .core _ => decide (d.strandDir n ≠ 1)
      | _ => decide (d.strandDir n = 1)
    if d.strandOn n && may then d.pushDesc lt n r (d.staged r v) else d

/-- A BAR2 write to a place window: the cell attached to the place now, on places of enabled HOST_IN strands; bytes
beyond the cell are ignored (R377, R497). -/
def Side.writePlace (d : Side) (off : Nat) (bs : List Byte) : Side :=
  let g := off / 0x1000
  let at_ := off % 0x1000
  match d.strand.rings.find? fun e => decide (d.strandDir e.1 = 1) && d.strandOn e.1 && e.2.places.contains g with
  | none => d
  | some (_, r) =>
    let p := (r.places.findIdx? fun q => decide (q = g)).getD 0
    let c := r.cells.getD p 0
    if at_ < 2112 then d.setCell c (overwrite (d.strand.cellData c) at_ (bs.take (2112 - at_))) else d

/-! ## Enabling and disabling (R375) -/

/-- Places taken by every enabled strand and every strand being disabled. -/
def StrandState.depthSum (k : StrandState) : Nat := (k.rings.map fun e => e.2.places.length).sum

/-- A write to CFG of the selected strand: EN is set with its places and cells, or refused with DEPTH_OVER; EN is
cleared, with the items it holds following R457; the other fields take the write only while EN is 0. -/
def Side.writeStrandCfg (d : Side) (lt n : Nat) (v : Word) : Side :=
  let depth := clampNat 4 1024 (fld v 26 16)
  let v1 := setFld (w32 (v.toNat &&& 0x87FF3F07)) 26 16 depth
  let put (d : Side) (v : Word) : Side := { d with regs := wrI d.regs Pg.STRAND Reg.STRAND_CFG n v }
  if d.strandOn n then
    if bitOf v 31 then d
    else
      let off := setBit (d.strandCfg n) 31 false
      let d1 := put d off
      let d2 := d1.updRing n fun r => { r with closing := true }
      if d2.strandDir n = 1 then
        let d3 := d2.updRing n fun r => { r with stalled := [] }
        d3.cmdFlush lt n
      else d2.finishClose n
  else if (d.ring n).closing then
    if bitOf v 31 then (put d (setBit (d.strandCfg n) 31 true)).updRing n fun r => { r with closing := false } else d
  else if bitOf v 31 then
    let hostIn : Bool := decide (fld v 1 0 = 1)
    if 2048 < d.strand.depthSum + depth ∨ (hostIn ∧ d.strand.cellsFree < depth) then d.err Pg.STRAND 0
    else
      let free := (List.range 2048).filter fun g => !d.strand.placesUsed.contains g
      let places := takePlaces d.strand.picks depth free
      let cs := if hostIn then d.takeCells depth else ([], d)
      (put cs.2 v1).updStrand fun k =>
        { k with rings := k.rings.put n { Ring.reset with places := places, cells := cs.1 }, picks := k.picks + depth }
  else put d v1

/-! ## Loss markers (R453 to R456) -/

/-- A loss marker. -/
def lossDesc (code tenant service group tag key seq : Nat) : Desc :=
  itemDesc tyLoss code 0 tenant service group tag key ||| mkDesc [(24, 0, seq % 2 ^ 64)]

/-- A loss marker falls due: counted; LOSS_WAIT if it is due on a LOSS_STRAND that is not enabled (R453, R456). -/
def Side.markDue (d : Side) (m : LossMark) : Side :=
  let d1 := { d with reports := d.reports ++ [Report.lossMarker] }
  let d2 := if d1.strandOn m.strand ∨ m.strand ≠ rf d.view.regs Pg.ERR Reg.ERR_CFG 5 0 then d1
    else { d1 with reports := d1.reports ++ [Report.lossWait] }
  d2.updStrand fun k => { k with marks := k.marks ++ [m] }

/-- The held deliveries of a flow pushed in their order (R455). -/
def Side.releaseFlow (d : Side) (lt flow : Nat) : Side :=
  let mine := d.strand.held.filter fun h => decide (h.flow = flow)
  let d1 := d.updStrand fun k => { k with held := k.held.filter fun h => !decide (h.flow = flow) }
  mine.foldl (fun d h => if d.strandOn h.strand then d.pushUnit lt h.strand h.d h.data else d.disDrop) d1

/-- The oldest due loss marker whose strand has a free place is pushed, and its flow released unless another marker
of it waits (R455); the flow's CLEAR, if one is due, is the caller's. -/
def Side.pushMark (d : Side) (lt : Nat) : Option LossMark × Side :=
  match d.strand.marks.find? fun m => d.strandOn m.strand && d.placeFree m.strand && (d.ring m.strand).stalled.isEmpty with
  | none => (none, d)
  | some m =>
    let d1 := d.updStrand fun k => { k with marks := k.marks.erase m }
    let d2 := d1.pushUnit lt m.strand m.d none
    (some m, if d2.strand.marks.any fun x => decide (x.flow = m.flow) then d2 else d2.releaseFlow lt m.flow)

end Sys2Proof.Machine
end

