-- ==== Sys2Proof/Machine/Keys.lean ====
section
/-! DEFINITION. Locket, Filigree and Hallmark: the root, the key tree, installed keys, masked storage, the key cache,
the key commands and the update messages (chapter 8, R300 to R305). -/

namespace Sys2Proof.Machine

open Sys2Proof

/-! ## Masks (R268) -/

/-- The keys of a side changed. -/
def Side.updKey (d : Side) (f : KeyState → KeyState) : Side := { d with key := f d.key }

/-- MRAM of a side changed. -/
def Side.updMram (d : Side) (f : MramState → MramState) : Side := { d with mram := f d.mram }

/-- The mask of a place in the pass of a key: slots are places 0 to 2,047, cache entries follow. PRESUMED: a key
longer than one block repeats it. -/
def maskOf (mp : List Byte) (place n : Nat) : List Byte :=
  ((List.replicate 4 (aesEnc mp (beBytes 16 place))).flatten).take n

/-- A key masked or unmasked at a place. -/
def KeyState.mask (k : KeyState) (place : Nat) (key : List Byte) : List Byte := xorB key (maskOf k.mp place key.length)

/-- The place of a cache entry. -/
def cachePlace (i : Nat) : Nat := 2048 + i

/-- Every stored key re-masked for a new pass (R269). -/
def KeyState.remask (k : KeyState) (mp : List Byte) : KeyState :=
  let k1 := { k with mp := mp }
  { k1 with
    slots := k.slots.map fun e => (e.1, { e.2 with key := k1.mask e.1 (k.mask e.1 e.2.key) })
    cache := k.cache.map fun e => (e.1, { e.2 with key := k1.mask (cachePlace e.1) (k.mask (cachePlace e.1) e.2.key) })
    flights := k.flights.map fun e => { e with entry.key := k1.mask 0 (k.mask 0 e.entry.key) } }

/-! ## Generations (R275, R277) -/

/-- A generation advanced; one that would wrap becomes 1, and the second component says so. -/
def nextGen (g : Nat) : Nat × Bool := if g = 2 ^ 32 - 1 then (1, true) else (g + 1, false)

/-- The cache cleared by a generation's wrap. -/
def Side.genWrap (d : Side) (wrapped : Bool) : Side :=
  if wrapped then (d.updKey fun k => { k with cache := [], flights := [] }).err Pg.FILIG 0 else d

/-- SLOT_GEN of a slot. -/
def Side.slotGen (d : Side) (n : Nat) : Nat := (d.mram.slotGens.find n).getD 0

/-- SLOT_GEN advanced. -/
def Side.bumpSlotGen (d : Side) (n : Nat) : Side :=
  let g := nextGen (d.slotGen n)
  (d.updMram fun m => { m with slotGens := m.slotGens.put n g.1 }).genWrap g.2

/-- TEN_GEN of a tenant. -/
def Side.tenGen (d : Side) (t : Nat) : Nat := (d.key.tenGens.find t).getD 0

/-- TEN_GEN advanced. -/
def Side.bumpTenGen (d : Side) (t : Nat) : Side :=
  let g := nextGen (d.tenGen t)
  (d.updKey fun k => { k with tenGens := k.tenGens.put t g.1 }).genWrap g.2

/-! ## The root (R253 to R261, R281) -/

/-- Zeroization (R281). -/
def Side.zeroize (d : Side) : Side :=
  let g := nextGen d.key.devGen
  ((d.updKey fun k =>
    { k with root := none, kek := [], ids := [], testRoot := false, loaded := false, keyless := true, slots := [],
             mp := zeros 16, cache := [], flights := [], devGen := g.1 }).genWrap g.2).count Pg.LOCKET Reg.LOCKET_ZEROIZE

/-- The label octets of the key tree. -/
def labelKek : List Byte := [0x4B#8, 0x45#8, 0x4B#8]
/-- "IDS". -/
def labelIds : List Byte := [0x49#8, 0x44#8, 0x53#8]
/-- "NET". -/
def labelNet : List Byte := [0x4E#8, 0x45#8, 0x54#8]
/-- "DID". -/
def labelDid : List Byte := [0x44#8, 0x49#8, 0x44#8]

/-- The Hallmark counter: the greatest value in the ring, or the test counter while Loupe is open (R304, R305). -/
def Side.hallCtr (d : Side) : Nat := if d.key.loupe then d.key.testCtr else d.mram.ring.foldl max 0

/-- A payload as a slot: the layout of R301, or none when step 8 of the table "Update checks" refuses it. -/
def payloadSlot (p : List Byte) : Option KeySlot :=
  let ty := byteAt p 0
  let klen := p.length - 8
  let tw := beNat (slice p 2 2)
  if ((ty = 1 ∧ klen = 16) ∨ (ty = 2 ∧ klen = 32) ∨ (ty = 3 ∧ klen = 64)) ∧ byteAt p 1 < 128 ∧ byteAt p 4 < 128 ∧
      (tw / 1024) % 32 = 0 ∧ beNat (slice p 5 3) = 0 then
    some { ty := ty, attr := byteAt p 1, tenant := tw % 1024, any := nbit tw 15, dattr := byteAt p 4, key := p.drop 8 }
  else none

/-- A slot filled, its key masked. -/
def Side.fillSlot (d : Side) (n : Nat) (k : KeySlot) : Side :=
  d.updKey fun ks => { ks with slots := ks.slots.put n { k with key := ks.mask n k.key } }

/-- One wrapped slot image loaded, or its slot left empty; an image of the test root that fails under the production root is
discarded (R260, R267). -/
def Side.loadImage (d : Side) (e : Nat × (Nat × List Byte)) : Side :=
  match (kwUnwrap d.key.kek e.2.2).bind payloadSlot with
  | some k => d.fillSlot e.1 k
  | none =>
    let d1 := d.count Pg.LOCKET Reg.LOCKET_UNWRAP_FAIL
    if d.key.testRoot = false ∧ d.mram.testImages.contains e.1 then
      d1.updMram fun m => { m with keyImages := m.keyImages.del e.1, testImages := m.testImages.filter (· ≠ e.1) }
    else d1

/-- The installed keys are loaded from their images under a valid root (R259, R260, R267). -/
def Side.loadSlots (d : Side) : Side :=
  if d.key.root.isSome && !d.key.loaded then
    d.mram.keyImages.foldl Side.loadImage (d.updKey fun k => { k with loaded := true })
  else d

/-- A root becomes valid: the level 1 keys are computed (R262, R263, R275). -/
def Side.takeRoot (d : Side) (root : List Byte) (test : Bool) : Side :=
  d.updKey fun k =>
    { k with root := some root, kek := kdf root labelKek [] 256, ids := kdf root labelIds [] 256, testRoot := test,
             rootFail := false, keyless := false, devGen := 1, loaded := false }

/-! ## The PUF (R253 to R257) -/

/-- LOCKET_x goes off: the root, the level 1 keys and the slots are lost. DESIGN CHOICE: the masks are kept with their entries. -/
def Side.locketOff (d : Side) : Side :=
  d.updKey fun k =>
    { k with root := none, kek := [], ids := [], testRoot := false, rootFail := false, loaded := false, keyless := true
             slots := [], puf := none, pufDue := true }

/-- LOCKET_x powers up: the region takes the pattern of this power-up. -/
def Side.locketUp (d : Side) : Side :=
  (d.updKey fun k => { k with puf := some d.mram.pufUps, pufDue := true }).updMram fun m => { m with pufUps := m.pufUps + 1 }

/-- Blocks of 255 bits that a region of 16 KiB holds. -/
def pufBlocks : Nat := 514

/-- A block of the response of a side's region at a power-up. -/
def pufWord (x : SideId) (up b : Nat) : Nat := Config.pufBlock x.num up b % 2 ^ 255

/-- The codeword of a message of 131 bits. -/
def codeword (m : Nat) : Nat := Config.bchCode (m % 2 ^ 131) % 2 ^ 255

/-- Bits in which two blocks differ. -/
def bitErrors (a b : Nat) : Nat := (bitsBelow (a ^^^ b) 255).length

/-- The first number from one on, of so many, with a property. -/
def firstFrom (p : Nat → Bool) : Nat → Nat → Option Nat
  | 0, _ => none
  | fuel + 1, n => if p n then some n else firstFrom p fuel (n + 1)

/-- The message whose codeword lies within 18 errors of a block, and how many were corrected (R254). -/
def bchDecode (w : Nat) : Option (Nat × Nat) :=
  (firstFrom (fun m => decide (bitErrors (codeword m) w ≤ 18)) (2 ^ 131) 0).map fun m => (m, bitErrors (codeword m) w)

/-- A bit of a root, the first octet's most significant bit first. -/
def rootBit (root : List Byte) (i : Nat) : Bool := nbit (byteAt root (i / 8)) (7 - i % 8)

/-- Copies of each root bit: as many as the messages hold, an odd number. -/
def rootCopies : Nat := 263

/-- The message of a block: its part of the root repeated end to end (DESIGN CHOICE: the spec says "with repetition"). -/
def rootMessage (root : List Byte) (b : Nat) : Nat :=
  (List.range 131).foldl (fun n j =>
    setNBit n j (decide (131 * b + j < 256 * rootCopies) && rootBit root ((131 * b + j) % 256))) 0

/-- The helper data of a side for a root: its response of a power-up XORed with the codewords (R257). -/
def helperOf (x : SideId) (up : Nat) (root : List Byte) : Helper :=
  { blocks := (List.range pufBlocks).map fun b => pufWord x up b ^^^ codeword (rootMessage root b)
    check := Config.rootCheck root % 2 ^ 32 }

/-- What the blocks of a read decode to: the messages, and the largest number of errors corrected (R254, R255). -/
def pufMessages (x : SideId) (up : Nat) (h : Helper) : List Nat × Nat :=
  let ws := h.blocks.zipIdx.map fun e => e.1 ^^^ pufWord x up e.2
  (ws.map fun w => ((bchDecode w).map (·.1)).getD (Config.bchMiss w % 2 ^ 131),
   (ws.filterMap fun w => (bchDecode w).map (·.2)).foldl max 0)

/-- The root by majority over the copies of each bit (R254). -/
def majorityRoot (ms : List Nat) : List Byte :=
  let copy (i c : Nat) : Bool := nbit (ms.getD ((i + 256 * c) / 131) 0) ((i + 256 * c) % 131)
  let bit (i : Nat) : Bool := decide (rootCopies < 2 * ((List.range rootCopies).filter (copy i)).length)
  (List.range 32).map fun o => b8 ((List.range 8).foldl (fun n j => 2 * n + b2n (bit (8 * o + j))) 0)

/-- No root is valid: no level 1 key, no installed key, KEYLESS (R256). -/
def KeyState.rootless (k : KeyState) : KeyState :=
  { k with root := none, kek := [], ids := [], testRoot := false, loaded := false, slots := [], keyless := true }

/-- The reconstruction fails, or there is no helper data (R256). -/
def Side.rootFails (d : Side) : Side := (d.updKey fun k => { k.rootless with rootFail := true }).err Pg.LOCKET 1

/-- MAX_ERR of a reconstruction, whether it succeeds or not, and PUF_MARGIN above its limit (R255). -/
def Side.noteErrors (d : Side) (e : Nat) : Side :=
  let d1 := d.updKey fun k => { k with maxErr := e }
  if rf d1.regs Pg.LOCKET Reg.LOCKET_PUF_MARGIN 4 0 < e then { d1 with regs := setEvt d1.regs Pg.LOCKET 0 } else d1

/-- The root is reconstructed from a power-up's response and the helper data: valid if its check value is the one of the helper
data (R254 to R256). -/
def Side.reconstruct (d : Side) (x : SideId) (up : Nat) (h : Helper) : Side :=
  let r := pufMessages x up h
  let root := majorityRoot r.1
  let d1 := d.noteErrors r.2
  if Config.rootCheck root % 2 ^ 32 = h.check then d1.takeRoot root false else d1.rootFails

/-- Locket reads its PUF region, once after a power-up, fills it with zeros and reconstructs the root; `blocked`: the tamper checks
before it do not pass, and nothing is read (R253 to R256). -/
def Side.readPuf (d : Side) (x : SideId) (blocked : Bool) : Side :=
  let d0 := d.updKey fun k => { k with pufDue := false }
  if blocked then d0.updKey KeyState.rootless
  else match d0.key.puf with
    | none => d0
    | some up =>
      let d1 := d0.updKey fun k => { k with puf := none }
      match d1.mram.helper with
      | none => d1.rootFails
      | some h => d1.reconstruct x up h

/-- The test root of R259. -/
def testRoot : List Byte := List.replicate 32 0x5A#8

/-- The low 32 bits of a digest: its last four octets, the first of them most significant (R258, R358). -/
def low32 (bs : List Byte) : Nat := beNat (bs.drop (bs.length - 4))

/-- A side writes ROOT_CHECK and its ROOT_OK after reconstruction (R258). -/
def Side.reportRoot (d : Side) : Side :=
  match d.key.root with
  | some r => (d.emit (.regWrite Pg.BEZEL Reg.BEZEL_ROOT_CHECK (w32 (low32 (cmac r (zeros 16)))) 15)).emit
      (.rootOk true)
  | none => (d.emit (.regWrite Pg.BEZEL Reg.BEZEL_ROOT_CHECK 0 15)).emit (.rootOk false)

/-- HALL.ID, as 16 octets in output order; zero while KEYLESS (R300). -/
def Side.hallId (d : Side) : List Byte :=
  if d.key.keyless ∨ d.key.root.isNone then zeros 16 else kdf d.key.ids labelDid [] 128

/-! ## TRNG words (R18, R603) -/

/-- How many words a draw takes. -/
def DrawFor.words : DrawFor → Nat
  | .txSeq | .relay => 1
  | .remask => 2
  | .enrol => 4

/-- Words as octets, most significant first. -/
def wordOctets (ws : List Word64) : List Byte := (ws.map fun w => beBytes 8 w.toNat).flatten

/-- The back-off of R208 from a TRNG word, ns. -/
def Side.backoff (d : Side) (w : Word64) : Nat :=
  let lo := rf d.regs Pg.DML Reg.DML_BACKOFF 7 0
  let hi := max lo (min 10000 (rf d.regs Pg.DML Reg.DML_BACKOFF 23 8))
  1000 * (1000 * lo + (w.toNat % 2 ^ 32) % (1000 * (hi - lo) + 1))

/-- The first scheduled flood without a back-off takes one (R208). -/
def setBackoff (b : Nat) : List Relay → List Relay
  | [] => []
  | r :: t => if r.due.isSome then r :: setBackoff b t else { r with due := some (r.f.rx.endLt + b) } :: t

/-- A draw has all its words: TX_SEQ and TX_TAG start from theirs (R214), a flood falls due (R208), every stored key is re-masked
(R269), helper data are written (R257). -/
def Side.drawn (d : Side) (use : DrawFor) (ws : List Word64) : Side :=
  let n := (ws.headD 0).toNat
  match use with
  | .txSeq => { d with mesh := { d.mesh with seqLoaded := true, txSeq := n % 65536, txTag := n / 65536 % 65536 } }
  | .relay => { d with mesh := { d.mesh with relays := setBackoff (d.backoff (ws.headD 0)) d.mesh.relays } }
  | .remask => (d.updKey fun k => k.remask (wordOctets ws)).count Pg.LOCKET Reg.LOCKET_REMASK_PASSES
  | .enrol => d.updKey fun k => { k with enrolled := some (wordOctets ws) }

/-- The draws that wait take the words that are there, each in turn: the oldest draw first, until it has all of its words, so that
no later draw takes a word before it (R603). -/
def Side.serveDraws (d : Side) : Nat → Side
  | 0 => d
  | fuel + 1 => match d.draws, d.trng with
    | q :: rest, w :: t =>
      let got := q.got ++ [w]
      let d1 : Side :=
        if got.length < q.use.words then { d with trng := t, draws := { use := q.use, got := got } :: rest }
        else Side.drawn { d with trng := t, draws := rest } q.use got
      d1.serveDraws fuel
    | _, _ => d

/-- Work of a side calls for TRNG words; it takes those that are there, and waits for the others (R603). -/
def Side.ask (d : Side) (use : DrawFor) : Side :=
  Side.serveDraws { d with draws := d.draws ++ [{ use := use, got := [] }] } d.trng.length

/-- A draw for a use still waits for words. -/
def Side.waitsFor (d : Side) (use : DrawFor) : Bool := d.draws.any fun q => decide (q.use = use)

/-- A TRNG word joins the buffer of 256 words, whose oldest word gives way; what waits for words draws (R603). -/
def Side.takeWord (d : Side) (w : Word64) : Side :=
  let l := d.trng ++ [w]
  let l1 := l.drop (l.length - 256)
  Side.serveDraws { d with trng := l1 } l1.length

/-! ## Derivation and the cache (R262 to R274) -/

/-- Key request status. -/
def keyOk : Nat := 0
/-- NO_MAP. -/
def keyNoMap : Nat := 1
/-- EMPTY. -/
def keyEmpty : Nat := 2
/-- TENANT. -/
def keyTenant : Nat := 3
/-- NOT_PERMITTED. -/
def keyNotPermitted : Nat := 4
/-- NO_ROOT. -/
def keyNoRoot : Nat := 5

/-- The slot of a tenant's root, or the status that refuses a derivation for it (R264). -/
def Side.tenantRoot (d : Side) (t : Nat) : Except Nat (Nat × KeySlot) :=
  let m := rdI d.regs Pg.FILIG Reg.FILIG_TEN_MAP t
  let n := fld m 10 0
  if d.key.root.isNone then .error keyNoRoot
  else if bitOf m 31 = false then .error keyNoMap
  else match d.key.slots.find n with
    | none => .error keyEmpty
    | some k =>
      if k.any = false ∧ k.tenant ≠ t then .error keyTenant
      else if nbit k.attr 0 = false ∨ k.ty = 3 then .error keyNotPermitted
      else .ok (n, k)

/-- The set of a key (R270). -/
def cacheSet (kind tenant epoch eui : Nat) : Nat :=
  crc32c ([b8 kind] ++ beBytes 2 tenant ++ [b8 epoch] ++ beBytes 8 eui) % 4096

/-- An entry is for a key. -/
def CacheEntry.is (e : CacheEntry) (kind tenant epoch eui : Nat) : Bool :=
  decide (e.kind = kind) && decide (e.tenant = tenant) && decide (e.epoch = epoch) && decide (e.eui = eui)

/-- An entry's generations are the current ones for its tenant and a slot (R270). -/
def Side.current (d : Side) (slot : Nat) (e : CacheEntry) : Bool :=
  decide (e.devGen = d.key.devGen) && decide (e.slotGen = d.slotGen slot) && decide (e.tenGen = d.tenGen e.tenant) &&
  decide (e.slot = slot)

/-- The places of a key's set that hold an entry. -/
def KeyState.setEntries (k : KeyState) (set : Nat) : List (Nat × CacheEntry) :=
  (List.range 4).filterMap fun w => (k.cache.find (set * 4 + w)).map fun e => (set * 4 + w, e)

/-- A derived key inserted: the stale or matching entry of its key, an empty or stale way, else the least recently
used way (R271). -/
def Side.insertKey (d : Side) (e : CacheEntry) : Side :=
  let set := cacheSet e.kind e.tenant e.epoch e.eui
  let es := d.key.setEntries set
  let stale (x : Nat × CacheEntry) : Bool := !d.current x.2.slot x.2
  let free := (List.range 4).find? fun w => (d.key.cache.find (set * 4 + w)).isNone
  let spot : Nat × Bool :=
    match es.find? fun x => x.2.is e.kind e.tenant e.epoch e.eui with
    | some x => (x.1, false)
    | none => match free with
      | some w => (set * 4 + w, false)
      | none => match es.find? stale with
        | some x => (x.1, false)
        | none => (es.foldl (fun b x => if x.2.stamp < ((d.key.cache.find b).map fun y => y.stamp).getD (2 ^ 64)
                                        then x.1 else b) (set * 4), true)
  let d1 := d.updKey fun k =>
    let key := k.mask (cachePlace spot.1) (k.mask 0 e.key)
    let cache := k.cache.put spot.1 { e with key := key, stamp := k.stamps }
    { k with cache := cache, stamps := k.stamps + 1, cachePeak := max k.cachePeak cache.length }
  if spot.2 then d1.count Pg.FILIG Reg.FILIG_EVICT else d1

/-- The oldest derivation in flight completes: its result is inserted (R273, R276). -/
def Side.completeFlight (d : Side) : Side :=
  match d.key.flights with
  | [] => d
  | e :: t => (d.updKey fun k => { k with flights := t }).insertKey e.entry

/-- A key operation of a frame waits for a derivation (R272, R273). -/
def Side.keyPending (d : Side) (seq : Nat) : Bool := d.key.flights.any fun f => f.uses.contains seq

/-- A frame's request waits for the derivation of its key that is in flight (R272). -/
def Side.joinFlight (d : Side) (use : Option Nat) (kind t epoch eui : Nat) : Side :=
  match use with
  | none => d
  | some n => d.updKey fun k =>
    { k with flights := k.flights.map fun f => if f.entry.is kind t epoch eui then { f with uses := f.uses ++ [n] } else f }

/-- A derivation starts: counted, and in flight unless the cache is off. Its key is kept masked as place 0. -/
def Side.startFlight (d : Side) (use : Option Nat) (e : CacheEntry) : Side :=
  let d1 := d.count Pg.FILIG Reg.FILIG_DERIVE
  if rb d1.regs Pg.FILIG Reg.FILIG_CFG 0 then
    let lim := max 1 (rf d1.regs Pg.FILIG Reg.FILIG_DERIV_MAX 4 0)
    let d2 := if lim ≤ d1.key.flights.length then d1.completeFlight else d1
    d2.updKey fun k => { k with flights := k.flights ++ [{ entry := { e with key := k.mask 0 e.key }, uses := use.toList }] }
  else d1

/-- A key found in the cache or in flight, in the clear, with its attributes (R270, R272). -/
def Side.findKey (d : Side) (slot kind tenant epoch eui : Nat) : Option (List Byte × Nat × Option Nat) :=
  if rb d.regs Pg.FILIG Reg.FILIG_CFG 0 = false then none
  else
    let good (e : CacheEntry) : Bool := e.is kind tenant epoch eui && d.current slot e
    match (d.key.setEntries (cacheSet kind tenant epoch eui)).find? fun x => good x.2 with
    | some x => some (d.key.mask (cachePlace x.1) x.2.key, x.2.attr, some x.1)
    | none => (d.key.flights.find? fun f => good f.entry).map fun f => (d.key.mask 0 f.entry.key, f.entry.attr, none)

/-- A stale entry of the key stands in its set. -/
def Side.staleKey (d : Side) (slot kind tenant epoch eui : Nat) : Bool :=
  rb d.regs Pg.FILIG Reg.FILIG_CFG 0 &&
  (d.key.setEntries (cacheSet kind tenant epoch eui)).any fun x => x.2.is kind tenant epoch eui && !d.current slot x.2

/-- Use order updated by a hit. -/
def Side.touch (d : Side) (place : Option Nat) : Side :=
  match place with
  | none => d
  | some i => match d.key.cache.find i with
    | none => d
    | some e => d.updKey fun k => { k with cache := k.cache.put i { e with stamp := k.stamps }, stamps := k.stamps + 1 }

/-- A hit: use order updated in the cache, or the derivation in flight joined (R271, R272). -/
def Side.hitKey (d : Side) (place use : Option Nat) (kind t epoch eui : Nat) : Side :=
  match place with
  | some _ => d.touch place
  | none => d.joinFlight use kind t epoch eui

/-- A tenant network key, found or derived (R263, R271): its octets and attributes. -/
def Side.netKey (d : Side) (use : Option Nat) (slot : Nat) (k : KeySlot) (t epoch : Nat) : List Byte × Nat × Bool × Side :=
  match d.findKey slot 1 t epoch 0 with
  | some (key, attr, place) => (key, attr, true, d.hitKey place use 1 t epoch 0)
  | none =>
    let key := kdf (d.key.mask slot k.key) (labelNet ++ [b8 epoch]) (beBytes 2 t) 128
    let e : CacheEntry := { kind := 1, tenant := t, epoch := epoch, eui := 0, attr := k.dattr, devGen := d.key.devGen,
                            slotGen := d.slotGen slot, tenGen := d.tenGen t, slot := slot, key := key, stamp := 0 }
    (key, k.dattr, false, d.startFlight use e)

/-- A node link key derived from its network key (R263, R266). -/
def Side.linkKey (d : Side) (use : Option Nat) (slot : Nat) (net : List Byte) (attr t epoch eui : Nat) : List Byte × Side :=
  let key := kdf net (beBytes 8 eui ++ [b8 epoch]) (beBytes 2 t) 128
  let e : CacheEntry := { kind := 2, tenant := t, epoch := epoch, eui := eui, attr := setNBit attr 0 false,
                          devGen := d.key.devGen, slotGen := d.slotGen slot, tenGen := d.tenGen t, slot := slot,
                          key := key, stamp := 0 }
  (key, d.startFlight use e)

/-- A key request of the pipeline (R264, R270 to R274) for the frame of an input: `eui` none for the network key; `op` the
attribute bit of the operation it is for. -/
def Side.keyRequest (d : Side) (seq t epoch : Nat) (eui : Option Nat) (op : Nat) : Except Nat (List Byte) × Side :=
  let d0 := d.count Pg.FILIG Reg.FILIG_REQ
  let refuse (d : Side) (st : Nat) : Except Nat (List Byte) × Side := (.error st, d.count Pg.FILIG Reg.FILIG_REFUSED)
  match d0.tenantRoot t with
  | .error st => refuse d0 st
  | .ok (slot, k) =>
    let kind := if eui.isSome then 2 else 1
    let id := eui.getD 0
    match d0.findKey slot kind t epoch id with
    | some (key, attr, place) =>
      let d1 := (d0.hitKey place (some seq) kind t epoch id).count Pg.FILIG Reg.FILIG_HIT
      if nbit attr op then (.ok key, d1) else refuse d1 keyNotPermitted
    | none =>
      let d1 := d0.count Pg.FILIG Reg.FILIG_MISS
      let d2 := if d0.staleKey slot kind t epoch id then d1.count Pg.FILIG Reg.FILIG_STALE else d1
      let net := d2.netKey (some seq) slot k t epoch
      match eui with
      | none => if nbit net.2.1 op then (.ok net.1, net.2.2.2) else refuse net.2.2.2 keyNotPermitted
      | some e =>
        if nbit net.2.1 0 = false then refuse net.2.2.2 keyNotPermitted
        else
          let l := net.2.2.2.linkKey (some seq) slot net.1 net.2.1 t epoch e
          if nbit net.2.1 op then (.ok l.1, l.2) else refuse l.2 keyNotPermitted

/-! ## Key commands (R279, R280) -/

/-- A command's answer counted (R242, R279). -/
def Side.countCmd (d : Side) (page ok fail status : Nat) : Side := d.count page (if status = 0 then ok else fail)

/-- KEY_INFO: TYPE, ATTR, TENANT, ANY, DATTR, SLOT_GEN. -/
def Side.cmdKeyInfo (d : Side) (a : List Byte) : Nat × List Byte × Side :=
  let n := leAt a 0 2
  if 2048 ≤ n then (6, [], d)
  else if d.key.root.isNone then (5, [], d)
  else match d.key.slots.find n with
    | none => (1, [], d)
    | some k => (0, [b8 k.ty, b8 k.attr] ++ leBytes 2 k.tenant ++ [b8 (b2n k.any), b8 k.dattr] ++ leBytes 4 (d.slotGen n), d)

/-- KEY_INVALIDATE. -/
def Side.cmdKeyInvalidate (d : Side) (a : List Byte) : Nat × List Byte × Side :=
  let n := leAt a 0 2
  if 2048 ≤ n then (6, [], d) else (0, [], d.bumpSlotGen n)

/-- TEN_INVALIDATE. -/
def Side.cmdTenInvalidate (d : Side) (a : List Byte) : Nat × List Byte × Side :=
  let t := leAt a 0 2
  if 1024 ≤ t then (6, [], d) else (0, [], d.bumpTenGen t)

/-- NODE_INVALIDATE: the node's link-key entries of every epoch cleared. -/
def Side.cmdNodeInvalidate (d : Side) (a : List Byte) : Nat × List Byte × Side :=
  let t := leAt a 0 2
  let eui := leAt a 2 8
  let mine (e : CacheEntry) : Bool := decide (e.kind = 2) && decide (e.tenant = t) && decide (e.eui = eui)
  if 1024 ≤ t then (6, [], d)
  else (0, [], d.updKey fun k => { k with cache := k.cache.filter fun e => !mine e.2,
                                          flights := k.flights.filter fun e => !mine e.entry })

/-- CACHE_FLUSH. -/
def Side.cmdCacheFlush (d : Side) : Nat × List Byte × Side :=
  (0, [], d.updKey fun k => { k with cache := [], flights := [] })

/-- KEY_EXPORT: the key wrapped under the wrapping slot's key. The argument begins with an octet that names its form:
0 a slot, 1 a tenant and epoch, 2 a tenant, epoch and EUI-64 (DESIGN CHOICE: the spec names the forms only). -/
def Side.cmdKeyExport (d : Side) (a : List Byte) : Nat × List Byte × Side :=
  let form := byteAt a 0
  let n := leAt a 1 2
  let wrapSlot := if form = 0 then leAt a 3 2 else if form = 1 then leAt a 4 2 else leAt a 12 2
  let slotTy := ((d.key.slots.find n).map fun k => k.ty).getD 0
  if 2 < form ∨ (form = 0 ∧ (2048 ≤ n ∨ slotTy = 3)) ∨ (form ≠ 0 ∧ 1024 ≤ n) ∨ 2048 ≤ wrapSlot then (6, [], d)
  else if d.key.root.isNone then (5, [], d)
  else
    -- the key's octets, attributes and tenant, and whether a derivation that it needs is permitted (R266)
    let got : Except Nat (List Byte × Nat × Nat × Bool × Side) :=
      if form = 0 then match d.key.slots.find n with
        | some k => .ok (d.key.mask n k.key, k.attr, k.tenant, true, d)
        | none => .error 1
      else match d.tenantRoot n with
        | .error st => .error (if st = keyNotPermitted then 2 else if st = keyTenant then 3 else 1)
        | .ok (slot, k) =>
          let epoch := byteAt a 3
          if form = 1 then
            let net := d.netKey none slot k n epoch
            .ok (net.1, net.2.1, n, true, net.2.2.2)
          else match d.findKey slot 2 n epoch (leAt a 4 8) with
            | some f => .ok (f.1, f.2.1, n, true, d.hitKey f.2.2 none 2 n epoch (leAt a 4 8))
            | none =>
              let net := d.netKey none slot k n epoch
              let l := net.2.2.2.linkKey none slot net.1 net.2.1 n epoch (leAt a 4 8)
              .ok (l.1, setNBit net.2.1 0 false, n, nbit net.2.1 0, l.2)
    match d.key.slots.find wrapSlot, got with
    | none, _ => (1, [], d)
    | some _, .error st => (st, [], d)
    | some w, .ok (key, attr, tenant, derivable, d1) =>
      if nbit attr 6 = false then (4, [], d)
      else if nbit w.attr 4 = false ∨ w.ty = 3 ∨ derivable = false then (2, [], d)
      else if w.any = false ∧ w.tenant ≠ tenant then (3, [], d)
      else (0, kwWrap (d.key.mask wrapSlot w.key) key, d1)

/-! ## Update messages (R301 to R305) -/

/-- What an update message asks for once it has passed every check: operation, target, counter, payload. -/
structure Update where
  op : Nat
  target : Nat
  counter : Nat
  payload : List Byte
  slot : Option KeySlot
  deriving DecidableEq, Repr

/-- The checks of the table "Update checks", in order; the error is the status of the first that fails. -/
def Side.checkUpdate (d : Side) (m : List Byte) : Except Nat Update :=
  let op := byteAt m 5
  let plen := beNat (slice m 32 2)
  let target := beNat (slice m 6 2)
  let counter := beNat (slice m 24 8)
  let payload := slice m 100 plen
  let lenOk : Bool := if op = 1 ∨ op = 2 then decide (plen = 32 ∨ plen = 48 ∨ plen = 80) else decide (plen = 0)
  if beNat (m.take 4) ≠ 0x4B4C554D ∨ byteAt m 4 ≠ 1 ∨ op = 0 ∨ 5 < op ∨ lenOk = false ∨ m.length < 164 + plen then .error 1
  else if d.key.root.isNone then .error 2
  else if slice m 8 16 ≠ d.hallId then .error 3
  else if sha256 (slice m 36 64) ≠ Config.opkHash then .error 4
  else if ecdsaOk (slice m 36 64) (slice m (100 + plen) 64) (m.take (100 + plen)) = false then .error 5
  else if counter ≤ d.hallCtr then .error 6
  else
    let clear := if plen = 0 then some [] else kwUnwrap d.key.kek payload
    match clear with
    | none => .error 7
    | some p =>
      let k := if plen = 0 then none else payloadSlot p
      let full := (d.key.slots.find target).isSome
      let ok : Bool := match op with
        | 1 => decide (target < 2048) && !full && k.isSome
        | 2 => decide (target < 2048) && full && k.isSome
        | 3 => decide (target < 2048) && full
        | 4 => decide (target = 0)
        | _ => decide (target < 1024)
      if ok ∧ beNat (slice m 34 2) = 0 then .ok { op := op, target := target, counter := counter, payload := payload, slot := k } else .error 8

/-- A message applied: the image, then the counter, then the slot and its generation, or the tenant's counter (R303 to
R305). -/
def Side.applyUpdate (d : Side) (u : Update) : Side :=
  let d1 := if u.op = 1 ∨ u.op = 2 then
      d.updMram fun m =>
        let others := m.testImages.filter (· ≠ u.target)
        { m with keyImages := m.keyImages.put u.target (u.counter, u.payload)
                 testImages := if d.key.testRoot then others ++ [u.target] else others }
    else if u.op = 3 then d.updMram fun m =>
      { m with keyImages := m.keyImages.del u.target, testImages := m.testImages.filter (· ≠ u.target) }
    else d
  let d2 := if d1.key.loupe then d1.updKey fun k => { k with testCtr := u.counter }
    else d1.updMram fun m => { m with ring := (m.ring ++ [u.counter]).drop (m.ring.length + 1 - 16) }
  if u.op = 1 ∨ u.op = 2 then
    match u.slot with
    | some k => (d2.fillSlot u.target k).bumpSlotGen u.target
    | none => d2
  else if u.op = 3 then (d2.updKey fun k => { k with slots := k.slots.del u.target }).bumpSlotGen u.target
  else if u.op = 5 then
    (d2.updKey fun k => { k with txfc := k.txfc.del u.target }).updMram fun m => { m with txfcMarks := m.txfcMarks.del u.target }
  else d2

/-- KEY_UPDATE (R302). -/
def Side.cmdKeyUpdate (d : Side) (m : List Byte) : Nat × List Byte × Side :=
  match d.checkUpdate m with
  | .ok u =>
    let d1 := (d.applyUpdate u).count Pg.HALL Reg.HALL_UPD_OK
    (0, [], d1.updKey fun k => { k with lastStatus := 0 })
  | .error st =>
    let d1 := d.count Pg.HALL Reg.HALL_UPD_REFUSED
    let d2 := if st = 6 then d1.count Pg.HALL Reg.HALL_UPD_REPLAY else d1
    (st, [], d2.updKey fun k => { k with lastStatus := st })

/-! ## Re-masking (R269) -/

/-- LT of the first multiple of REMASK_PER after a time. -/
def Side.nextRemask (d : Side) (lt : Nat) : Nat :=
  let per := 1000000 * (clampNat 50 1000 (rf d.regs Pg.LOCKET Reg.LOCKET_CFG 9 0))
  (lt / per + 1) * per

/-- A re-mask pass that has fallen due draws its two words; the next one follows at the first multiple of REMASK_PER after now. -/
def Side.remaskPass (d : Side) : Side :=
  if d.key.remaskNext ≤ d.now then (d.updKey fun k => { k with remaskNext := d.nextRemask d.now }).ask .remask else d

end Sys2Proof.Machine
end

