-- ==== Sys2Proof/Machine/Nodes.lean ====
section
/-! DEFINITION. Node table, EUI-64 index, learning, Sander, locks, table commands and the prefix CAM (chapter 7). -/

namespace Sys2Proof.Machine

open Sys2Proof

/-- Tables changed. -/
def Side.updNode (d : Side) (f : NodeState → NodeState) : Side := { d with node := f d.node }

/-! ## Placement (R228, R229) -/

/-- The two candidate buckets of a key's octets. -/
def buckets (seed : Nat) (key : List Byte) : Nat × Nat :=
  let h := crc32cFrom seed key
  let b1 := h % 32768
  let b2 := (h / 32768) % 32768
  (b1, if b1 = b2 then b2 ^^^ 1 else b2)

/-- HASH_SEED. -/
def Side.hashSeed (d : Side) : Nat := (rd d.regs Pg.NODE Reg.NODE_HASH_SEED).toNat

/-- The sixteen candidate places of a key. -/
def candidates (seed : Nat) (key : List Byte) : List Nat :=
  let b := buckets seed key
  (List.range 8).map (b.1 * 8 + ·) ++ (List.range 8).map (b.2 * 8 + ·)

/-- The place an insertion takes: the candidate bucket with more free ways, the first on a tie; which free way is a
free value; none when both buckets are full. -/
def freePlace (seed : Nat) (key : List Byte) (full : Nat → Bool) : Option Nat :=
  let b := buckets seed key
  let free (k : Nat) : List Nat := (List.range 8).filter fun w => !full (k * 8 + w)
  let f1 := free b.1
  let f2 := free b.2
  let c := if f1.length < f2.length then (b.2, f2) else (b.1, f1)
  if c.2.isEmpty then none else some (c.1 * 8 + c.2.getD (Config.pickWay c.1 (beNat key) % c.2.length) 0)

/-- The entry of a mesh ID, with its number. -/
def Side.nodeAt (d : Side) (mesh : Nat) : Option (Nat × NodeEntry) :=
  (candidates d.hashSeed (beBytes 4 mesh)).findSome? fun n => match d.node.nodes.find n with
    | some e => if e.mesh = mesh then some (n, e) else none
    | none => none

/-- The entry that holds an EUI-64, through the index. -/
def Side.nodeByEui (d : Side) (eui : Nat) : Option (Nat × NodeEntry) :=
  (candidates d.hashSeed (beBytes 8 eui)).findSome? fun i => (d.node.euis.find i).bind fun n =>
    match d.node.nodes.find n with
    | some e => if e.eui = eui then some (n, e) else none
    | none => none

/-- An entry changed in place; its index entry is not touched. -/
def Side.setNode (d : Side) (n : Nat) (f : NodeEntry → NodeEntry) : Side :=
  match d.node.nodes.find n with
  | some e => d.updNode fun k => { k with nodes := k.nodes.put n (f e) }
  | none => d

/-- Places for a new entry in the table and in the index. -/
def Side.placeNode (d : Side) (mesh eui : Nat) : Option (Nat × Nat) :=
  match freePlace d.hashSeed (beBytes 4 mesh) (fun n => (d.node.nodes.find n).isSome),
        freePlace d.hashSeed (beBytes 8 eui) (fun n => (d.node.euis.find n).isSome) with
  | some n, some i => some (n, i)
  | _, _ => none

/-- The index place of an EUI-64 whose entry has a number. -/
def Side.euiPlace (d : Side) (eui n : Nat) : Option Nat :=
  (candidates d.hashSeed (beBytes 8 eui)).find? fun i => decide (d.node.euis.find i = some n)

/-- An index entry removed. -/
def Side.dropEui (d : Side) (eui n : Nat) : Side :=
  match d.euiPlace eui n with
  | some i => d.updNode fun k => { k with euis := k.euis.del i }
  | none => d

/-- Frames are parked for a node (R227, R236). -/
def Side.hasParked (d : Side) (mesh : Nat) : Bool := d.pend.pool.any fun p => decide (p.f.node = mesh)

/-- The window record of R295 freed. -/
def Side.freeFcWin (d : Side) (mesh : Nat) : Side :=
  d.updKey fun k => { k with wins := k.wins.filter fun w => decide (w.mesh ≠ mesh) }

/-- An entry removed: table, index, lock slot and window record; a frame write that waits for it will be discarded
(R233, R241, R242, R295). -/
def Side.removeNode (d : Side) (n : Nat) : Side :=
  match d.node.nodes.find n with
  | none => d
  | some e =>
    let d1 := d.dropEui e.eui n
    (d1.updNode fun k =>
      { k with nodes := k.nodes.del n, locks := k.locks.filter fun l => decide (l.entry ≠ n)
               writes := k.writes.map fun w => if w.entry = some n then { w with gone := true } else w }).freeFcWin e.mesh

/-- The removal notice (R241, R393). -/
def Side.removalNotice (d : Side) (lt : Nat) (e : NodeEntry) : Side :=
  if rb d.regs Pg.SANDER Reg.SANDER_CFG 1 then
    d.pushUnit lt (rf d.regs Pg.SANDER Reg.SANDER_CFG 13 8)
      (itemDesc tyNotice 1 0 e.tenant 0 0 e.eui e.mesh ||| mkDesc [(24, 0, e.lastHeard)]) none
  else d

/-- Learned entries with a property (R238). -/
def Side.learnedCount (d : Side) (p : NodeEntry → Bool) : Nat :=
  (d.node.nodes.filter fun e => e.2.learned && p e.2).length

/-! ## Frame counters and locks (R234, R244, R294, R296) -/

/-- The lock slot of an entry. -/
def Side.lockOf (d : Side) (n : Nat) : Option LockSlot := d.node.locks.find? fun l => decide (l.entry = n)

/-- The greatest uplink counter of an entry: its own or its shadow. -/
def Side.ulFloor (d : Side) (n : Nat) (e : NodeEntry) : Nat := max e.ulFc (((d.lockOf n).map (·.ul)).getD 0)

/-- The greatest downlink counter of an entry: its own or its shadow. -/
def Side.dlLast (d : Side) (n : Nat) (e : NodeEntry) : Nat := max e.dlFc (((d.lockOf n).map (·.dl)).getD 0)

/-- A lock slot changed. -/
def Side.updLock (d : Side) (n : Nat) (f : LockSlot → LockSlot) : Side :=
  d.updNode fun k => { k with locks := k.locks.map fun l => if l.entry = n then f l else l }

/-- A downlink counter taken: by the shadow while the entry is locked, else by the entry (R244, R296). -/
def Side.takeDl (d : Side) (n c : Nat) : Side :=
  match d.node.nodes.find n with
  | some e => if e.lock then d.updLock n fun l => { l with dl := max l.dl c }
              else d.setNode n fun e => { e with dlFc := max e.dlFc c }
  | none => d

/-! ## The replay window (R295) -/

/-- Bits k at or above FC_WIN cleared. -/
def Side.winMask (d : Side) (m : Nat) : Nat := m % 2 ^ (min 32 (rf d.regs Pg.SEC Reg.SEC_CFG 5 0))

/-- A record written, freed when its mask is 0; a new one beyond 4,096 takes the place of the least recently used. -/
def Side.putFcWin (d : Side) (mesh mask : Nat) : Side :=
  let others := d.key.wins.filter fun w => decide (w.mesh ≠ mesh)
  let known : Bool := decide (others.length < d.key.wins.length)
  if mask = 0 then d.freeFcWin mesh
  else
    let full : Bool := !known && decide (4096 ≤ others.length)
    let oldest := others.foldl (fun b w => if w.stamp < b then w.stamp else b) (2 ^ 64)
    let kept := if full then others.filter fun w => decide (w.stamp ≠ oldest) else others
    let d1 := d.updKey fun k =>
      let wins := kept ++ [⟨mesh, mask, k.stamps⟩]
      { k with wins := wins, stamps := k.stamps + 1, winPeak := max k.winPeak wins.length }
    if full then d1.count Pg.SEC Reg.SEC_WIN_EVICT else d1

/-- The bits of the counters skipped between F and c, when F becomes c: bits 0 to c - F - 2. -/
def skippedBits (f c : Nat) : Nat := 2 ^ (min 32 (c - f - 1)) - 1

/-- A LINK frame's counter is written: the node's mask moves with F, or the bit of an older counter is cleared. -/
def Side.advanceFcWin (d : Side) (mesh f c : Nat) : Side :=
  if rf d.regs Pg.SEC Reg.SEC_CFG 5 0 = 0 then d
  else
    let old := d.key.wins.find? fun w => decide (w.mesh = mesh)
    if f < c then
      match old with
      | some w => d.putFcWin mesh (d.winMask ((w.mask * 2 ^ min 64 (c - f)) ||| skippedBits f c))
      | none => if c = f + 1 then d else d.putFcWin mesh (d.winMask (skippedBits f c))
    else match old with
      | some w => if c < f ∧ nbit w.mask (f - 1 - c) then d.putFcWin mesh (w.mask - 2 ^ (f - 1 - c)) else d
      | none => d

/-! ## Frame writes and learning (R227, R231 to R238, R243) -/

/-- An average moved toward a value by the weight 2^-n; the spec gives no rounding, so an inexact step rounds either
way, a free value (R227). -/
def averaged (n old new : Nat) : Nat :=
  let diff : Int := (new : Int) - old
  let q := diff / (2 ^ n : Nat)
  let up : Int := if diff % (2 ^ n : Nat) ≠ 0 ∧ Config.roundUp n old new then 1 else 0
  ((old : Int) + q + up).toNat

/-- LAST_HEARD of an SFD time. -/
def lastHeardOf (sfd : Nat) : Nat := (sfd / 2 ^ 20) % 2 ^ 32

/-- The writes of R227 on an entry; only a LINK frame offers its counter (R292). -/
def hitEntry (k : Nat) (f : UpFrame) (e : NodeEntry) : NodeEntry :=
  let e1 := { e with hit := true, age := 0, port := f.rx.port.num, lastHeard := lastHeardOf f.rx.sfdLt,
                     ulFc := max e.ulFc f.fc }
  if f.dml.hops ≠ 0 then e1
  else
    let e2 := { e1 with rssi := averaged k e.rssi f.rx.rssi, lqi := averaged k e.lqi f.rx.lqi }
    if e.prefPin then e2
    else { e2 with prefPort := f.rx.port.num, prefChan := f.rx.channel, prefMode := f.rx.mode }

/-- A frame write applied to an entry that stands: discarded while locked, with the shadow advanced (R243, R244). -/
def Side.hitNode (d : Side) (n : Nat) (e : NodeEntry) (f : UpFrame) : Side :=
  let d1 := if f.link then d.advanceFcWin e.mesh (d.ulFloor n e) f.fc else d
  if e.lock then
    (d1.updLock n fun l => { l with ul := max l.ul f.fc }).count Pg.NODE Reg.NODE_HIT_LOCKED
  else d1.setNode n (hitEntry (rf d1.regs Pg.NODE Reg.NODE_LINK_AVG 2 0) f)

/-- The refusals of learning, in the order of the table "Learning checks": the counter and the bit of the action
field in NODE.CFG. -/
def Side.learnRefusal (d : Side) (f : UpFrame) : Option (Nat × Nat) :=
  let p := f.rx.port.num
  if rb d.regs Pg.NODE Reg.NODE_CFG 0 = false then some (Reg.NODE_LEARN_OFF, 4)
  else if f.dml.hops ≠ 0 ∨ f.srcExt = false then some (Reg.NODE_NOT_LEARNABLE, 4)
  else if (d.nodeByEui f.eui).isSome then some (Reg.NODE_EUI_CONFLICT, 4)
  else if rf d.regs Pg.NODE (Reg.NODE_PORT_LIMIT + 8 * p) 18 0 ≤ d.learnedCount (fun e => decide (e.port = p)) then
    some (Reg.NODE_LIM_PORT, 5)
  else if fld (rdI d.regs Pg.NODE Reg.NODE_TEN_LIMIT f.dml.tenant) 18 0 ≤
      d.learnedCount (fun e => decide (e.tenant = f.dml.tenant)) then some (Reg.NODE_LIM_TEN, 6)
  else if (d.placeNode f.dml.orig f.eui).isNone then some (Reg.NODE_NOROOM, 7)
  else none

/-- The learned entry of a frame (R236). -/
def learnedEntry (f : UpFrame) (parked : Bool) : NodeEntry :=
  { mesh := f.dml.orig, eui := f.eui, tenant := f.dml.tenant, lock := false, hit := true, pend := parked,
    static_ := false, learned := true, port := f.rx.port.num, age := 0, prefPort := f.rx.port.num, prefPin := false,
    epoch := f.epoch, lastHeard := lastHeardOf f.rx.sfdLt, rssi := f.rx.rssi, prefMode := f.rx.mode, lqi := f.rx.lqi,
    prefChan := f.rx.channel, ulFc := f.fc, dlFc := 0 }

/-- An entry inserted at its places. -/
def Side.insertNode (d : Side) (at_ : Nat × Nat) (e : NodeEntry) : Side :=
  d.updNode fun k => { k with nodes := k.nodes.put at_.1 e, euis := k.euis.put at_.2 at_.1 }

/-- A waiting verdict of a held frame taken (R237). -/
def decideHeld (seq v : Nat) : List HeldUp → List HeldUp
  | [] => []
  | h :: t => if h.f.seq = seq ∧ h.verdict.isNone then { h with verdict := some v } :: t else h :: decideHeld seq v t

/-- The learning decision of a held frame recorded. -/
def Side.verdict (d : Side) (f : UpFrame) (v : Nat) : Side :=
  d.updNode fun k => { k with held := decideHeld f.seq v k.held }

/-- A waiting frame write takes its place (R231, R233 to R237). -/
def Side.applyWrite (d : Side) (w : FrameWrite) : Side :=
  match w.entry with
  | some n => match d.node.nodes.find n with
    | some e => if w.gone then d.count Pg.NODE Reg.NODE_HIT_DISCARD else d.hitNode n e w.f
    | none => d.count Pg.NODE Reg.NODE_HIT_DISCARD
  | none => match d.nodeAt w.f.dml.orig with
    | some (n, e) => (d.hitNode n e w.f).verdict w.f 0
    | none => match d.learnRefusal w.f with
      | some (counter, act) =>
        let d1 := d.count Pg.NODE counter
        if rb d.regs Pg.NODE Reg.NODE_CFG act then (d1.count Pg.NODE Reg.NODE_TO_HOST).verdict w.f 2
        else d1.verdict w.f 1
      | none => match d.placeNode w.f.dml.orig w.f.eui with
        | some p => ((d.insertNode p (learnedEntry w.f (d.hasParked w.f.dml.orig))).count Pg.NODE Reg.NODE_LEARNED
            ).verdict w.f 0
        | none => d

/-- Every waiting frame write in the order of its frames (R231). -/
def Side.applyWrites (d : Side) : Side :=
  let ws := d.node.writes
  ws.foldl Side.applyWrite (d.updNode fun k => { k with writes := [] })

/-! ## Sander (R239 to R241) -/

/-- Entries of the table. -/
def tableSize : Nat := 262144

/-- PASS in seconds; 0 is stored as 1. -/
def Side.passReg (d : Side) : Nat := max 1 (rf d.regs Pg.SANDER Reg.SANDER_PASS 16 0)

/-- SANDER.POS: the next entry to visit. -/
def Side.sanderPos (d : Side) : Nat := rf d.regs Pg.SANDER Reg.SANDER_POS 17 0

/-- The pass in progress takes PASS as it stands once its start has come (R239). -/
def Side.latchPass (d : Side) : Side :=
  if d.node.passLen = 0 ∧ d.node.passAt.any (fun p => decide (p ≤ d.now)) then d.updNode fun k => { k with passLen := d.passReg }
  else d

/-- A new pass at entry 0 starts at the side's now (R239). -/
def Side.startPass (d : Side) : Side :=
  { (d.updNode fun k => { k with passAt := some d.now, passLen := d.passReg }) with
    regs := wr d.regs Pg.SANDER Reg.SANDER_POS 0 }

/-- The LT at which an entry is visited in a pass. -/
def visitLt (p len i : Nat) : Nat := p + 1000000000 * (i * len) / tableSize

/-- One visit of an entry (table "Sander visit"), VISITED apart. -/
def Side.visitEntry (d : Side) (lt i : Nat) : Side :=
  match d.node.nodes.find i with
  | none => d
  | some e =>
    if e.lock then d.count Pg.SANDER Reg.SANDER_SKIP_LOCK
    else if e.static_ then
      (d.setNode i fun e => { e with hit := false, age := 0 }).count Pg.SANDER Reg.SANDER_KEPT_STATIC
    else if e.hit then (d.setNode i fun e => { e with hit := false, age := 0 }).count Pg.SANDER Reg.SANDER_CLEARED
    else if e.age = 0 then (d.setNode i fun e => { e with age := 1 }).count Pg.SANDER Reg.SANDER_MARKED
    else ((d.removeNode i).removalNotice lt e).count Pg.SANDER Reg.SANDER_REMOVED

/-- Entries lo to hi - 1 visited in increasing number; an empty entry only counts in VISITED. -/
def Side.visitRange (d : Side) (lt lo hi : Nat) : Side :=
  let here := (d.node.nodes.map fun e => e.1).filter fun n => decide (lo ≤ n) && decide (n < hi)
  let d1 := here.foldl (fun d n => d.visitEntry lt n) d
  { d1 with regs := wr (bumpBy d1.regs Pg.SANDER Reg.SANDER_VISITED (hi - lo)) Pg.SANDER Reg.SANDER_POS (w32 hi) }

/-- The pass ends: the next starts one pass length after it, with PASS as it stands then (R239). -/
def Side.endPass (d : Side) (p : Nat) : Side :=
  let d1 := (d.updNode fun k => { k with passAt := some (p + 1000000000 * k.passLen), passLen := 0 }).count
    Pg.SANDER Reg.SANDER_PASSES
  { d1 with regs := wr d1.regs Pg.SANDER Reg.SANDER_POS 0 }

/-- How many entries of a pass are due at a time: the least number whose visit lies after it. -/
def visitsDue (p len now : Nat) : Nat :=
  if now < p ∨ len = 0 then 0
  else min tableSize (((now - p + 1) * tableSize - 1) / (1000000000 * len) + 1)

/-- The Sander visits due at a time input (R231, R239). -/
def Side.sweep (d : Side) (lt : Nat) : Nat → Side
  | 0 => d
  | fuel + 1 =>
    let d0 := d.latchPass
    if rb d0.regs Pg.SANDER Reg.SANDER_CFG 0 = false then d0
    else match d0.node.passAt with
      | none => d0
      | some p =>
        let due := visitsDue p d0.node.passLen d0.now
        if due ≤ d0.sanderPos then d0
        else
          let d1 := d0.visitRange lt d0.sanderPos due
          if due = tableSize then (d1.endPass p).sweep lt fuel else d1

/-- The visits due, with fuel for every pass that could have ended. -/
def Side.sweepDue (d : Side) (lt : Nat) : Side :=
  d.sweep lt ((d.now - d.node.passAt.getD d.now) / 1000000000 + 2)

/-- The next visit alone, at a time input of an LT, if it is due there (R239, R240). -/
def Side.visitNext (d : Side) (lt at_ : Nat) : Side :=
  let d0 := { { d with now := at_ }.latchPass with now := d.now }
  if rb d0.regs Pg.SANDER Reg.SANDER_CFG 0 = false then d0
  else match d0.node.passAt with
    | none => d0
    | some p =>
      let i := d0.sanderPos
      if visitsDue p d0.node.passLen at_ ≤ i then d0
      else
        let d1 := d0.visitRange lt i (i + 1)
        if i + 1 = tableSize then d1.endPass p else d1

/-! ## Table commands (R242 to R246, R380) -/

/-- The 32 octets of an entry (R226). -/
def packNode (e : NodeEntry) : List Byte :=
  beBytes 4 e.mesh ++ beBytes 8 e.eui ++
  leBytes 2 (e.tenant % 1024 + 1024 + 2048 * b2n e.lock + 4096 * b2n e.hit + 8192 * b2n e.pend + 16384 * b2n e.static_ +
    32768 * b2n e.learned) ++
  [b8 (e.port % 4 + 4 * (e.age % 4) + 16 * (e.prefPort % 4) + 64 * b2n e.prefPin), b8 e.epoch] ++
  leBytes 4 e.lastHeard ++ leBytes 2 (e.rssi % 512 + 512 * (e.prefMode % 32)) ++ [b8 e.lqi, b8 e.prefChan] ++
  leBytes 4 e.ulFc ++ leBytes 4 e.dlFc

/-- The entry that 32 octets give. -/
def unpackNode (bs : List Byte) : NodeEntry :=
  let w := leAt bs 12 2
  let f := byteAt bs 14
  let r := leAt bs 20 2
  { mesh := beNat (slice bs 0 4), eui := beNat (slice bs 4 8), tenant := w % 1024, lock := nbit w 11, hit := nbit w 12,
    pend := nbit w 13, static_ := nbit w 14, learned := nbit w 15, port := f % 4, age := (f / 4) % 4,
    prefPort := (f / 16) % 4, prefPin := nbit f 6, epoch := byteAt bs 15, lastHeard := leAt bs 16 4, rssi := r % 512,
    prefMode := (r / 512) % 32, lqi := byteAt bs 22, prefChan := byteAt bs 23, ulFc := leAt bs 24 4, dlFc := leAt bs 28 4 }

/-- NT_READ: an octet names the kind of the key, 0 mesh ID, 1 EUI-64, 2 entry number; the key follows. -/
def Side.cmdNtRead (d : Side) (a : List Byte) : Nat × List Byte × Side :=
  let kind := byteAt a 0
  let n := leAt a 1 4
  if 2 < kind ∨ (kind = 2 ∧ tableSize ≤ n) then (6, [], d)
  else
    let e : Option NodeEntry :=
      if kind = 0 then (d.nodeAt n).map (·.2) else if kind = 1 then (d.nodeByEui (leAt a 1 8)).map (·.2)
      else d.node.nodes.find n
    match e with
    | some e => (0, packNode e, d)
    | none => (1, [], d)

/-- NT_LOCK. -/
def Side.cmdNtLock (d : Side) (a : List Byte) : Nat × List Byte × Side :=
  match d.nodeAt (leAt a 0 4) with
  | none => (1, [], d)
  | some (n, e) =>
    if e.lock ∨ 16 ≤ d.node.locks.length then (4, [], d)
    else
      let e1 := { e with lock := true }
      (0, packNode e1, (d.setNode n fun _ => e1).updNode fun k =>
        { k with locks := k.locks ++ [{ entry := n, ul := 0, dl := 0, since := d.now, warned := false }] })

/-- The counters an NT_WRITE leaves (R245). -/
def writtenCounters (w e : NodeEntry) (sh : Option LockSlot) : Nat × Nat :=
  if w.epoch ≠ e.epoch then (w.ulFc, w.dlFc)
  else (max (max w.ulFc e.ulFc) ((sh.map (·.ul)).getD 0), max (max w.dlFc e.dlFc) ((sh.map (·.dl)).getD 0))

/-- The index moved to a new EUI-64 of an entry, none without a place. -/
def Side.moveEui (d : Side) (n old new : Nat) : Option Side :=
  if old = new then some d
  else
    let d1 := d.dropEui old n
    (freePlace d1.hashSeed (beBytes 8 new) (fun i => (d1.node.euis.find i).isSome)).map fun i =>
      d1.updNode fun k => { k with euis := k.euis.put i n }

/-- NT_WRITE (R242, R245). PEND follows the pool. -/
def Side.cmdNtWrite (d : Side) (a : List Byte) : Nat × List Byte × Side :=
  let w := unpackNode a
  let holder := d.nodeByEui w.eui
  match d.nodeAt w.mesh with
  | some (n, e) =>
    if w.lock ∧ e.lock = false then (8, [], d)
    else if holder.any (fun h => decide (h.1 ≠ n)) then (5, [], d)
    else match d.moveEui n e.eui w.eui with
      | none => (3, [], d)
      | some d1 =>
        let ends : Bool := e.lock && !w.lock
        let c := writtenCounters w e (if ends then d.lockOf n else none)
        let d2 := d1.setNode n fun _ => { w with pend := if ends then d.hasParked w.mesh else e.pend, ulFc := c.1, dlFc := c.2 }
        let d3 := if ends then d2.updNode fun k => { k with locks := k.locks.filter fun l => decide (l.entry ≠ n) } else d2
        (0, [], if w.epoch ≠ e.epoch then d3.freeFcWin w.mesh else d3)
  | none =>
    if w.lock then (8, [], d)
    else if holder.isSome then (5, [], d)
    else match d.placeNode w.mesh w.eui with
      | none => (3, [], d)
      | some p => (0, [], d.insertNode p { w with pend := d.hasParked w.mesh })

/-- NT_DELETE: removed without notice. -/
def Side.cmdNtDelete (d : Side) (a : List Byte) : Nat × List Byte × Side :=
  match d.nodeAt (leAt a 0 4) with
  | none => (1, [], d)
  | some (n, _) => (0, [], d.removeNode n)

/-- NT_SCAN: the valid entries of a range. -/
def Side.cmdNtScan (d : Side) (a : List Byte) : Nat × List Byte × Side :=
  let first := leAt a 0 4
  let n := byteAt a 4
  if tableSize ≤ first ∨ n = 0 ∨ 64 < n then (6, [], d)
  else (0, ((d.node.nodes.filter fun e => decide (first ≤ e.1) && decide (e.1 < first + n)).map fun e =>
    packNode e.2).flatten, d)

/-- A lock held for longer than LOCK_TO raises LOCK_LONG once (R246). -/
def Side.lockLong (d : Side) (slot : Nat) : Side :=
  let limit := rf d.regs Pg.NODE Reg.NODE_LOCK_TO 15 0
  match d.node.locks[slot]? with
  | none => d
  | some l =>
    if limit ≠ 0 ∧ l.warned = false ∧ 1000000 * limit < d.now - l.since then
      let d1 := d.updNode fun k => { k with locks := k.locks.set slot { l with warned := true } }
      { d1 with regs := setEvt d1.regs Pg.NODE 0 }
    else d

/-! ## Prefix CAM (R247 to R251) -/

/-- The octets of a CAM entry. -/
def packCam (e : CamEntry) : List Byte :=
  beBytes 16 e.prefix_ ++ [b8 e.len] ++ leBytes 2 (e.tenant % 1024 + 1024 * b2n e.any) ++ [b8 e.dest, b8 e.arg] ++ zeros 3

/-- The CAM entry of octets. -/
def unpackCam (bs : List Byte) : CamEntry :=
  let t := leAt bs 17 2
  { prefix_ := beNat (slice bs 0 16), len := byteAt bs 16, tenant := t % 1024, any := nbit t 10, dest := byteAt bs 19 % 8,
    arg := byteAt bs 20 % 64 }

/-- Two entries name the same prefix, LEN, TENANT and ANY. -/
def CamEntry.same (a b : CamEntry) : Bool :=
  decide (a.prefix_ = b.prefix_) && decide (a.len = b.len) && decide (a.tenant = b.tenant) && decide (a.any = b.any)

/-- An entry stands before a new one: longer, or as long and not behind it in the order of ANY (R248). -/
def CamEntry.before (a new : CamEntry) : Bool :=
  decide (new.len < a.len) || (decide (a.len = new.len) && (!a.any || new.any))

/-- The prefix has bits set beyond its length, or the length is out of range. -/
def CamEntry.bad (e : CamEntry) : Bool := decide (128 < e.len) || decide (e.prefix_ % 2 ^ (128 - e.len) ≠ 0)

/-- PC_READ. -/
def Side.cmdPcRead (d : Side) (a : List Byte) : Nat × List Byte × Side :=
  let n := leAt a 0 2
  if 4096 ≤ n then (6, [], d)
  else match d.node.cam[n]? with
    | some e => (0, packCam e, d)
    | none => (1, [], d)

/-- The CAM takes a new order; the moves of the change start (R248, R249). -/
def Side.changeCam (d : Side) (new : List CamEntry) (moves : Nat) : Side :=
  d.updNode fun k => { k with camOld := some k.cam, camSeq := d.point, cam := new, moves := moves }

/-- PC_INSERT. -/
def Side.cmdPcInsert (d : Side) (a : List Byte) : Nat × List Byte × Side :=
  let e := unpackCam a
  if e.bad ∨ 4 < e.dest then (6, [], d)
  else if d.node.cam.any e.same then (2, [], d)
  else if 4096 ≤ d.node.cam.length then (7, [], d.count Pg.PCAM Reg.PCAM_FULL)
  else
    let ahead := d.node.cam.takeWhile fun x => x.before e
    let behind := d.node.cam.drop ahead.length
    (0, [], (d.changeCam (ahead ++ e :: behind) behind.length).count Pg.PCAM Reg.PCAM_INSERT)

/-- PC_DELETE: prefix in 16 octets, LEN, TENANT in two, ANY. -/
def Side.cmdPcDelete (d : Side) (a : List Byte) : Nat × List Byte × Side :=
  let e : CamEntry := { prefix_ := beNat (slice a 0 16), len := byteAt a 16, tenant := leAt a 17 2 % 1024,
                        any := decide (byteAt a 19 % 2 = 1), dest := 0, arg := 0 }
  if e.bad then (6, [], d)
  else match d.node.cam.findIdx? e.same with
    | none => (1, [], d)
    | some i =>
      (0, [], (d.changeCam (d.node.cam.take i ++ d.node.cam.drop (i + 1)) (d.node.cam.length - i - 1)).count
        Pg.PCAM Reg.PCAM_DELETE)

/-- A FRAME item before the CAM command in sequence order can still be taken: its lookup completes during the moves (R249). -/
def Side.movesAwaited (d : Side) : Bool :=
  d.mesh.seqLoaded && d.strand.rings.any fun e =>
    d.takeable e.1 && (d.nextItem e.1).any (fun h => decide (h.ty = tyFrame)) &&
      decide (itemSeq (d.nextSlots e.1) < d.node.camSeq)

/-- The moves end, once the lookups that come before the command are complete (R249). -/
def Side.camMovesDone (d : Side) : Side := if d.movesAwaited then d else d.updNode fun k => { k with camOld := none }

/-- The CAM that a lookup of a frame sees: while moves run, a frame sequenced before the command sees the order without
its change (R249). -/
def Side.camFor (d : Side) (seq : Nat) : List CamEntry :=
  match d.node.camOld with
  | some old => if seq < d.node.camSeq then old else d.node.cam
  | none => d.node.cam

/-- A CAM entry matches an address under a tenant (R247). -/
def CamEntry.matches (e : CamEntry) (addr tenant : Nat) : Bool :=
  decide (addr / 2 ^ (128 - e.len) = e.prefix_ / 2 ^ (128 - e.len)) && (e.any || decide (e.tenant = tenant))

/-- Where a packet goes (R250): an Ethernet port, a strand, the mesh, or nowhere. -/
inductive Dest where
  | drop
  | eth (second : Bool)
  | strand (n : Nat)
  | mesh
  deriving DecidableEq, Repr

/-- The route of an address under a tenant, for a frame at its place in sequence order. -/
def Side.route (d : Side) (seq addr tenant : Nat) : Dest × Side :=
  let d1 := d.count Pg.PCAM Reg.PCAM_LOOKUP
  match (d.camFor seq).find? fun e => e.matches addr tenant with
  | some e =>
    (match e.dest with
      | 1 => .eth false
      | 2 => .eth true
      | 3 => .strand e.arg
      | 4 => .mesh
      | _ => .drop, d1.count Pg.PCAM Reg.PCAM_MATCH)
  | none =>
    (if rb d.regs Pg.PCAM Reg.PCAM_CFG 0 then .strand (rf d.regs Pg.PCAM Reg.PCAM_CFG 13 8) else .drop,
     d1.count Pg.PCAM Reg.PCAM_MISS)

/-- The universal/local bit of an EUI-64 inverted. -/
def flipUl (n : Nat) : Nat := n ^^^ 2 ^ 57

/-- The node of an address routed to the mesh (R251): its entry, or none with the refusal counted. -/
def Side.meshNode (d : Side) (addr tenant : Nat) : Option (Nat × NodeEntry) × Side :=
  match d.nodeByEui (flipUl (addr % 2 ^ 64)) with
  | none => (none, d.count Pg.NODE Reg.NODE_DL_UNKNOWN)
  | some (n, e) => if e.tenant ≠ tenant then (none, d.count Pg.NODE Reg.NODE_DL_TENANT) else (some (n, e), d)

end Sys2Proof.Machine
end

