-- ==== Sys2Proof/Machine/Security.lean ====
section
/-! DEFINITION. Frame security: what a received frame carries, the receive security steps, frame counters, and the
protection of the frames that a side sends (R196, R284 to R299). -/

namespace Sys2Proof.Machine

open Sys2Proof

/-! ## The octets of a received frame -/

/-- The header IEs end with the termination that payload IEs follow (PRESUMED: 802.15.4 gives it element ID 0x7E). -/
def hasPayIes (bs : List Byte) (h : Mhr) : Bool :=
  h.iePresent && decide (2 ≤ h.len) && decide (leAt bs (h.len - 2) 2 = 0x7E * 128)

/-- The place after the payload termination IE, group 0xF, none without one (R196). -/
def payIesEnd (bs : List Byte) : Nat → Nat → Option Nat
  | 0, _ => none
  | fuel + 1, off =>
    if bs.length < off + 2 then none
    else
      let v := leAt bs off 2
      let next := off + 2 + v % 2048
      if (v / 2048) % 16 = 15 then (if bs.length < next then none else some next) else payIesEnd bs fuel next

/-- The place of the DML header in the octets before the FCS, none when payload IEs leave no room for one. -/
def dmlPlace (bs : List Byte) (h : Mhr) : Option Nat :=
  if hasPayIes bs h then payIesEnd bs bs.length h.len else some h.len

/-- A DML header (table "DML header layout"). -/
def parseDml (bs : List Byte) : Dml :=
  let a := byteAt bs 0
  let b := byteAt bs 1
  let t := beNat (slice bs 2 2)
  { ver := a / 64, ty := (a / 8) % 8, lowpan := nbit a 2, fack := nbit a 1, norel := nbit a 0, ttl := b / 16,
    hops := b % 16, tenant := t / 64, sel := t % 64, orig := beNat (slice bs 4 4), seq := beNat (slice bs 8 2) }

/-- The octets of a DML header. -/
def dmlOctets (m : Dml) : List Byte :=
  [b8 (m.ver % 4 * 64 + m.ty % 8 * 8 + 4 * b2n m.lowpan + 2 * b2n m.fack + b2n m.norel), b8 (m.ttl % 16 * 16 + m.hops % 16)] ++
  beBytes 2 (m.tenant % 1024 * 64 + m.sel % 64) ++ beBytes 4 m.orig ++ beBytes 2 m.seq

/-- A received frame taken apart: the octets before the FCS, the MAC header, the place of the DML header. -/
structure Parsed where
  bs : List Byte
  h : Mhr
  at_ : Nat
  dml : Dml
  deriving DecidableEq, Repr

/-- Step 1 of the table "DML receive steps". -/
def parseFrame (f : RxFrame) : Option Parsed :=
  let bs := beforeFcs f.psdu (fcsLen f.rx.mode f.rx.phyOpt)
  (parseMhr bs).bind fun h => (dmlPlace bs h).bind fun p =>
    if bs.length < p + 10 then none else some { bs := bs, h := h, at_ := p, dml := parseDml (slice bs p 10) }

/-! ## Levels and keys (R284 to R290) -/

/-- TEN_CFG of a tenant. -/
def Side.tenCfg (d : Side) (t : Nat) : Word := rdI d.regs Pg.SEC Reg.SEC_TEN_CFG t

/-- MIC octets of a level. -/
def micLen (level : Nat) : Nat := match level % 4 with
  | 0 => 0
  | 1 => 4
  | 2 => 8
  | _ => 16

/-- The level is accepted for a tenant (table "Security levels"). -/
def levelOk (minLevel level : Nat) : Bool := decide (5 ≤ level) || (decide (level ≠ 4) && decide (minLevel ≤ level))

/-- The auxiliary security header keeps R285. -/
def auxOk (a : AuxSec) : Bool := decide (a.keyMode = 1) && a.fc.isSome && !a.asn

/-- LINK frame (R287). -/
def Dml.link (m : Dml) : Bool := decide (m.hops = 0) && (decide (m.ty = 0) || decide (m.ty = 3) || decide (m.ty = 4))

/-- The nonce (R288). -/
def ccmNonce (eui fc level : Nat) : List Byte := beBytes 8 eui ++ beBytes 4 fc ++ [b8 level]

/-- The sender's EUI-64, none where step 4 fails. -/
def senderEui (link : Bool) (h : Mhr) (e : Option (Nat × NodeEntry)) : Option Nat :=
  let ext : Bool := decide (h.srcMode = 3)
  if link then
    match e with
    | some (_, n) => if ext && decide (h.src ≠ n.eui) then none else some n.eui
    | none => if ext then some h.src else none
  else if ext then some h.src else none

/-- The key index is one the frame may carry (R290). -/
def Side.epochOk (d : Side) (m : Dml) (e : Option (Nat × NodeEntry)) (idx : Nat) : Bool :=
  let cfg := d.tenCfg m.tenant
  let cur := fld cfg 15 8
  if m.link then
    match e with
    | some (_, n) => decide (idx = n.epoch)
    | none => decide (idx = cur)
  else decide (idx = cur) || (bitOf cfg 7 && decide (idx = (cur + 255) % 256))

/-- The plain octets after the DML header when the MIC verifies (R286). -/
def ccmOpen (key : List Byte) (eui fc level : Nat) (adata rest : List Byte) : Option (List Byte) :=
  let k := micLen level
  let nonce := ccmNonce eui fc level
  let body := rest.take (rest.length - k)
  let mic := rest.drop (rest.length - k)
  if rest.length < k then none
  else if 5 ≤ level then
    let p := ccmCrypt key nonce body
    if ccmMic key nonce adata p k = mic then some p else none
  else if ccmMic key nonce (adata ++ body) [] k = mic then some body else none

/-- The frame counter of a LINK frame passes (R291, R294, R295); the second component: by the window, with its bit. -/
def Side.counterOk (d : Side) (e : Option (Nat × NodeEntry)) (c : Nat) : Bool × Option (Nat × Nat) :=
  if c = 2 ^ 32 - 1 then (false, none)
  else match e with
    | none => (true, none)
    | some (n, x) =>
      let f := d.ulFloor n x
      if f < c then (true, none)
      else match d.key.wins.find? fun w => decide (w.mesh = x.mesh) with
        | some w =>
          if c < f ∧ f - 1 - c < rf d.regs Pg.SEC Reg.SEC_CFG 5 0 ∧ nbit w.mask (f - 1 - c) then
            (true, some (x.mesh, w.mask - 2 ^ (f - 1 - c)))
          else (false, none)
        | none => (false, none)

/-- A frame that the receive security steps let through: its level, counter, epoch and plain octets. -/
structure Verified where
  level : Nat
  fc : Nat
  epoch : Nat
  plain : List Byte
  deriving DecidableEq, Repr

/-- The receive security steps of the frame of an input (R289); the error is the SEC counter of the first step that fails. -/
def Side.verify (d : Side) (seq : Nat) (p : Parsed) (e : Option (Nat × NodeEntry)) : Except Nat Verified × Side :=
  let fail (d : Side) (off : Nat) : Except Nat Verified × Side := (.error off, d.count Pg.SEC off)
  let rest := p.bs.drop (p.at_ + 10)
  let adata := p.bs.take (p.at_ + 10)
  let level := (p.h.aux.map (·.level)).getD 0
  if levelOk (fld (d.tenCfg p.dml.tenant) 2 0) level = false then fail d Reg.SEC_LEVEL_LOW
  else match p.h.aux with
    | none => (.ok { level := 0, fc := 0, epoch := 0, plain := rest }, d.count Pg.SEC Reg.SEC_UNSECURED)
    | some a =>
      if level = 0 then (.ok { level := 0, fc := 0, epoch := 0, plain := rest }, d.count Pg.SEC Reg.SEC_UNSECURED)
      else if auxOk a = false then fail d Reg.SEC_AUX_BAD
      else match senderEui p.dml.link p.h e with
        | none => fail d Reg.SEC_SRC_BAD
        | some eui =>
          if d.epochOk p.dml e a.keyIdx = false then fail d Reg.SEC_EPOCH_BAD
          else
            let fc := a.fc.getD 0
            let tenant := if p.dml.link then (e.map fun x => x.2.tenant).getD p.dml.tenant else p.dml.tenant
            let op := if 5 ≤ level then 2 else 3
            match d.keyRequest seq tenant a.keyIdx (if p.dml.link then some eui else none) op with
            | (.error _, d1) => fail d1 Reg.SEC_KEY_REFUSED
            | (.ok key, d1) => match ccmOpen key eui fc level adata rest with
              | none => fail d1 Reg.SEC_MIC_BAD
              | some plain =>
                if p.dml.link then
                  match d1.counterOk e fc with
                  | (false, _) => fail d1 Reg.SEC_REPLAY
                  | (true, w) =>
                    let d2 := match w with
                      | some (mesh, mask) => (d1.putFcWin mesh mask).count Pg.SEC Reg.SEC_WIN_ACCEPT
                      | none => d1
                    (.ok { level := level, fc := fc, epoch := a.keyIdx, plain := plain }, d2.count Pg.SEC Reg.SEC_RX_OK)
                else (.ok { level := level, fc := 0, epoch := a.keyIdx, plain := plain }, d1.count Pg.SEC Reg.SEC_RX_OK)

/-! ## Protection (R296 to R299) -/

/-- DL_FLOOR: BOOTS times 2^DL_SHIFT, held at its ceiling (R298); the second component says that it is. -/
def Side.dlFloor (d : Side) : Nat × Bool :=
  let s := clampNat 16 24 (rf d.regs Pg.SEC Reg.SEC_DL_SHIFT 4 0)
  let p := d.mram.boots * 2 ^ s
  if 2 ^ 32 - 2 ^ s < p then (2 ^ 32 - 2 ^ s, true) else (p, false)

/-- FLOOR_SAT set where the floor is held at its ceiling. -/
def Side.floorCheck (d : Side) : Side := if d.dlFloor.2 then d.err Pg.SEC 0 else d

/-- SEC.OWN_EUI. -/
def Side.ownEui (d : Side) : Nat := rd64 d.regs Pg.SEC Reg.SEC_OWN_EUI_LO

/-- An AIR register as sequenced to the side (R163). -/
def Side.airReg (d : Side) (off : Nat) : Word := rd d.air Pg.AIR off

/-- The MAC header of a frame that a side sends, up to its auxiliary security header (R211, R212, R285): version 2,
source SEC.OWN_EUI, the PAN ID of AIR.PAN_ID; destination mode 2 is short 0xFFFF. -/
def ownMhr (pan own seq dstMode dst : Nat) (ar pending ies : Bool) (level fc idx : Nat) : List Byte :=
  let fcf := 1 + 8 + 16 * b2n pending + 32 * b2n ar + 64 * b2n (decide (dstMode = 2)) + 512 * b2n ies + 1024 * dstMode +
    8192 + 49152
  leBytes 2 fcf ++ [b8 seq] ++ leBytes 2 pan ++ addrBytes dstMode dst ++ addrBytes 3 own ++
  [b8 (level % 8 + 8)] ++ leBytes 4 fc ++ [b8 idx] ++ (if ies then leBytes 2 (0x7E * 128) else [])

/-- The protected octets with their FCS: the header, the open octets (payload IEs and DML header), the body. -/
def ccmSeal (key : List Byte) (eui fc level : Nat) (hdr open_ body : List Byte) (fcs : Nat) : List Byte :=
  let nonce := ccmNonce eui fc level
  let mic := ccmMic key nonce (hdr ++ open_) body (micLen level)
  let all := hdr ++ open_ ++ ccmCrypt key nonce body ++ mic
  all ++ (if fcs = 4 then fcs32 all else fcs16 all)

/-- A refused frame (R299). -/
def Side.txRefused (d : Side) (code : Nat) : Except Nat (List Byte) × Side := (.error code, d.count Pg.SEC Reg.SEC_TX_REFUSED)

/-- TX_LEVEL of a tenant. -/
def Side.txLevelOf (d : Side) (t : Nat) : Nat := max 5 (fld (d.tenCfg t) 6 4)

/-- A frame protected with the network key of a tenant (R297); `use` is the number of its input. -/
def Side.protectNet (d : Side) (use tenant seq : Nat) (payIes dml body : List Byte) (fcs : Nat) :
    Except Nat (List Byte) × Side :=
  let epoch := fld (d.tenCfg tenant) 15 8
  match d.keyRequest use tenant epoch none 1 with
  | (.error _, d1) => d1.txRefused 48
  | (.ok key, d1) =>
    let n := (d1.key.txfc.find tenant).getD 0
    if 2 ^ 32 - 1 ≤ n then d1.txRefused 49
    else
      let level := d1.txLevelOf tenant
      let hdr := ownMhr (fld (d1.airReg Reg.AIR_PAN_ID) 15 0) d1.ownEui seq 2 0xFFFF false false (!payIes.isEmpty) level n
        epoch
      let d2 := d1.updKey fun k => { k with txfc := k.txfc.put tenant (n + 1) }
      let d3 := d2.updMram fun m =>
        let mark := (m.txfcMarks.find tenant).getD 0
        if mark ≤ n + 1 then { m with txfcMarks := m.txfcMarks.put tenant (mark + 65536) } else m
      (.ok (ccmSeal key d1.ownEui n level hdr (payIes ++ dml) body fcs), d3.count Pg.SEC Reg.SEC_TX_PROT)

/-- A TYPE 1 frame protected with its node's link key (R296). -/
def Side.protectLink (d : Side) (use n : Nat) (e : NodeEntry) (tenant seq : Nat) (ar pending : Bool) (dml body : List Byte)
    (fcs : Nat) : Except Nat (List Byte) × Side :=
  match d.keyRequest use e.tenant e.epoch (some e.eui) 1 with
  | (.error _, d1) => d1.txRefused 48
  | (.ok key, d1) =>
    let c := max (d1.dlLast n e + 1) d1.dlFloor.1
    if 2 ^ 32 - 1 ≤ c then d1.txRefused 49
    else
      let level := d1.txLevelOf tenant
      let hdr := ownMhr (fld (d1.airReg Reg.AIR_PAN_ID) 15 0) d1.ownEui seq 3 e.eui ar pending false level c e.epoch
      (.ok (ccmSeal key d1.ownEui c level hdr dml body fcs), (d1.takeDl n c).count Pg.SEC Reg.SEC_TX_PROT)

/-- Octets that MHR, security, DML header and FCS add to a body of a TYPE 1 frame (R224). -/
def linkOverhead (level fcs : Nat) : Nat := 2 + 1 + 2 + 8 + 8 + 6 + 10 + micLen level + fcs

end Sys2Proof.Machine
end

