-- ==== Sys2Proof/Machine/Lowpan.lean ====
section
/-! DEFINITION. 6LoWPAN: IPHC and next-header compression in both directions, contexts, fragments and reassembly (R215
to R224). PRESUMED: the octet formats are those of RFC 4944 and RFC 6282, which the spec names and does not repeat. -/

namespace Sys2Proof.Machine

open Sys2Proof

/-! ## Contexts and addresses (R217, R219) -/

/-- What compression works from: the identifiers of the encapsulating header's source and destination, the contexts. -/
structure LpEnv where
  src : Nat
  dst : Nat
  ctxs : Tab LpCtx
  deriving DecidableEq, Repr

/-- An address of a context: its prefix bits over an interface identifier. -/
def ctxAddr (c : LpCtx) (iid : Nat) : Nat :=
  let k := 128 - min 128 c.len
  c.prefix_ / 2 ^ k * 2 ^ k + iid % 2 ^ k

/-- A link-local address. -/
def linkLocal (iid : Nat) : Nat := 0xFE80 * 2 ^ 112 + iid

/-- The interface identifier of 16 inline bits. -/
def iid16 (n : Nat) : Nat := 0xFFFE000000 + n

/-- `n` octets from the front. -/
def takeOct (n : Nat) (bs : List Byte) : Option (List Byte × List Byte) :=
  if bs.length < n then none else some (bs.take n, bs.drop n)

/-- `n` octets from the front as a number, most significant first. -/
def takeNum (n : Nat) (bs : List Byte) : Option (Nat × List Byte) := (takeOct n bs).map fun r => (beNat r.1, r.2)

/-- A unicast address from its mode (SAC/SAM, DAC/DAM with M = 0); `c` the context, none where it is not enabled. -/
def readUnicast (stateful : Bool) (mode iid : Nat) (c : Option LpCtx) (bs : List Byte) : Option (Nat × List Byte) :=
  if stateful then
    c.bind fun c => match mode with
      | 1 => (takeNum 8 bs).map fun r => (ctxAddr c r.1, r.2)
      | 2 => (takeNum 2 bs).map fun r => (ctxAddr c (iid16 r.1), r.2)
      | 3 => some (ctxAddr c iid, bs)
      | _ => none
  else match mode with
    | 0 => takeNum 16 bs
    | 1 => (takeNum 8 bs).map fun r => (linkLocal r.1, r.2)
    | 2 => (takeNum 2 bs).map fun r => (linkLocal (iid16 r.1), r.2)
    | _ => some (linkLocal iid, bs)

/-- A multicast address of a context: flags and scope, reserved octet, prefix length, prefix, group. -/
def ctxMulticast (c : LpCtx) (n : Nat) : Nat :=
  0xFF * 2 ^ 120 + n / 2 ^ 32 * 2 ^ 104 + c.len % 256 * 2 ^ 96 + ctxAddr c 0 / 2 ^ 64 * 2 ^ 32 + n % 2 ^ 32

/-- A multicast address from its mode. -/
def readMulticast (stateful : Bool) (mode : Nat) (c : Option LpCtx) (bs : List Byte) : Option (Nat × List Byte) :=
  if stateful then
    if mode = 0 then c.bind fun c => (takeNum 6 bs).map fun r => (ctxMulticast c r.1, r.2) else none
  else match mode with
    | 0 => takeNum 16 bs
    | 1 => (takeNum 6 bs).map fun r => (0xFF * 2 ^ 120 + r.1 / 2 ^ 40 * 2 ^ 112 + r.1 % 2 ^ 40, r.2)
    | 2 => (takeNum 4 bs).map fun r => (0xFF * 2 ^ 120 + r.1 / 2 ^ 24 * 2 ^ 112 + r.1 % 2 ^ 24, r.2)
    | _ => (takeNum 1 bs).map fun r => (0xFF02 * 2 ^ 112 + r.1, r.2)

/-! ## The UDP checksum -/

/-- Sum of 16-bit words, an odd last octet padded with zero. -/
def sum16 : List Byte → Nat
  | [] => 0
  | [a] => a.toNat * 256
  | a :: b :: t => a.toNat * 256 + b.toNat + sum16 t

/-- One's-complement fold. -/
def fold16 (n : Nat) : Nat := let m := n % 65536 + n / 65536
                             m % 65536 + m / 65536

/-- The UDP checksum of a datagram whose checksum octets are zero. -/
def udpChecksum (src dst : Nat) (udp : List Byte) : Nat :=
  let s := sum16 (beBytes 16 src ++ beBytes 16 dst ++ beBytes 4 udp.length ++ [0, 0, 0, 17]) + sum16 udp
  let c := 65535 - fold16 (fold16 s)
  if c = 0 then 65535 else c

/-- The checksum written into the UDP header that a packet's header chain leads to. -/
def fixChecksum : Nat → List Byte → List Byte
  | 0, p => p
  | fuel + 1, p =>
    let src := beNat (slice p 8 16)
    let dst := beNat (slice p 24 16)
    -- walk the extension headers to the UDP or inner IPv6 header
    let rec walk : Nat → Nat → Nat → List Byte
      | 0, _, _ => p
      | n + 1, nh, off =>
        if nh = 17 then
          let udp := p.drop off
          p.take (off + 6) ++ beBytes 2 (udpChecksum src dst udp) ++ p.drop (off + 8)
        else if nh = 41 then p.take off ++ fixChecksum fuel (p.drop off)
        else if nh = 44 then walk n (byteAt p off) (off + 8)
        else if nh = 0 ∨ nh = 43 ∨ nh = 60 then walk n (byteAt p off) (off + 8 * (byteAt p (off + 1) + 1))
        else p
    walk p.length (byteAt p 6) 40

/-! ## Decompression (R215, R216) -/

/-- The IPv6 next-header value of a compressed next header. -/
def nhcValue (b : Nat) : Option Nat :=
  if b / 8 = 0x1E then some 17
  else if b / 16 = 0xE then
    match (b / 2) % 8 with
    | 0 => some 0
    | 1 => some 43
    | 2 => some 44
    | 3 => some 60
    | 7 => some 41
    | _ => none
  else none

/-- An extension header padded to a multiple of eight octets with Pad1 or PadN, for options headers. -/
def padExt (bs : List Byte) : List Byte :=
  let n := (8 - (bs.length + 2) % 8) % 8
  bs ++ (if n = 0 then [] else if n = 1 then [0] else [1, b8 (n - 2)] ++ zeros (n - 2))

/-- UDP ports of a compressed header. -/
def readPorts (p : Nat) (bs : List Byte) : Option (Nat × Nat × List Byte) :=
  match p with
  | 0 => (takeNum 4 bs).map fun r => (r.1 / 65536, r.1 % 65536, r.2)
  | 1 => (takeNum 3 bs).map fun r => (r.1 / 256, 0xF000 + r.1 % 256, r.2)
  | 2 => (takeNum 3 bs).map fun r => (0xF000 + r.1 / 65536, r.1 % 65536, r.2)
  | _ => (takeNum 1 bs).map fun r => (0xF0B0 + r.1 / 16, 0xF0B0 + r.1 % 16, r.2)

/-- What decompression gives: the octets, and whether a UDP checksum was elided. -/
abbrev LpOut := Option (List Byte × Bool)

/-- The IPv6 header's first eight octets. -/
def ip6Front (tc flow len nh hl : Nat) : List Byte :=
  beBytes 4 (6 * 2 ^ 28 + tc * 2 ^ 20 + flow) ++ beBytes 2 len ++ [b8 nh, b8 hl]

mutual
/-- The headers after an IPHC header whose next header is compressed: the octets that follow the IPv6 header. `extra`
octets of the datagram lie beyond those present (in later fragments). -/
def readNhc (ctxs : Tab LpCtx) (src dst extra : Nat) (csumRx : Bool) : Nat → List Byte → LpOut
  | 0, _ => none
  | fuel + 1, bs => (takeNum 1 bs).bind fun h =>
    let b := h.1
    if b / 8 = 0x1E then
      let elided := nbit b 2
      (readPorts (b % 4) h.2).bind fun ps =>
        if elided then
          if csumRx then
            some (beBytes 2 ps.1 ++ beBytes 2 ps.2.1 ++ beBytes 2 (8 + ps.2.2.length + extra) ++ [0, 0] ++ ps.2.2, true)
          else none
        else (takeNum 2 ps.2.2).map fun c =>
          (beBytes 2 ps.1 ++ beBytes 2 ps.2.1 ++ beBytes 2 (8 + c.2.length + extra) ++ beBytes 2 c.1 ++ c.2, false)
    else match nhcValue b with
      | none => none
      | some v =>
        if v = 41 then (if nbit b 0 then none else readIphc ctxs src dst extra csumRx fuel h.2)
        else
          let inlineNh : Option (Option Nat × List Byte) := if nbit b 0 then some (none, h.2) else (takeNum 1 h.2).map fun r => (some r.1, r.2)
          inlineNh.bind fun n => (takeNum 1 n.2).bind fun l => (takeOct l.1 l.2).bind fun data =>
            let body := if v = 44 then data.1 else if v = 43 then data.1 else padExt data.1
            let lenOct := if v = 44 then 0 else (body.length + 2) / 8 - 1
            if (body.length + 2) % 8 ≠ 0 then none
            else match n.1 with
              | some nh => some ([b8 nh, b8 lenOct] ++ body ++ data.2, false)
              | none => ((takeNum 1 data.2).bind fun x => nhcValue x.1).bind fun nh =>
                (readNhc ctxs src dst extra csumRx fuel data.2).map fun (r : List Byte × Bool) =>
                  ([b8 nh, b8 lenOct] ++ body ++ r.1, r.2)

/-- An IPHC header and all that follows it, as an IPv6 packet. -/
def readIphc (ctxs : Tab LpCtx) (srcIid dstIid extra : Nat) (csumRx : Bool) : Nat → List Byte → LpOut
  | 0, _ => none
  | fuel + 1, bs => (takeNum 2 bs).bind fun h =>
    let w := h.1
    let cidBit := nbit w 7
    let cid := if cidBit then takeNum 1 h.2 else some (0, h.2)
    if w / 8192 ≠ 3 then none
    else cid.bind fun c =>
      let ctx (n : Nat) : Option LpCtx := (ctxs.find n).bind fun x => if x.en then some x else none
      let tf := (w / 2048) % 4
      -- traffic class as DSCP and ECN, flow label
      let tfv : Option (Nat × Nat × List Byte) := match tf with
        | 0 => (takeNum 4 c.2).map fun r => ((r.1 / 2 ^ 24) % 64 * 4 + r.1 / 2 ^ 30, r.1 % 2 ^ 20, r.2)
        | 1 => (takeNum 3 c.2).map fun r => (r.1 / 2 ^ 22, r.1 % 2 ^ 20, r.2)
        | 2 => (takeNum 1 c.2).map fun r => (r.1 % 64 * 4 + r.1 / 64, 0, r.2)
        | _ => some (0, 0, c.2)
      tfv.bind fun t =>
      let nhc := nbit w 10
      (if nhc then some (0, t.2.2) else takeNum 1 t.2.2).bind fun nh =>
      (match (w / 256) % 4 with
        | 0 => takeNum 1 nh.2
        | 1 => some (1, nh.2)
        | 2 => some (64, nh.2)
        | _ => some (255, nh.2)).bind fun hl =>
      let sac := nbit w 6
      let sam := (w / 16) % 4
      let dac := nbit w 2
      let dam := w % 4
      (if sac && decide (sam = 0) then some (0, hl.2) else readUnicast sac sam srcIid (ctx (c.1 / 16)) hl.2).bind fun src =>
      (if nbit w 3 then readMulticast dac dam (ctx (c.1 % 16)) src.2
       else readUnicast dac dam dstIid (ctx (c.1 % 16)) src.2).bind fun dst =>
      let addrs := beBytes 16 src.1 ++ beBytes 16 dst.1
      if nhc then
        ((takeNum 1 dst.2).bind fun x => nhcValue x.1).bind fun v =>
        (readNhc ctxs (src.1 % 2 ^ 64) (dst.1 % 2 ^ 64) extra csumRx fuel dst.2).map fun (r : List Byte × Bool) =>
          (ip6Front t.1 t.2.1 (r.1.length + extra) v hl.1 ++ addrs ++ r.1, r.2)
      else some (ip6Front t.1 t.2.1 (dst.2.length + extra) nh.1 hl.1 ++ addrs ++ dst.2, false)
end

/-- What the first octet of a DML payload announces (table "Dispatch handling"). -/
inductive Dispatch where
  | ip6 | iphc | frag1 | fragN | meshHdr | bad
  deriving DecidableEq, Repr

/-- The dispatch of a payload. -/
def dispatchOf (bs : List Byte) : Dispatch :=
  let b := byteAt bs 0
  if bs.isEmpty then .bad
  else if b = 0x41 then .ip6
  else if b / 32 = 3 then .iphc
  else if b / 8 = 0x18 then .frag1
  else if b / 8 = 0x1C then .fragN
  else if b / 64 = 2 ∨ b = 0x50 then .meshHdr
  else .bad

/-- The packet that a payload with an IPv6 or IPHC dispatch gives; `size` the datagram's size when it is a first
fragment. -/
def decompress (ctxs : Tab LpCtx) (src dst : Nat) (csumRx : Bool) (size : Option Nat) (bs : List Byte) : LpOut :=
  match dispatchOf bs with
  | .ip6 => if bs.length < 41 then none else some (bs.drop 1, false)
  | .iphc =>
    match readIphc ctxs src dst 0 csumRx (bs.length + 1) bs with
    | none => none
    | some r => match size with
      | none => some r
      | some n => readIphc ctxs src dst (n - r.1.length) csumRx (bs.length + 1) bs
  | _ => none

/-! ## Compression (R218) -/

/-- One way to encode an address: its two-bit or three-bit mode with the stateful bit, the context, the octets. -/
structure AddrEnc where
  stateful : Bool
  mode : Nat
  ctx : Nat
  oct : List Byte
  deriving DecidableEq, Repr

/-- Contexts that compression may use: EN and COMP (R218). -/
def compCtxs (ctxs : Tab LpCtx) : List (Nat × LpCtx) := ctxs.filter fun e => e.2.en && e.2.comp

/-- The encodings of a unicast address. -/
def unicastEncs (ctxs : Tab LpCtx) (a iid : Nat) : List AddrEnc :=
  let low := a % 2 ^ 64
  let short : Bool := decide (65536 * (low / 65536) = iid16 0)
  let sl : List AddrEnc :=
    (if a = linkLocal iid then [⟨false, 3, 0, []⟩] else []) ++
    (if a = linkLocal low ∧ short then [⟨false, 2, 0, beBytes 2 (low % 65536)⟩] else []) ++
    (if a = linkLocal low then [⟨false, 1, 0, beBytes 8 low⟩] else []) ++ [⟨false, 0, 0, beBytes 16 a⟩]
  sl ++ ((compCtxs ctxs).map fun e =>
    (if a = ctxAddr e.2 iid then [(⟨true, 3, e.1, []⟩ : AddrEnc)] else []) ++
    (if a = ctxAddr e.2 (iid16 (low % 65536)) then [⟨true, 2, e.1, beBytes 2 (low % 65536)⟩] else []) ++
    (if a = ctxAddr e.2 low then [⟨true, 1, e.1, beBytes 8 low⟩] else [])).flatten

/-- The encodings of a source address: the unspecified address has one of its own. -/
def srcEncs (ctxs : Tab LpCtx) (a iid : Nat) : List AddrEnc :=
  (if a = 0 then [⟨true, 0, 0, []⟩] else []) ++ unicastEncs ctxs a iid

/-- The encodings of a multicast destination. -/
def multicastEncs (ctxs : Tab LpCtx) (a : Nat) : List AddrEnc :=
  let x := (a / 2 ^ 112) % 256
  (if a / 2 ^ 8 = 0xFF02 * 2 ^ 104 then [⟨false, 3, 0, beBytes 1 (a % 256)⟩] else []) ++
  (if (a / 2 ^ 24) % 2 ^ 88 = 0 then [⟨false, 2, 0, beBytes 4 (x * 2 ^ 24 + a % 2 ^ 24)⟩] else []) ++
  (if (a / 2 ^ 40) % 2 ^ 72 = 0 then [⟨false, 1, 0, beBytes 6 (x * 2 ^ 40 + a % 2 ^ 40)⟩] else []) ++
  [⟨false, 0, 0, beBytes 16 a⟩] ++
  ((compCtxs ctxs).filterMap fun e =>
    let n := (a / 2 ^ 104) % 65536 * 2 ^ 32 + a % 2 ^ 32
    if a = ctxMulticast e.2 n then some ⟨true, 0, e.1, beBytes 6 n⟩ else none)

/-- A pair of encodings costs their octets and the context octet when either context is not 0. -/
def encCost (s d : AddrEnc) : Nat := s.oct.length + d.oct.length + (if s.ctx = 0 ∧ d.ctx = 0 then 0 else 1)

/-- The compressed UDP header of a datagram, none where its header does not agree with its length. FREE VALUE: which of two
equally short port encodings is taken. -/
def udpEnc (csumTx : Bool) (u : List Byte) : Option (List Byte) :=
  let sp := beNat (slice u 0 2)
  let dp := beNat (slice u 2 2)
  if u.length < 8 ∨ beNat (slice u 4 2) ≠ u.length then none
  else
    let ports : Nat × List Byte :=
      if sp / 16 = 0xF0B ∧ dp / 16 = 0xF0B then (3, [b8 (sp % 16 * 16 + dp % 16)])
      else if sp / 256 = 0xF0 ∧ (dp / 256 ≠ 0xF0 ∨ Config.pickEncoding sp dp % 2 = 1) then (2, [b8 sp] ++ beBytes 2 dp)
      else if dp / 256 = 0xF0 then (1, beBytes 2 sp ++ [b8 dp])
      else (0, beBytes 2 sp ++ beBytes 2 dp)
    some ([b8 (0xF0 + 4 * b2n csumTx + ports.1)] ++ ports.2 ++ (if csumTx then [] else slice u 6 2))

/-- A compressed packet: the compressed headers, how many octets of the packet they stand for, the rest of it. -/
structure LpPacket where
  hdr : List Byte
  covers : Nat
  rest : List Byte
  deriving DecidableEq, Repr

/-- IPHC of an IPv6 packet, the shortest encoding (R218); none when the octets are no IPv6 packet. -/
def compress (ctxs : Tab LpCtx) (srcIid dstIid : Nat) (csumTx : Bool) (p : List Byte) : Option LpPacket :=
  if p.length < 40 ∨ byteAt p 0 / 16 ≠ 6 ∨ beNat (slice p 4 2) + 40 ≠ p.length then none
  else
    let v := beNat (p.take 4)
    let tc := (v / 2 ^ 20) % 256
    let flow := v % 2 ^ 20
    let nh := byteAt p 6
    let hl := byteAt p 7
    let src := beNat (slice p 8 16)
    let dst := beNat (slice p 24 16)
    let ecn := tc % 4
    let tf : Nat × List Byte :=
      if flow = 0 ∧ tc = 0 then (3, []) else if flow = 0 then (2, [b8 (ecn * 64 + tc / 4)])
      else if tc / 4 = 0 then (1, beBytes 3 (ecn * 2 ^ 22 + flow))
      else (0, beBytes 4 ((ecn * 64 + tc / 4) * 2 ^ 24 + flow))
    let hlim : Nat × List Byte :=
      if hl = 1 then (1, []) else if hl = 64 then (2, []) else if hl = 255 then (3, []) else (0, [b8 hl])
    let multi : Bool := decide (dst / 2 ^ 120 = 0xFF)
    let ss := srcEncs ctxs src srcIid
    let ds := if multi then multicastEncs ctxs dst else unicastEncs ctxs dst dstIid
    let pairs := (ss.map fun s => ds.map fun d => (s, d)).flatten
    let best := pairs.foldl (fun m e => min m (encCost e.1 e.2)) (2 ^ 16)
    let ok := pairs.filter fun e => decide (encCost e.1 e.2 = best)
    let e := ok.getD (Config.pickEncoding src dst % ok.length) (⟨false, 0, 0, []⟩, ⟨false, 0, 0, []⟩)
    let udp := if nh = 17 then udpEnc csumTx (p.drop 40) else none
    let cid : Bool := decide (encCost e.1 e.2 ≠ e.1.oct.length + e.2.oct.length)
    let w := 3 * 8192 + 2048 * tf.1 + 1024 * b2n udp.isSome + hlim.1 * 256 + 128 * b2n cid + 64 * b2n e.1.stateful +
      e.1.mode * 16 + 8 * b2n multi + 4 * b2n e.2.stateful + e.2.mode
    let front := beBytes 2 w ++ (if cid then [b8 (e.1.ctx * 16 + e.2.ctx)] else []) ++ tf.2 ++
      (if udp.isSome then [] else [b8 nh]) ++ hlim.2 ++ e.1.oct ++ e.2.oct
    match udp with
    | some u => some { hdr := front ++ u, covers := 48, rest := p.drop 48 }
    | none => some { hdr := front, covers := 40, rest := p.drop 40 }

/-- The payloads of a datagram's frames when none may exceed `room` octets (R224): the packet whole, or FRAG1 and FRAGN
pieces, each as long as it can be, all but the last a multiple of eight octets of the datagram. -/
def fragments (tag room : Nat) (z : LpPacket) : List (List Byte) :=
  let size := z.covers + z.rest.length
  if z.hdr.length + z.rest.length ≤ room then [z.hdr ++ z.rest]
  else
    let n1 := (z.covers + (room - 4 - z.hdr.length)) / 8 * 8 - z.covers
    let f1 := beBytes 2 (0xC000 + size) ++ beBytes 2 tag ++ z.hdr ++ z.rest.take n1
    let step := (room - 5) / 8 * 8
    let rest := z.rest.drop n1
    let more := (pieces (max 8 step) rest.length rest).mapIdx fun i p =>
      beBytes 2 (0xE000 + size) ++ beBytes 2 tag ++ [b8 ((z.covers + n1 + i * max 8 step) / 8)] ++ p
    f1 :: more

/-! ## Reassembly (R220 to R223) -/

/-- 6LoWPAN of a side changed. -/
def Side.updMesh (d : Side) (f : MeshState → MeshState) : Side := { d with mesh := f d.mesh }

/-- LOWPAN.OWN_IID. -/
def Side.ownIid (d : Side) : Nat := rd64 d.regs Pg.LOWPAN Reg.LOWPAN_OWN_IID_LO

/-- A reassembly of an originator, tag and size. -/
def Reasm.is (r : Reasm) (orig tag size : Nat) : Bool :=
  decide (r.orig = orig) && decide (r.tag = tag) && decide (r.size = size)

/-- Octets 0 to size - 1 are all present, parts not overlapping. -/
def Reasm.complete (r : Reasm) : Bool := decide ((r.parts.map fun p => p.2.length).sum = r.size)

/-- The datagram of a complete reassembly. -/
def Reasm.datagram (r : Reasm) : List Byte :=
  r.parts.foldl (fun buf p => overwrite buf p.1 p.2) []

/-- A reassembly removed, its cell freed. -/
def Side.dropReasm (d : Side) (r : Reasm) : Side :=
  (d.freeCellsOf r.cell.toList).updMesh fun k => { k with reasm := k.reasm.filter fun x => !x.is r.orig r.tag r.size }

/-- A reassembly opened by its first fragment; it holds one cell, if one is free. -/
def Side.openReasm (d : Side) (orig tag size lt : Nat) : Side :=
  let t := d.takeCell
  let r : Reasm := { orig := orig, tag := tag, size := size, opened := lt, parts := [], elided := false,
                     cell := t.map (·.1), seq := d.inputNo }
  ((t.map (·.2)).getD d).updMesh fun k =>
    { k with reasm := k.reasm ++ [r], reasmPeak := max k.reasmPeak (k.reasm.length + 1) }

/-- Reassemblies open for REASM_TO seconds at the side's now are discarded (R223). -/
def Side.reasmTimeouts (d : Side) : Side :=
  let limit := 1000000000 * (clampNat 1 60 (rf d.regs Pg.LOWPAN Reg.LOWPAN_REASM_TO 7 0))
  (d.mesh.reasm.filter fun r => decide (r.opened + limit ≤ d.now)).foldl (fun d r =>
    (d.dropReasm r).count Pg.LOWPAN Reg.LOWPAN_REASM_TIMEOUT) d

/-- A fragment's octets at an offset join their reassembly; the datagram when it completes, with its checksum to be
computed or not. A reassembly whose time is over at this input takes no fragment of it (R223). -/
def Side.addPart (d0 : Side) (orig tag size lt off : Nat) (bs : List Byte) (elided : Bool) : Option (List Byte) × Side :=
  let d := d0.reasmTimeouts
  let known := d.mesh.reasm.any fun r => r.is orig tag size
  if !known && decide (512 ≤ d.mesh.reasm.length) then (none, d.count Pg.LOWPAN Reg.LOWPAN_REASM_FULL)
  else
    let d1 := if known then d else d.openReasm orig tag size lt
    match d1.mesh.reasm.find? fun r => r.is orig tag size with
    | none => (none, d1)
    | some r =>
      let again := r.parts.any fun p => decide (p.1 = off) && decide (p.2.length = bs.length)
      let meets := r.parts.any fun p => spansMeet p.1 (p.1 + p.2.length) off (off + bs.length)
      if again then (none, d1)
      else if meets ∨ size < off + bs.length then (none, (d1.dropReasm r).count Pg.LOWPAN Reg.LOWPAN_REASM_OVERLAP)
      else
        let r1 := { r with parts := r.parts ++ [(off, bs)], elided := r.elided || elided }
        if r1.complete then
          let p := r1.datagram
          (some (if r1.elided then fixChecksum 8 p else p), (d1.dropReasm r1).count Pg.LOWPAN Reg.LOWPAN_REASM_OK)
        else (none, d1.updMesh fun k =>
          { k with reasm := k.reasm.map fun x => if x.is orig tag size then r1 else x })

/-- What stage 11 makes of a DML payload with LOWPAN = 1: a packet, nothing, or the payload for HOST_STRAND. -/
inductive LpResult where
  | packet (p : List Byte)
  | none_
  | host
  deriving DecidableEq, Repr

/-- Stage 11 for a received payload (R215 to R223): `eui` the node's EUI-64 (R217). The first fragment's own dispatch is handled by
the same table (R215). -/
def Side.lowpanIn (d : Side) (orig eui lt : Nat) (bs : List Byte) : LpResult × Side :=
  let src := flipUl eui
  let csum := rb d.regs Pg.LOWPAN Reg.LOWPAN_CFG 0
  let un (size : Option Nat) (x : List Byte) : LpOut := decompress d.mesh.ctxs src d.ownIid csum size x
  let bad (d : Side) : LpResult × Side := (.none_, d.count Pg.LOWPAN Reg.LOWPAN_IPHC_BAD)
  let joined (r : Option (List Byte) × Side) : LpResult × Side := match r.1 with
    | some p => (.packet p, r.2.count Pg.LOWPAN Reg.LOWPAN_DECOMP)
    | none => (.none_, r.2)
  let dropped (d : Side) : LpResult × Side := (.none_, d.count Pg.LOWPAN Reg.LOWPAN_DISPATCH_BAD)
  let meshed (d : Side) : LpResult × Side :=
    (if rb d.regs Pg.LOWPAN Reg.LOWPAN_CFG 2 then .host else .none_, d.count Pg.LOWPAN Reg.LOWPAN_MESH_HDR)
  match dispatchOf bs with
  | .bad => dropped d
  | .meshHdr => meshed d
  | .frag1 =>
    let d1 := d.count Pg.LOWPAN Reg.LOWPAN_FRAG_RX
    let size := beNat (slice bs 0 2) % 2048
    if bs.length < 4 then bad d1
    else if 1280 < size then (.none_, d1.count Pg.LOWPAN Reg.LOWPAN_TOOBIG)
    else match dispatchOf (bs.drop 4) with
      | .meshHdr => meshed d1
      | .bad | .frag1 | .fragN => dropped d1
      | _ => match un (some size) (bs.drop 4) with
        | some (p, el) => joined (d1.addPart orig (beNat (slice bs 2 2)) size lt 0 p el)
        | none => bad d1
  | .fragN =>
    let d1 := d.count Pg.LOWPAN Reg.LOWPAN_FRAG_RX
    let size := beNat (slice bs 0 2) % 2048
    if bs.length < 5 then bad d1
    else if 1280 < size then (.none_, d1.count Pg.LOWPAN Reg.LOWPAN_TOOBIG)
    else joined (d1.addPart orig (beNat (slice bs 2 2)) size lt (8 * byteAt bs 4) (bs.drop 5) false)
  | _ => match un none bs with
    | some (p, el) => (.packet (if el then fixChecksum 8 p else p), d.count Pg.LOWPAN Reg.LOWPAN_DECOMP)
    | none => bad d

end Sys2Proof.Machine
end

