-- ==== Sys2Proof/Machine/Phy.lean ====
section
/-! DEFINITION. The ports' numbers and the PHY modes: bins and spans (R78, R81 to R83), airtime (R116, R341, R605),
octet and symbol timing (R137). -/

namespace Sys2Proof.Machine

open Sys2Proof

/-- Bin width W in Hz (table "Port properties" of R78). -/
def binHz : RPort → Nat
  | .h => 100000
  | _ => 12500

/-- Usable bins U. -/
def usableBins : RPort → Nat
  | .s => 1600
  | .m => 3200
  | .h => 840

/-- Tuning range in Hz. -/
def tuning : RPort → Nat × Nat
  | .s => (400000000, 510000000)
  | .m => (770000000, 960000000)
  | .h => (2400000000, 2483500000)

/-- Detector contexts of a port. -/
def contexts : RPort → Nat
  | .s => 256
  | .m => 768
  | .h => 512

/-- First lane and number of lanes of a port (R124). -/
def laneRange : RPort → Nat × Nat
  | .s => (0, 64)
  | .m => (64, 192)
  | .h => (256, 128)

/-- The power domain of a lane's group: LG0 to LG5 are domains 10 to 15 (R124, R512). -/
def laneDomain (lane : Nat) : Nat := 10 + lane / 64

/-- The power domain of a port (R512). -/
def portDomain (p : RPort) : Nat := 7 + p.num

/-- A centre frequency in units of W lies in the tuning range (R79). -/
def loInRange (p : RPort) (lo : Nat) : Bool :=
  decide ((tuning p).1 ≤ lo * binHz p) && decide (lo * binHz p ≤ (tuning p).2)

/-- Modes a port may use (R83, R125). -/
def modeOnPort (p : RPort) (mode : Nat) : Bool :=
  match p with
  | .h => decide (2 ≤ mode ∧ mode ≤ 14)
  | _ => decide (mode ≤ 13)

/-- Minimum HALF of a mode on a port (table "Minimum half-width per mode" of R83). -/
def minHalf (p : RPort) (mode : Nat) : Nat :=
  let sm := match mode with
    | 0 => 1
    | 1 => 4
    | 2 | 7 | 12 => 8
    | 3 | 4 | 8 | 9 => 16
    | 5 | 10 => 24
    | 6 | 11 => 32
    | 13 => 80
    | _ => 0
  let h := match mode with
    | 2 | 7 | 12 => 1
    | 3 | 4 | 8 | 9 => 2
    | 5 | 10 => 3
    | 6 | 11 => 4
    | 13 | 14 => 10
    | _ => 0
  match p with
  | .h => h
  | _ => sm

/-- Data rate of codes 0 to 11 and 14 in b/s (R125). -/
def modeRate : Nat → Nat
  | 0 => 12500
  | 1 => 37500
  | 2 | 7 => 50000
  | 3 | 8 => 100000
  | 4 | 9 => 150000
  | 5 | 10 => 200000
  | 6 | 11 => 300000
  | _ => 250000

/-- Maximum PSDU of a mode (R125). -/
def maxPsdu (mode : Nat) : Nat := if mode = 14 then 127 else 2047

/-- The PHY_OPT bits that apply to a mode; the others are ignored (R129). -/
def optMask (mode opt : Nat) : Nat :=
  if mode ≤ 11 then opt &&& 0x23 else if mode ≤ 13 then opt &&& 0x3C else 0

/-- The PHY_OPT bits on which the airtime of codes 12 and 13 depends: rate mode and spreading (R341). -/
def rateOpt (opt : Nat) : Nat := opt &&& 0x1C

/-- Airtime in µs, rounded up, of a burst with a preamble of `pre` octets (codes 0 to 11) and a PSDU of n octets
with its FCS (R116, R341, R605). For codes 12 and 13 the standard gives it. -/
def airtimeUs (mode phyOpt pre n : Nat) : Nat :=
  let fec := nbit phyOpt 0
  if mode ≤ 6 then
    if fec then ceilDiv (1000000 * (8 * (pre + 2) + 16 * (n + 3))) (modeRate mode)
    else ceilDiv (1000000 * (8 * (pre + 4 + n))) (modeRate mode)
  else if mode ≤ 11 then
    if fec then ceilDiv (1000000 * (16 * (pre + 2) + 16 * (n + 3))) (modeRate mode)
    else ceilDiv (1000000 * (16 * (pre + 2) + 8 * (2 + n))) (modeRate mode)
  else if mode = 14 then 32 * (6 + n)
  else ceilDiv (Config.stdShrNs mode + Config.stdBodyNs mode (rateOpt phyOpt) n) 1000

/-- Airtime in ns from the end of the SFD to the end of the last transmitted symbol: what END_LT adds to SFD_LT
(R149). For codes 12 and 13 the standard gives it. -/
def afterSfdNs (mode phyOpt n : Nat) : Nat :=
  let fec := nbit phyOpt 0
  if mode ≤ 11 then
    if fec then 1000000000 * (16 * (n + 3)) / modeRate mode
    else 1000000000 * (8 * (2 + n)) / modeRate mode
  else if mode = 14 then 32000 * (1 + n)
  else Config.stdBodyNs mode (rateOpt phyOpt) n

/-- One octet period of a mode in ns (R137). -/
def octetNs (mode : Nat) : Nat :=
  if mode = 12 ∨ mode = 13 then Config.stdOctetNs mode else 1000000000 * 8 / modeRate mode

/-- The minimum preamble for detection of a mode in ns (R140, table "Receive limits" of R152): four octets for codes 0 to 11,
sent at half the data rate for codes 7 to 11 (R605). -/
def minPreambleNs (mode : Nat) : Nat :=
  if mode ≤ 6 then 4 * octetNs mode else if mode ≤ 11 then 8 * octetNs mode else Config.stdPreambleNs mode

/-! ## Channels -/

/-- Fields of a definition (table "CHZ.CH_CFG0 fields"). -/
def ChanDef.centre (d : ChanDef) : Nat := fld d.cfg0 11 0
/-- Half-width in bins. -/
def ChanDef.half (d : ChanDef) : Nat := fld d.cfg0 18 12
/-- The channel is in use. -/
def ChanDef.enabled (d : ChanDef) : Bool := bitOf d.cfg0 19
/-- RX_BUSY is raised on it (R108). -/
def ChanDef.protect (d : ChanDef) : Bool := bitOf d.cfg0 20
/-- Listen before each launch (R121). -/
def ChanDef.lbt (d : ChanDef) : Bool := bitOf d.cfg0 21
/-- The duty-cycle account: 16 to 31 mean none (R116). -/
def ChanDef.account (d : ChanDef) : Option Nat := if fld d.cfg0 26 22 < 16 then some (fld d.cfg0 26 22) else none
/-- LBT threshold, −dBm. -/
def ChanDef.lbtThresh (d : ChanDef) : Nat := fld d.cfg1 7 0
/-- ms per dwell window; 0 no limit (R120). -/
def ChanDef.dwellMax (d : ChanDef) : Nat := fld d.cfg1 23 8
/-- The channel carries a mode. -/
def ChanDef.hasMode (d : ChanDef) (mode : Nat) : Bool := bitOf d.modes mode
/-- Detector contexts it uses (R85). -/
def ChanDef.uses (d : ChanDef) : Nat := if d.enabled then (bitsBelow d.modes.toNat 32).length else 0
/-- Lowest bin (R82). -/
def ChanDef.lowBin (d : ChanDef) : Nat := d.centre - d.half
/-- Highest bin. -/
def ChanDef.highBin (d : ChanDef) : Nat := d.centre + d.half

/-- The definition of a channel at reset: the reset values of CH_CFG0, CH_MODES and CH_CFG1. -/
def ChanDef.default : ChanDef := { cfg0 := 0x07C00000#32, modes := 0#32, cfg1 := 0x00000055#32, suspended := false }

/-- The committed definition of a channel. -/
def RfPort.chan (q : RfPort) (ch : Nat) : ChanDef := (q.chans.find ch).getD ChanDef.default

/-- The frequency span of a channel lies within the tuning range (R82): from its lowest bin's lower edge to its
highest bin's upper edge, counted in half bins above zero. -/
def spanInRange (p : RPort) (lo : Nat) (d : ChanDef) : Bool :=
  let mid : Int := 2 * (lo : Int) + 2 * (d.centre : Int) - (usableBins p : Int)
  let w : Int := (binHz p : Int)
  decide (2 * ((tuning p).1 : Int) ≤ (mid - (2 * d.half + 1)) * w) &&
  decide ((mid + (2 * d.half + 1)) * w ≤ 2 * ((tuning p).2 : Int))

/-- The bins of a definition lie in 0 to U − 1 (R82). -/
def binsInRange (p : RPort) (d : ChanDef) : Bool :=
  decide (d.half ≤ d.centre) && decide (d.centre + d.half < usableBins p)

/-- Centre frequency of a channel in Hz (R82). -/
def centreHz (p : RPort) (lo : Nat) (centre : Nat) : Nat :=
  ((lo : Int) * (binHz p : Int) + ((centre : Int) - (usableBins p / 2 : Nat)) * (binHz p : Int)).toNat

/-- The number of whole bins strictly between two channels, 0 when they touch or overlap (R102). -/
def binDistance (l1 h1 l2 h2 : Nat) : Nat :=
  if h1 < l2 then l2 - h1 - 1 else if h2 < l1 then l1 - h2 - 1 else 0

end Sys2Proof.Machine
end

