-- ==== Sys2Proof/Machine/Radio.lean ====
section
/-! DEFINITION. Radio ports, channelizers, transmit carriers, front-end lines and the regulatory limits (chapter 3). -/

namespace Sys2Proof.Machine

open Sys2Proof

/-- The units that leave reset at commons enable act: step 7 is done and the commons clock runs (R549, R557). -/
def unitsRun (s : State) : Bool := s.c.sys.commonsEn && !s.c.sys.commonsStopped

/-- The units of step 7 act: after a keyless boot only the host ports, the chain port and the register pages came up (R308, R557). -/
def commonsUp (s : State) : Bool := unitsRun s && !s.c.tamp.keylessBoot

/-- The port is present, its domain is on and the units of step 7 act (R78, R308, R526, R557). -/
def portRun (s : State) (p : RPort) : Bool :=
  commonsUp s && s.variant.hasPort p && decide (s.c.pd.dom (portDomain p) = .on)

/-- RX_EN of a port. -/
def rxEn (c : Commons) (p : RPort) : Bool := rb c.regs p.rfPage Reg.RF_PORT_CFG 0

/-- TX_EN of a port; a clear made while an acknowledgement was due takes effect at its end (R168). -/
def txEn (c : Commons) (p : RPort) : Bool := rb c.regs p.rfPage Reg.RF_PORT_CFG 1 || (c.port p).txOff

/-- The port is half-duplex (R105, R115, CAL_FAIL). -/
def halfDuplex (c : Commons) (p : RPort) : Bool :=
  !rb c.regs p.rfPage Reg.RF_PORT_CFG 2 || !rb c.regs p.rfPage Reg.RF_PORT_CFG 3 ||
  !(c.port p).calDone || (c.port p).calFail || !(c.port p).cancOk

/-! ## Front-end lines and burst windows -/

/-- FE_CFGn in force (R111). -/
def feCfg (c : Commons) (n : Nat) : Word := (c.sys.feCfg.find n).getD 3#32

/-- The port a line belongs to. -/
def fePort (v : Word) : Option RPort := RPort.ofNum (fld v 1 0)

/-- The source code of a line. -/
def feSrc (v : Word) : Nat := fld v 4 2

/-- The line opens a line window for a burst of a carrier with a profile (R109, R110). -/
def feFollows (v : Word) (p : RPort) (carrier profile : Nat) : Bool :=
  decide (fePort v = some p) &&
  (match feSrc v with
   | 1 | 3 => true
   | 2 => bitOf v (7 + carrier)
   | 4 => nbit profile (fld v 12 11)
   | _ => false)

/-- The lines of a list that satisfy a test, with the largest value of a field, in ns. -/
def feMax (c : Commons) (sel : Word → Bool) (hi lo : Nat) : Nat :=
  (List.range 24).foldl (fun m n => if sel (feCfg c n) then max m (fld (feCfg c n) hi lo * 25) else m) 0

/-- LEAD of a burst's window in ns (R606). -/
def burstLead (c : Commons) (p : RPort) (b : Burst) : Nat :=
  feMax c (fun v => feFollows v p b.launch.carrier b.launch.profile) 23 16

/-- LAG of a burst's window in ns (R606). -/
def burstLag (c : Commons) (p : RPort) (b : Burst) : Nat :=
  feMax c (fun v => feFollows v p b.launch.carrier b.launch.profile) 31 24

/-- The end of a burst: where it was cut, where it ended, or its start plus its airtime. -/
def Burst.fin (b : Burst) : Nat :=
  if b.phase = .ended then b.endLt else match b.cut with
    | some e => e
    | none => b.start + 1000 * b.air

/-- Start of the burst window (R606). -/
def winStart (c : Commons) (p : RPort) (b : Burst) : Nat := b.start - max 8000 (burstLead c p b)

/-- End of the burst window (R606). -/
def winEnd (c : Commons) (p : RPort) (b : Burst) : Nat := b.fin + max 8000 (burstLag c p b)

/-- The listen time of a channel in ns, 0 without LBT (R121). -/
def listenNs (c : Commons) (p : RPort) (d : ChanDef) : Nat :=
  if d.lbt then 1000 * (rf c.regs p.chzPage Reg.CHZ_LBT_CFG 15 0) else 0

/-- A launch listens: its first listen is due, or a listen deferred it, and none has found the channel clear (R95 step 4). Until
one has, its start is not settled and it opens no window. -/
def Burst.listens (c : Commons) (p : RPort) (b : Burst) : Bool :=
  !b.isAck && decide (b.phase = .vetted) && b.chan.lbt && (b.deferred || decide (b.start ≤ c.lt + listenNs c p b.chan))

/-- The burst no longer keeps its carrier: it has ended, its blanking is over and its window is past. -/
def burstGone (c : Commons) (p : RPort) (b : Burst) : Bool :=
  decide (b.phase = .ended) && !b.blanking && decide (winEnd c p b ≤ c.lt)

/-- The window of a burst is open now (R606). -/
def winOpen (c : Commons) (p : RPort) (b : Burst) : Bool :=
  !burstGone c p b && !b.listens c p && decide (winStart c p b ≤ c.lt)

/-- A burst window of the port is open now (R606, R111). -/
def burstOpen (c : Commons) (p : RPort) : Bool := (c.port p).carriers.any fun k => k.bursts.any fun b => winOpen c p b

/-- No retune or gap may begin now: a burst window of the port is open, or an acknowledgement is prepared, which counts as one
from its preparation (R80, R114, R168). -/
def windowOpen (c : Commons) (p : RPort) : Bool :=
  (c.port p).carriers.any fun k => k.bursts.any fun b => winOpen c p b || (b.isAck && !burstGone c p b)

/-- The transmit set-up time of a launch in ns (R93). -/
def setupNs (c : Commons) (p : RPort) (d : ChanDef) : Nat :=
  24000 + feMax c (fun v => decide (fePort v = some p) && (feSrc v = 1 || feSrc v = 2 || feSrc v = 4)) 23 16 +
  listenNs c p d

/-- A line's window for a burst, by that line's own lead and lag (R110). -/
def lineWindow (v : Word) (b : Burst) : Nat × Nat :=
  (b.start - fld v 23 16 * 25, b.fin + fld v 31 24 * 25)

/-- A line window of a followed burst is open now (R110). -/
def lineOpen (c : Commons) (v : Word) : Bool :=
  match fePort v with
  | none => false
  | some p => (c.port p).carriers.any fun k => k.bursts.any fun b =>
    feFollows v p b.launch.carrier b.launch.profile && !b.listens c p &&
    decide ((lineWindow v b).1 ≤ c.lt) && decide (c.lt < (lineWindow v b).2)

/-- A carrier of the line's port is listening before a launch (table "FE line sources"). -/
def listening (c : Commons) (p : RPort) : Bool :=
  (c.port p).carriers.any fun k => k.bursts.any fun b => b.listens c p

/-- The level a line drives now (R109). -/
def feLevel (c : Commons) (v : Word) : Bool :=
  match fePort v with
  | none => bitOf v 6
  | some p =>
    let off := decide (c.pd.dom (portDomain p) ≠ .on)
    match feSrc v with
    | 1 | 2 | 4 => xor (!off && lineOpen c v) (bitOf v 5)
    | 3 => xor (!off && !lineOpen c v) (bitOf v 5)
    | 5 => xor (!off && listening c p) (bitOf v 5)
    | _ => bitOf v 6

/-! ## Blanking -/

/-- A burst that blanks now blanks a channel of bins l to h (R102, R105). -/
def blanksBins (c : Commons) (p : RPort) (b : Burst) (l h : Nat) : Bool :=
  b.blanking && (halfDuplex c p ||
    decide (binDistance b.chan.lowBin b.chan.highBin l h < rf c.regs p.rfPage Reg.RF_BLANK_DIST 8 0))

/-- A channel of bins l to h is blanked now. -/
def blanked (c : Commons) (p : RPort) (l h : Nat) : Bool :=
  (c.port p).carriers.any fun k => k.bursts.any fun b => blanksBins c p b l h

/-- A channel is blanked by a carrier other than one (R121). -/
def blankedByOther (c : Commons) (p : RPort) (carrier l h : Nat) : Bool :=
  (List.range 4).any fun i => decide (i ≠ carrier) &&
    ((c.port p).carriers.getD i ⟨[], [], [], []⟩).bursts.any fun b => blanksBins c p b l h

/-- Two MHz in bins of a port (R104). -/
def nearBins (p : RPort) : Nat := 2000000 / binHz p

/-- A frame on bins l to h is received near a transmission now (R104). -/
def nearTx (c : Commons) (p : RPort) (l h : Nat) : Bool :=
  (c.port p).carriers.any fun k => k.bursts.any fun b => b.blanking &&
    decide (binDistance b.chan.lowBin b.chan.highBin l h < nearBins p)

/-- Lanes of a port closed with a status whose counter is given: BLANKED counts in the RFx page, ABORTED in the FACET
page (R145). -/
def closeLanes (c : Commons) (p : RPort) (sel : Lane → Bool) (page off : Nat) : Commons :=
  let n := ((c.port p).lanes.filter sel).length
  let c1 := c.updPort p fun q => { q with lanes := q.lanes.filter fun l => !sel l }
  { c1 with regs := if n = 0 then c1.regs else bumpBy c1.regs page off n }

/-- The frames in progress on every channel that is blanked now close BLANKED (R102): a burst's blanking may come to reach further
while it lasts (BLANK_DIST, DUPLEX, CANC_EN, R105, R115). -/
def reblank (c : Commons) (p : RPort) : Commons :=
  closeLanes c p (fun l => blanked c p l.chan.lowBin l.chan.highBin) p.rfPage Reg.RF_BLANKED

/-! ## Launches -/

/-- A carrier of a port. -/
def RfPort.carrier (q : RfPort) (n : Nat) : Carrier := q.carriers.getD n ⟨[], [], [], []⟩

/-- A carrier of a port changed. -/
def Commons.updCar (c : Commons) (p : RPort) (n : Nat) (f : Carrier → Carrier) : Commons :=
  c.updPort p fun q => { q with carriers := setAt q.carriers n (f (q.carrier n)) }

/-- Status codes of R97. -/
def stLaunched : Nat := 0
/-- Sent late. -/
def stLate : Nat := 1
/-- Discarded under the late policy. -/
def stMissed : Nat := 2
/-- Refused by its account. -/
def stDutyVeto : Nat := 3
/-- Refused by its channel's dwell limit. -/
def stDwellVeto : Nat := 4
/-- Channel busy. -/
def stLbtBusy : Nat := 5
/-- Cut short for an acknowledgement. -/
def stPreempted : Nat := 6
/-- Port disabled, or the frame cell was lost. -/
def stAborted : Nat := 7
/-- Failed the parameter check. -/
def stBadParam : Nat := 8

/-- The counters of an RFx page that a status advances (RFx page). -/
def statusCounters : Nat → List Nat
  | 0 => [Reg.RF_LAUNCHED]
  | 1 => [Reg.RF_LAUNCHED, Reg.RF_LATE]
  | 2 => [Reg.RF_MISSED]
  | 3 => [Reg.RF_DUTY_VETO]
  | 4 => [Reg.RF_DWELL_VETO]
  | 5 => [Reg.RF_LBT_BUSY]
  | 6 => [Reg.RF_PREEMPTED]
  | _ => []

/-- A launch ends: its status is counted, and its completion with the actual launch LT and the airtime is sequenced
to both sides (R95 step 9, R97). DESIGN CHOICE: where no burst was made, the airtime is the planned one for DUTY_VETO, DWELL_VETO
and LBT_BUSY and 0 for MISSED, ABORTED and BAD_PARAM; the sides charge neither (R119). -/
def completeLaunch (s : State) (l : Launch) (status lt air : Nat) : State :=
  (s.updR fun t => (statusCounters status).foldl (fun t o => bump t l.port.rfPage o) t).offer .units
    (.launchDone { id := l.id, port := l.port, carrier := l.carrier, ch := l.ch, status := status, lt := lt,
                   airtime := air })

/-- Airtime of a launch (R116). -/
def Launch.air (l : Launch) : Nat := airtimeUs l.mode l.phyOpt l.preamble l.psdu.length

/-- An LT lies in a span of a length that ends at an LT. -/
def spanHolds (len : Nat) (fin : Option Nat) (t : Nat) : Bool :=
  match fin with
  | some e => decide (e ≤ t + len) && decide (t < e)
  | none => false

/-- The retune in progress covers an LT (R80). -/
def retuned (q : RfPort) (t : Nat) : Bool := spanHolds 200000 q.retuneEnd t

/-- The retune, the calibration gap or the start-up calibration in progress covers an LT (R80, R96, R113). -/
def covered (q : RfPort) (t : Nat) : Bool :=
  retuned q t || spanHolds 5000000 q.gapEnd t || spanHolds 20000000 q.calEnd t

/-- Step 2 of the launch checks: a late launch follows its policy, execute-now moving it to the earliest time; one that a gap or
retune covers is held; any other is planned (R65, R93 to R96). -/
def lateCheck (s : State) (p : RPort) (n : Nat) (l : Launch) (d : ChanDef) : State :=
  let early := s.c.lt + setupNs s.c p d
  let late := decide (l.lt < early)
  let t := max early l.lt
  if late && l.discardLate then completeLaunch s l stMissed l.lt 0
  else if covered (s.c.port p) t then
    s.updC fun c => c.updCar p n fun k => { k with held := k.held ++ [⟨l, d, retuned (c.port p) t⟩] }
  else s.updC fun c => c.updCar p n fun k =>
    { k with bursts := k.bursts ++ [{ isAck := false, launch := l, start := t, air := l.air, phase := .planned,
                                      deferred := false, late := late, cut := none, blanking := false, endLt := 0,
                                      chan := d }] }

/-- The carrier is free for the next launch: every burst on it has ended, with its FE lag (R94). -/
def carrierFree (c : Commons) (p : RPort) (n : Nat) : Bool :=
  ((c.port p).carrier n).bursts.all fun b => decide (b.phase = .ended) && decide (b.endLt + burstLag c p b ≤ c.lt)

/-- The carrier may take its next launch: it is free and no earlier launch is held (R94). -/
def carrierReady (c : Commons) (p : RPort) (n : Nat) : Bool :=
  carrierFree c p n && ((c.port p).carrier n).held.isEmpty

/-- Step 1 of the launch checks (R95). -/
def paramOk (c : Commons) (p : RPort) (l : Launch) : Bool :=
  decide (l.carrier < 4) && bitOf (rd c.regs p.rfPage Reg.RF_TX_CFG) l.carrier && txEn c p &&
  ((c.port p).chan l.ch).enabled && !((c.port p).chan l.ch).suspended && ((c.port p).chan l.ch).hasMode l.mode

/-- A launch transaction reaches its carrier: the oldest arrival undergoes steps 1 and 2 (R95); a port that is
disabled refuses it as ABORTED (R457, R458). -/
def launchArrive (s : State) (p : RPort) (n : Nat) : State :=
  match ((s.c.port p).carrier n).arrivals with
  | [] => s
  | l :: rest =>
    let s1 := s.updC fun c => c.updCar p n fun k => { k with arrivals := rest }
    if !unitOn s.c.regs p.rfPage then completeLaunch s1 l stAborted l.lt 0
    else if !paramOk s.c p l then completeLaunch s1 l stBadParam l.lt 0
    else
      let d := (s.c.port p).chan l.ch
      if carrierReady s1.c p n && ((s1.c.port p).carrier n).queue.isEmpty then lateCheck s1 p n l d
      else s1.updC fun c => c.updCar p n fun k => { k with queue := k.queue ++ [(l, d)] }

/-- The carrier frees: bursts whose window is past leave, and the next launch undergoes its late check (R94). -/
def carrierFrees (s : State) (p : RPort) (n : Nat) : State :=
  if carrierReady s.c p n then
    let s1 := s.updC fun c => c.updCar p n fun k => { k with bursts := k.bursts.filter fun b => !burstGone c p b }
    match ((s1.c.port p).carrier n).queue with
    | [] => s1
    | (l, d) :: rest => lateCheck (s1.updC fun c => c.updCar p n fun k => { k with queue := rest }) p n l d
  else s

/-- Airtime charged on a channel in the sliding dwell window, µs (R120). -/
def dwellUsed (q : RfPort) (ch : Nat) : Nat :=
  (q.dwell.filter fun e => decide (e.1 / 16 = ch)).foldl (fun n e => n + e.2) 0

/-- The dwell check of a burst (R120). -/
def dwellOk (c : Commons) (p : RPort) (d : ChanDef) (ch air : Nat) : Bool :=
  decide (d.dwellMax = 0) || decide (dwellUsed (c.port p) ch + air ≤ 1000 * d.dwellMax)

/-- The window total of an account, µs (R117). -/
def dutyUsed (y : DutyState) (acct : Nat) : Nat :=
  (y.use.filter fun e => decide (e.1 / 64 = acct)).foldl (fun n e => n + e.2) 0

/-- Register offset of an account (DUTY page). -/
def acctOff (base acct : Nat) : Nat := base + 16 * acct

/-- The duty-cycle check of a burst (R118). -/
def dutyOk (c : Commons) (d : ChanDef) (air : Nat) : Bool :=
  match d.account with
  | none => true
  | some k => !rb c.regs Pg.DUTY (acctOff Reg.DUTY_ACCT_CFG k) 0 ||
    decide (dutyUsed c.duty k + air ≤ 1000 * (rf c.regs Pg.DUTY (acctOff Reg.DUTY_ACCT_LIMIT k) 21 0))

/-- How an account treats acknowledgements; 3 is treated as 0 (R118, R123). -/
def ackMode (c : Commons) (acct : Nat) : Nat :=
  let m := rf c.regs Pg.DUTY (acctOff Reg.DUTY_ACCT_CFG acct) 2 1
  if m = 3 then 0 else m

/-- A burst is charged to its account and its channel's dwell window (R116, R120). -/
def charge (c : Commons) (p : RPort) (d : ChanDef) (ch air : Nat) (acct : Bool) : Commons :=
  let c1 := c.updPort p fun q =>
    { q with dwell := q.dwell.put (ch * 16 + q.dwellIdx) ((q.dwell.find (ch * 16 + q.dwellIdx)).getD 0 + air) }
  match d.account with
  | none => c1
  | some k => if acct then
      let key := k * 64 + c1.duty.idx
      { c1 with duty := { c1.duty with use := c1.duty.use.put key ((c1.duty.use.find key).getD 0 + air) } }
    else c1

/-- The first burst of a carrier that satisfies a test, with its place. -/
def findBurst (k : Carrier) (f : Burst → Bool) : Option (Nat × Burst) :=
  match (List.range k.bursts.length).find? (fun i => match k.bursts[i]? with
    | some b => f b
    | none => false) with
  | some i => (k.bursts[i]?).map (i, ·)
  | none => none

/-- A burst of a carrier replaced. -/
def setBurst (c : Commons) (p : RPort) (n i : Nat) (b : Burst) : Commons :=
  c.updCar p n fun k => { k with bursts := k.bursts.set i b }

/-- A burst of a carrier removed. -/
def dropBurst (c : Commons) (p : RPort) (n i : Nat) : Commons :=
  c.updCar p n fun k => { k with bursts := k.bursts.eraseIdx i }

/-- Step 3: the dwell check, then the duty-cycle check; a failure ends the launch (R95, R118, R120). -/
def vet (s : State) (p : RPort) (n i : Nat) (b b' : Burst) : State :=
  if !dwellOk s.c p b.chan b.launch.ch b.air then
    completeLaunch (s.updC fun c => dropBurst c p n i) b.launch stDwellVeto b.start b.air
  else if !dutyOk s.c b.chan b.air then
    completeLaunch ((s.updC fun c => dropBurst c p n i).updR fun t =>
      match b.chan.account with
      | some k => bump t Pg.DUTY (acctOff Reg.DUTY_ACCT_VETO k)
      | none => t) b.launch stDutyVeto b.start b.air
  else s.updC fun c => setBurst c p n i b'

/-- A planned launch is held, since a gap or retune covers its launch LT (R80, R96). -/
def holdBurst (s : State) (p : RPort) (n i : Nat) (b : Burst) : State :=
  (s.updC fun c => dropBurst c p n i).updC fun c => c.updCar p n fun k =>
    { k with held := k.held ++ [⟨b.launch, b.chan, retuned (c.port p) b.start⟩] }

/-- A burst has started. -/
def BurstPhase.started : BurstPhase → Bool
  | .onAir | .ended => true
  | _ => false

/-- A gap or retune has begun: every launch of the port that it covers, and every launch still listening, is held (R80, R96).
DEDUCED: a listening launch can start no sooner than now, so what has begun covers its launch LT. -/
def holdCovered (c : Commons) (p : RPort) : Commons :=
  let q := c.port p
  let caught (b : Burst) : Bool := !b.isAck && !b.phase.started && (covered q b.start || b.listens c p)
  c.updPort p fun q => { q with carriers := q.carriers.map fun k =>
    { k with bursts := k.bursts.filter fun b => !caught b
             held := k.held ++ (k.bursts.filter caught).map fun b => ⟨b.launch, b.chan, retuned q (max b.start c.lt)⟩ } }

/-- At L − S a planned launch undergoes step 3. -/
def launchCheck (s : State) (p : RPort) (n : Nat) : State :=
  match findBurst ((s.c.port p).carrier n) (fun b => !b.isAck && decide (b.phase = .planned) &&
      decide (b.start ≤ s.c.lt + setupNs s.c p b.chan)) with
  | none => s
  | some (i, b) =>
    if covered (s.c.port p) b.start then holdBurst s p n i b
    else vet s p n i b { b with phase := .vetted }

/-- RSSI code as reported: with RSSI_OFS added, between 0 and 511 (R90). -/
def rssiAdj (c : Commons) (p : RPort) (code : Nat) : Nat :=
  let v : Int := (code : Int) + signed 8 (rf c.regs p.rfPage Reg.RF_RSSI_OFS 7 0)
  min 511 v.toNat

/-- The channel is clear: mean RSSI below −LBT_THRESH dBm, and not blanked by another carrier (R121). -/
def lbtClear (c : Commons) (p : RPort) (n : Nat) (d : ChanDef) (code : Nat) : Bool :=
  decide (rssiAdj c p code + 2 * d.lbtThresh < 320) && !blankedByOther c p n d.lowBin d.highBin

/-- The start of a launch whose listen has found the channel clear: its launch LT, or for one that was deferred the earliest time
that leaves steps 5 and 6 before it (R95). -/
def clearStart (c : Commons) (p : RPort) (b : Burst) : Nat :=
  if b.deferred || decide (b.start < c.lt) then max b.start (c.lt + max 8000 (burstLead c p b)) else b.start

/-- A prepared acknowledgement of the carrier has a window that the burst's would meet (R99, R100). -/
def meetsAck (c : Commons) (p : RPort) (n : Nat) (b : Burst) : Bool :=
  ((c.port p).carrier n).bursts.any fun a => a.isAck && decide (a.phase ≠ .ended) &&
    spansMeet (winStart c p a) (winEnd c p a) (winStart c p b) (winEnd c p b)

/-- The listen of step 4: clear settles the launch's start; busy defers it, and blanking that had begun ends. A deferred launch
that would then meet an acknowledgement of its carrier is held until that ends (R100). -/
def listen (s : State) (p : RPort) (n code : Nat) : State :=
  match findBurst ((s.c.port p).carrier n) (fun b => b.listens s.c p) with
  | none => s
  | some (i, b) =>
    if lbtClear s.c p n b.chan code then
      let b' := { b with phase := .clear, start := clearStart s.c p b }
      if meetsAck s.c p n b' then holdBurst s p n i b else s.updC fun c => setBurst c p n i b'
    else s.updC fun c => setBurst c p n i { b with deferred := true, blanking := false }

/-- MAX_DEFER in ns. -/
def maxDeferNs (c : Commons) (p : RPort) : Nat := 100000 * (rf c.regs p.chzPage Reg.CHZ_LBT_CFG 31 16)

/-- A launch still listening past L + MAX_DEFER ends LBT_BUSY (R95 step 4). -/
def deferExpire (s : State) (p : RPort) (n : Nat) : State :=
  match findBurst ((s.c.port p).carrier n) (fun b => !b.isAck && decide (b.phase = .vetted) && b.chan.lbt &&
      decide (b.start + maxDeferNs s.c p < s.c.lt)) with
  | none => s
  | some (i, b) => completeLaunch (s.updC fun c => dropBurst c p n i) b.launch stLbtBusy b.start b.air

/-- The burst may start as far as its checks go. -/
def Burst.ready (c : Commons) (p : RPort) (b : Burst) : Bool :=
  if b.isAck then decide (b.phase = .planned)
  else decide (b.phase = .clear) || (decide (b.phase = .vetted) && !b.listens c p)

/-- 8 µs before a burst its blanking begins: frames in progress on the channels it blanks close BLANKED (R95 step 6,
R102, R170), and frames at a distance below 2 MHz carry NEAR_TX (R104). -/
def blankStart (s : State) (p : RPort) (n : Nat) : State :=
  match findBurst ((s.c.port p).carrier n) (fun b => b.ready s.c p && !b.blanking && decide (b.start ≤ 8000 + s.c.lt)) with
  | none => s
  | some (i, b) => s.updC fun c =>
    let b1 := { b with blanking := true }
    let c1 := closeLanes (setBurst c p n i b1) p (fun l => blanksBins c p b1 l.chan.lowBin l.chan.highBin) p.rfPage Reg.RF_BLANKED
    let markNear (l : Lane) : Lane :=
      if binDistance b.chan.lowBin b.chan.highBin l.chan.lowBin l.chan.highBin < nearBins p then { l with nearTx := true } else l
    c1.updPort p fun q => { q with lanes := q.lanes.map markNear }

/-- A burst goes on the air and is charged (R95 step 7, R116). -/
def burstStarts (s : State) (p : RPort) (n i : Nat) (b : Burst) : State :=
  s.updC fun c => charge (setBurst c p n i { b with phase := .onAir }) p b.chan b.launch.ch b.air true

/-- At L the preamble of a launch starts, a deferred one after step 3 again (R95 steps 4 and 7). With TX_EN cleared in between
the port is disabled, and the launch ends ABORTED (R97). -/
def burstBegin (s : State) (p : RPort) (n : Nat) : State :=
  match findBurst ((s.c.port p).carrier n) (fun b => !b.isAck && b.ready s.c p && decide (b.start ≤ s.c.lt)) with
  | none => s
  | some (i, b) =>
    if txEn s.c p then
      if b.deferred && (!dwellOk s.c p b.chan b.launch.ch b.air || !dutyOk s.c b.chan b.air) then vet s p n i b b
      else burstStarts s p n i b
    else completeLaunch (s.updC fun c => dropBurst c p n i) b.launch stAborted b.start 0

/-- A launch burst ends, by its airtime or at a cut, and its completion is sequenced (R95 step 9, R100). It carries the airtime
charged at the start, so that the sides' copies stay exact (R116, R119); DEDUCED for a burst that was cut. -/
def burstFinish (s : State) (p : RPort) (n : Nat) : State :=
  match findBurst ((s.c.port p).carrier n) (fun b => !b.isAck && decide (b.phase = .onAir) &&
      decide (b.fin ≤ s.c.lt)) with
  | none => s
  | some (i, b) =>
    let s1 := s.updC fun c => setBurst c p n i { b with phase := .ended, endLt := b.fin }
    match b.cut with
    | some _ => completeLaunch s1 b.launch stPreempted b.start b.air
    | none => completeLaunch s1 b.launch (if b.late then stLate else stLaunched) b.start b.air

/-- 8 µs after a burst ends its blanking ends (R95 step 8, R102). -/
def blankFinish (s : State) (p : RPort) (n : Nat) : State :=
  match findBurst ((s.c.port p).carrier n) (fun b => decide (b.phase = .ended) && b.blanking &&
      decide (8000 + b.endLt ≤ s.c.lt)) with
  | none => s
  | some (i, b) => s.updC fun c => setBurst c p n i { b with blanking := false }

/-- The launches held on a carrier re-enter at step 2, before those that came later (R94, R96, R100, R113); one that a retune held
is newly arrived, and one of those that fails step 1 ends BAD_PARAM (R80). -/
def reenterCarrier (s : State) (p : RPort) (n : Nat) : State :=
  let hs := ((s.c.port p).carrier n).held
  let bad (e : Held) : Bool := e.retune && !paramOk s.c p e.launch
  let s1 := s.updC fun c => c.updCar p n fun k =>
    { k with held := []
             queue := (hs.filter fun e => !bad e).map (fun e => (e.launch, if e.retune then (c.port p).chan e.launch.ch else e.chan)) ++
               k.queue }
  carrierFrees ((hs.filter bad).foldl (fun s e => completeLaunch s e.launch stBadParam e.launch.lt 0) s1) p n

/-- The launches held on every carrier of a port re-enter at step 2. -/
def reenter (s : State) (p : RPort) : State := (List.range 4).foldl (fun s n => reenterCarrier s p n) s

/-- An acknowledgement's preamble starts; it is sent, and charged unless its account takes no acknowledgements
(R116, R118, R166). -/
def ackBegin (s : State) (p : RPort) (n : Nat) : State :=
  match findBurst ((s.c.port p).carrier n) (fun b => b.isAck && decide (b.phase = .planned) &&
      decide (b.start ≤ s.c.lt)) with
  | none => s
  | some (i, b) => s.updC fun c =>
    let pays := match b.chan.account with
      | some k => decide (ackMode c k ≠ 2)
      | none => false
    (charge (setBurst c p n i { b with phase := .onAir }) p b.chan b.launch.ch b.air pays).count p.rfPage
      Reg.RF_ACK_SENT

/-- An acknowledgement is still due or on the air on a port (R168). -/
def ackDue (q : RfPort) : Bool :=
  q.carriers.any fun k => k.bursts.any fun b => b.isAck && decide (b.phase ≠ .ended)

/-- An acknowledgement ends; launches held for it re-enter (R100), and a deferred TX_EN clear takes effect (R168). -/
def ackFinish (s : State) (p : RPort) (n : Nat) : State :=
  match findBurst ((s.c.port p).carrier n) (fun b => b.isAck && decide (b.phase = .onAir) &&
      decide (b.fin ≤ s.c.lt)) with
  | none => s
  | some (i, b) =>
    let s1 := s.updC fun c => setBurst c p n i { b with phase := .ended, endLt := b.fin }
    let s2 := s1.updC fun c => c.updPort p fun q => if ackDue q then q else { q with txOff := false }
    reenterCarrier s2 p n

/-! ## Retune and calibration -/

/-- The port retunes now: receptions close ABORTED, enabled channels whose span leaves the tuning range are suspended, and launches
that the retune covers are held (R80, R88). -/
def retuneNow (c : Commons) (p : RPort) (lo : Nat) : Commons :=
  let c1 := closeLanes c p (fun _ => true) p.facetPage Reg.FACET_ABORTED
  let chans := (c1.port p).chans.map fun e =>
    (e.1, { e.2 with suspended := e.2.enabled && !spanInRange p lo e.2 })
  let fresh := chans.any fun e => e.2.suspended && !((c1.port p).chan e.1).suspended
  let c2 := holdCovered (c1.updPort p fun q =>
    { q with lo := lo, retuneReq := none, retuneEnd := some (c.lt + 200000), chans := chans }) p
  if fresh then c2.err p.rfPage 1 else c2

/-- A retune starts once no burst window of the port is open (R80). -/
def retuneBegin (s : State) (p : RPort) : State :=
  match (s.c.port p).retuneReq with
  | none => s
  | some lo =>
    if windowOpen s.c p || (s.c.port p).retuneEnd.isSome then s
    else s.updC fun c => retuneNow c p lo

/-- The retune ends and held launches re-enter (R80). -/
def retuneFinish (s : State) (p : RPort) : State :=
  match (s.c.port p).retuneEnd with
  | some e => if e ≤ s.c.lt then reenter (s.updC fun c => c.updPort p fun q => { q with retuneEnd := none }) p else s
  | none => s

/-- The next scheduled gap after an LT: a whole multiple of PERIOD seconds plus PHASE seconds (R114). -/
def nextGap (c : Commons) (p : RPort) (lt : Nat) : Option Nat :=
  let per := 1000000000 * (rf c.regs p.rfPage Reg.RF_CAL_CFG 15 0)
  let ph := 1000000000 * (rf c.regs p.rfPage Reg.RF_CAL_CFG 31 16)
  if per = 0 then none
  else if lt < ph then some ph
  else some (ph + ((lt - ph) / per + 1) * per)

/-- The start-up calibration of R113 begins when RX_EN or TX_EN is first acted on. -/
def calBegin (c : Commons) (p : RPort) : Commons :=
  if (rxEn c p || txEn c p) && !(c.port p).calDone && (c.port p).calEnd.isNone then
    c.updPort p fun q => { q with calEnd := some (c.lt + 20000000) }
  else c

/-- The start-up calibration ends after 20 ms (R113); one that did not converge leaves the port half-duplex. -/
def calFinish (s : State) (p : RPort) (converged : Bool) : State :=
  match (s.c.port p).calEnd with
  | some e => if e ≤ s.c.lt then
      let s1 := s.updC fun c =>
        let c1 := c.updPort p fun q =>
          { q with calEnd := none, calDone := true, calFail := !converged, gapNext := nextGap c p c.lt }
        if converged then c1 else c1.err p.rfPage 3
      reenter s1 p
    else s
  | none => s

/-- 100 ms before a scheduled gap CAL_NOTICE is raised, with the gap's start and length (R115). -/
def calWarn (s : State) (p : RPort) : State :=
  match (s.c.port p).gapNext with
  | some g => if g ≤ 100000000 + s.c.lt && !(s.c.port p).noticed then
      ((s.updC fun c => c.updPort p fun q => { q with noticed := true }).event p.rfPage 1).notice (.calNotice p g 5000)
    else s
  | none => s

/-- A calibration gap starts after any open burst window has closed: frames in progress close BLANKED; a gap asked
for with GAP_NOW is announced as it starts (R114, R115). -/
def gapBegin (s : State) (p : RPort) : State :=
  let q := s.c.port p
  let sched := match q.gapNext with
    | some g => decide (g ≤ s.c.lt)
    | none => false
  if (sched || q.gapNow) && q.calDone && q.gapEnd.isNone && q.retuneEnd.isNone && !windowOpen s.c p then
    let s1 := s.updC fun c =>
      holdCovered ((closeLanes c p (fun _ => true) p.rfPage Reg.RF_BLANKED).updPort p fun q =>
        { q with gapEnd := some (c.lt + 5000000), gapNow := if sched then q.gapNow else false,
                 gapNext := if sched then none else q.gapNext, noticed := if sched then false else q.noticed }) p
    if sched then s1
    else (s1.event p.rfPage 1).notice (.calNotice p s.c.lt 5000)
  else s

/-- The gap ends: below 25 dB the canceller counts as degraded and the port is half-duplex until a later gap
succeeds (R115); held launches re-enter (R96). -/
def gapFinish (s : State) (p : RPort) (ok : Bool) : State :=
  match (s.c.port p).gapEnd with
  | some e => if e ≤ s.c.lt then
      let s1 := s.updC fun c =>
        let c1 := c.updPort p fun q =>
          { q with gapEnd := none, cancOk := ok, calFail := q.calFail && !ok,
                   gapNext := match q.gapNext with
                     | some g => some g
                     | none => nextGap c p c.lt }
        let c2 := { c1 with regs := wr c1.regs p.rfPage Reg.RF_CANC_STAT (w32 (Config.cancStat c1.time.freeIdx)),
                            time := { c1.time with freeIdx := c1.time.freeIdx + 1 } }
        if ok then c2 else reblank (c2.err p.rfPage 2) p
      reenter s1 p
    else s
  | none => s

/-! ## Buckets -/

/-- A one-minute bucket boundary: the window moves on by one bucket (R117). -/
def bucketStep (c : Commons) : Commons :=
  if c.duty.next ≤ c.lt then
    let i := (c.duty.idx + 1) % 60
    { c with duty := { use := c.duty.use.filter fun e => decide (e.1 % 64 ≠ i), idx := i,
                       next := c.duty.next + 60000000000 } }
  else c

/-- A dwell sub-bucket of DWELL_WIN / 16 ends and the sliding window moves on (R120). DESIGN CHOICE: the sub-buckets follow one
another from PORST_N release, and a write of DWELL_WIN changes the length of the next one, not of the current one. -/
def dwellStep (c : Commons) (p : RPort) : Commons :=
  if (c.port p).dwellNext ≤ c.lt then
    c.updPort p fun q =>
      let i := (q.dwellIdx + 1) % 16
      { q with dwell := q.dwell.filter fun e => decide (e.1 % 16 ≠ i), dwellIdx := i,
               dwellNext := q.dwellNext + 1000000 * (rf c.regs p.chzPage Reg.CHZ_DWELL_WIN 15 0) / 16 }
  else c

/-! ## Register writes with effects -/

/-- A write to LO_FREQ: outside the tuning range it is ignored and sets LO_RANGE; otherwise the retune waits for
the port's burst windows (R79, R80). -/
def writeLoFreq (c : Commons) (p : RPort) (v : Word) : Commons :=
  if loInRange p (fld v 16 0) then
    { c with regs := wr c.regs p.rfPage Reg.RF_LO_FREQ (w32 (fld v 16 0)) }.updPort p fun q =>
      { q with retuneReq := some (fld v 16 0) }
  else c.err p.rfPage 0

/-- A write to PORT_CFG: clearing RX_EN aborts every bound lane (R144); clearing TX_EN waits for a prepared
acknowledgement (R168); half-duplex blanking reaches every channel at once (R105); a first enable starts the calibration
(R113). -/
def writePortCfg (c : Commons) (p : RPort) (on : Bool) (v : Word) : Commons :=
  let was := rd c.regs p.rfPage Reg.RF_PORT_CFG
  let c1 := { c with regs := wr c.regs p.rfPage Reg.RF_PORT_CFG (w32 (fld v 3 0)) }
  let c2 := if bitOf was 0 && !bitOf v 0 then closeLanes c1 p (fun _ => true) p.facetPage Reg.FACET_ABORTED else c1
  let c3 := if bitOf was 1 && !bitOf v 1 && ackDue (c.port p) then c2.updPort p fun q => { q with txOff := true }
    else c2
  let c4 := reblank c3 p
  if on then calBegin c4 p else c4

/-- A write to BLANK_DIST: blanking in progress reaches as far as the new distance (R102, R103). -/
def writeBlankDist (c : Commons) (p : RPort) (v : Word) : Commons :=
  reblank { c with regs := wr c.regs p.rfPage Reg.RF_BLANK_DIST v } p

/-- Results of a channel command (table "Channel command results"). -/
def chResult (c : Commons) (p : RPort) (idx : Nat) (d : ChanDef) : Nat :=
  let modes := bitsBelow d.modes.toNat 32
  let others := ((c.port p).chans.filter fun e => decide (e.1 ≠ idx)).foldl (fun n e => n + e.2.uses) 0
  if !binsInRange p d || !spanInRange p (c.port p).lo d then 1
  else if modes.any fun m => !modeOnPort p m then 3
  else if modes.any fun m => decide (d.half < minHalf p m) then 2
  else if contexts p < others + d.uses then 4
  else 0

/-- CH_CMD.WRITE: the staged definition is committed whole or refused whole; a commit raises CHZ_COMMIT (R84 to
R87). -/
def chanWrite (s : State) (p : RPort) : State :=
  let t := s.c.regs
  let idx := rf t p.chzPage Reg.CHZ_CH_IDX 7 0
  let d : ChanDef := { cfg0 := rd t p.chzPage Reg.CHZ_CH_CFG0, modes := rd t p.chzPage Reg.CHZ_CH_MODES,
                       cfg1 := rd t p.chzPage Reg.CHZ_CH_CFG1, suspended := false }
  let r := chResult s.c p idx d
  let s1 := s.updR fun t => wr t p.chzPage Reg.CHZ_CH_RESULT (w32 r)
  if r = 0 then
    ((s1.updC fun c => c.updPort p fun q => { q with chans := q.chans.put idx d }).event p.chzPage 0).notice (.chzCommit p idx d)
  else s1

/-- CH_CMD.READ: the selected entry is loaded into the staging registers (R84). -/
def chanRead (c : Commons) (p : RPort) : Commons :=
  let idx := rf c.regs p.chzPage Reg.CHZ_CH_IDX 7 0
  let d := (c.port p).chan idx
  { c with regs := wr (wr (wr (wr c.regs p.chzPage Reg.CHZ_CH_CFG0 d.cfg0) p.chzPage Reg.CHZ_CH_MODES d.modes)
      p.chzPage Reg.CHZ_CH_CFG1 d.cfg1) p.chzPage Reg.CHZ_CH_RESULT 0#32 }

/-- A written FE_CFGn takes effect: outside every line window and burst window of its port, and of the port it joins
(R111); a static line takes its level then, unless the pins are held (R112). -/
def feApply (c : Commons) (n : Nat) : Commons :=
  let v := rd c.regs Pg.RFM (Reg.RF_FE_CFG + 4 * n)
  let old := feCfg c n
  let busy (o : Option RPort) : Bool := match o with
    | some p => burstOpen c p
    | none => false
  if n < 24 && decide (v ≠ old) && !busy (fePort old) && !busy (fePort v) && !lineOpen c old && !c.bezel.held then
    let c1 := { c with sys := { c.sys with feCfg := c.sys.feCfg.put n v } }
    { c1 with sys := { c1.sys with feOut := setNBit c1.sys.feOut n (feLevel c1 v) } }
  else c

/-- An FE_CTL line changes state at the edge of a line window (R110); a static line does not move here (R112). -/
def feEdge (c : Commons) (n : Nat) : Commons :=
  if n < 24 then { c with sys := { c.sys with feOut := setNBit c.sys.feOut n (feLevel c (feCfg c n)) } } else c

/-- The port ADC clips: ADC_CLIP counts (R89). -/
def adcClips (c : Commons) (p : RPort) : Commons := c.count p.rfPage Reg.RF_ADC_CLIP

/-- The analogue gain of a port in dB (R89): with MODE 1 FIXED_GAIN, rounded down to an even value; with MODE 0 the AGC of a
receiving port sets one between 0 and 48 dB in 2 dB steps. DEDUCED: a port that does not receive shows the reset value 0. -/
def agcGain (c : Commons) (p : RPort) : Nat :=
  let cfg := rd c.regs p.rfPage Reg.RF_AGC_CFG
  if bitOf cfg 0 then fld cfg 13 8 / 2 * 2
  else if rxEn c p && (c.port p).calDone then 2 * (Config.agcGain p.num c.lt (fld cfg 21 16) % 25)
  else 0

/-- A launch passed to a port whose domain is not on completes ABORTED. DEDUCED: as for a disabled port. -/
def launchDark (s : State) (p : RPort) (n : Nat) : State :=
  match ((s.c.port p).carrier n).arrivals with
  | [] => s
  | l :: rest => completeLaunch (s.updC fun c => c.updCar p n fun k => { k with arrivals := rest }) l stAborted l.lt 0

end Sys2Proof.Machine
end

