-- ==== Sys2Proof/Machine/Lanes.lean ====
section
/-! DEFINITION. Facet lanes: detection, merging, binding and closing (chapter 4). -/

namespace Sys2Proof.Machine

open Sys2Proof

/-- The entries of a register selected by an index that are not at their reset value. -/
def bankEntries (t : Tab Word) (page off : Nat) : List (Nat × Word) :=
  t.filterMap fun e =>
    if e.1 % 4096 = off ∧ (e.1 / 4096) % 128 = page then some (e.1 / 524288, e.2) else none

/-- The effective limit of a CH_LANES value: 0 and 3 mean 2 (R135). -/
def effLimit (v : Word) : Nat := if fld v 5 4 = 1 then 1 else 2

/-- RSV(c): at most the effective limit (R139). -/
def effRsv (v : Word) : Nat := min (min (fld v 1 0) 2) (effLimit v)

/-- CH_LANES of a channel. -/
def chLanes (c : Commons) (p : RPort) (ch : Nat) : Word := rdI c.regs p.facetPage Reg.FACET_CH_LANES ch

/-- Frames bound on a channel. -/
def boundOn (q : RfPort) (ch : Nat) : Nat := (q.lanes.filter fun l => decide (l.ch = ch)).length

/-- owed(c) of a reservation (R139). -/
def owed (q : RfPort) (ch : Nat) (v : Word) : Nat := effRsv v - boundOn q ch

/-- The sum of RSV over the channels of a port (R143). -/
def rsvSum (c : Commons) (p : RPort) : Nat :=
  (bankEntries c.regs p.facetPage Reg.FACET_CH_LANES).foldl (fun n e => n + effRsv e.2) 0

/-- The sum of owed over the channels of a port other than one (R139). -/
def owedOthers (c : Commons) (p : RPort) (ch : Nat) : Nat :=
  ((bankEntries c.regs p.facetPage Reg.FACET_CH_LANES).filter fun e => decide (e.1 ≠ ch)).foldl
    (fun n e => n + owed (c.port p) e.1 e.2) 0

/-- The lanes of a port in powered lane groups; a group that quiesces is powered until its isolation (R124, R138, R144). -/
def poweredLanes (c : Commons) (p : RPort) : List Nat :=
  ((List.range (laneRange p).2).map ((laneRange p).1 + ·)).filter fun n => decide (c.pd.dom (laneDomain n) = .on)

/-- PORT_LIMIT, at most the port's lane count (R138). -/
def portLimit (c : Commons) (p : RPort) : Nat := min (rf c.regs p.facetPage Reg.FACET_PORT_LIMIT 8 0) (laneRange p).2

/-- A: the lanes available on a port now (R138). -/
def lanesAvail (c : Commons) (p : RPort) : Nat :=
  min (portLimit c p) (poweredLanes c p).length - (c.port p).lanes.length

/-- Powered lanes that are not bound, but for those of a group requested off, which take no new bindings (R144). -/
def freeLanes (c : Commons) (p : RPort) : List Nat :=
  (poweredLanes c p).filter fun n => !c.pd.leaving (laneDomain n) && !(c.port p).lanes.any fun l => decide (l.no = n)

/-- The detection's two counters: the port's and its channel's (R155). -/
def countDet (c : Commons) (p : RPort) (off chOff ch : Nat) : Commons :=
  { c with regs := bumpI (bump c.regs p.facetPage off) p.facetPage chOff ch }

/-- A winner seeks a lane: CH_FULL at the channel's limit (R135), LANE_STARVED without an available lane, from when its context
needs a whole minimum preamble again (R140); otherwise it is bound, and its lane closes at once when its channel is blanked, a
retune or gap has begun or RX_EN is clear (R132). DESIGN CHOICE: where causes of ABORTED and of BLANKED both hold, ABORTED. -/
def seekLane (c : Commons) (p : RPort) (d : Det) : Commons :=
  let q := c.port p
  if effLimit (chLanes c p d.ch) ≤ boundOn q d.ch then
    countDet c p Reg.FACET_CH_FULL Reg.FACET_CHSEL_FULL d.ch
  else if lanesAvail c p < owedOthers c p d.ch + 1 ∨ (freeLanes c p).isEmpty then
    ((countDet c p Reg.FACET_LANE_STARVED Reg.FACET_CHSEL_STARVED d.ch).event p.facetPage 0).updPort p fun q =>
      { q with rearm := q.rearm.put (d.ch * 32 + d.mode) (c.lt + minPreambleNs d.mode) }
  else
    let free := freeLanes c p
    let no := free.getD (Config.pickLane c.time.freeIdx % free.length) 0
    let lane : Lane :=
      { no := no, ch := d.ch, mode := d.mode, power := d.power, chan := d.chan, bindLt := d.lt, sfdLt := none,
        phr := none, endLt := none, nearTx := nearTx c p d.chan.lowBin d.chan.highBin, foUndisc := false }
    let c1 := countDet c p Reg.FACET_BOUND Reg.FACET_CHSEL_BOUND d.ch
    let busy := q.lanes.length + 1
    let warn := rf c.regs p.facetPage Reg.FACET_BUSY_WARN 8 0
    let c1 := c1.updR fun t => peak t p.facetPage Reg.FACET_LANE_STAT 24 16 busy
    let c1 := if warn ≠ 0 ∧ busy = warn then c1.event p.facetPage 1 else c1
    let c2 := { c1 with time := { c1.time with freeIdx := c1.time.freeIdx + 1 } }.updPort p fun q =>
      { q with lanes := q.lanes ++ [lane], lastServed := d.ch }
    if !rxEn c p || q.retuneEnd.isSome then
      closeLanes c2 p (fun l => decide (l.no = no)) p.facetPage Reg.FACET_ABORTED
    else if q.gapEnd.isSome || blanked c p d.chan.lowBin d.chan.highBin then
      closeLanes c2 p (fun l => decide (l.no = no)) p.rfPage Reg.RF_BLANKED
    else c2

/-- The better of two members of a group under R133: with one mode the centre nearest to the opener's frequency, with
several the higher quality; then the lower mode code, then the lower channel index. -/
def betterDet (oneMode : Bool) (freq : Nat) (x y : Det) : Det :=
  let dx := if oneMode then (if x.centreHz < freq then freq - x.centreHz else x.centreHz - freq) else 0
  let dy := if oneMode then (if y.centreHz < freq then freq - y.centreHz else y.centreHz - freq) else 0
  let qx := if oneMode then 0 else x.quality
  let qy := if oneMode then 0 else y.quality
  if dy < dx then y else if dx < dy then x
  else if qx < qy then y else if qy < qx then x
  else if y.mode < x.mode then y else if x.mode < y.mode then x
  else if y.ch < x.ch then y else x

/-- The winner of a group (R133). -/
def MergeGroup.winner (g : MergeGroup) : Det :=
  let oneMode := g.members.all fun d => decide (d.mode = g.opener.mode)
  g.members.foldl (betterDet oneMode g.opener.freq) g.opener

/-- A detection inserted in the order of service of R141: rising channel from the one after the last served, then
rising mode code. -/
def insByService (last : Nat) (d : Det) : List Det → List Det
  | [] => [d]
  | e :: t =>
    let kd := ((d.ch + 255 - last % 256) % 256) * 32 + d.mode
    let ke := ((e.ch + 255 - last % 256) % 256) * 32 + e.mode
    if kd < ke then d :: e :: t else e :: insByService last d t

/-- Winners that seek lanes in one cycle, served in turn; the rotation starts after the last channel served (R141). -/
def serveWinners (c : Commons) (p : RPort) (ds : List Det) : Commons :=
  let order := ds.foldl (fun l d => insByService (c.port p).lastServed d l) []
  order.foldl (fun c d => seekLane c p d) c

/-- The detection shares a bin with a group's opening detection (R132). -/
def sharesBin (d e : Det) : Bool :=
  decide (d.chan.lowBin ≤ e.chan.highBin) && decide (e.chan.lowBin ≤ d.chan.highBin)

/-- A group's window is still open (R132). DESIGN CHOICE: the window ends by the MERGE_CFG.WIN in force now; R132 does not say
whether a write while a group is open reaches it. -/
def groupOpen (c : Commons) (p : RPort) (g : MergeGroup) : Bool :=
  decide (c.lt < g.openLt + 1000 * (rf c.regs p.facetPage Reg.FACET_MERGE_CFG 7 0))

/-- The order among groups that a detection could join: opened first, then the lower channel of the opener, then
the lower mode code (R132). -/
def groupBefore (g h : MergeGroup) : Bool :=
  if g.openLt < h.openLt then true else if h.openLt < g.openLt then false
  else if g.opener.ch < h.opener.ch then true else if h.opener.ch < g.opener.ch then false
  else decide (g.opener.mode ≤ h.opener.mode)

/-- The group a detection joins, if any. -/
def joinable (c : Commons) (p : RPort) (d : Det) (gs : List MergeGroup) : Option MergeGroup :=
  (gs.filter fun g => groupOpen c p g && sharesBin d g.opener).foldl
    (fun o g => match o with
      | none => some g
      | some h => if groupBefore h g then some h else some g) none

/-- A detector context may detect a preamble now: the port receives, the channel is in use with the mode, not
blanked, the context is armed (R140), and a preamble on a bound (channel, mode) exceeds the bound frame's power by CAPTURE (R130,
R136). DESIGN CHOICE: the RSSI of a bound frame, which R150 defines over the whole frame, is the power of its detection. -/
def canDetect (c : Commons) (p : RPort) (ch mode power : Nat) : Bool :=
  let q := c.port p
  let d := q.chan ch
  rxEn c p && !c.pd.leaving (portDomain p) && unitOn c.regs p.rfPage && unitOn c.regs p.chzPage && unitOn c.regs p.facetPage &&
  q.calDone && q.retuneEnd.isNone && q.gapEnd.isNone &&
  d.enabled && !d.suspended && d.hasMode mode && decide (ch < 256) && decide (mode < 15) &&
  !blanked c p d.lowBin d.highBin &&
  decide ((q.rearm.find (ch * 32 + mode)).getD 0 ≤ c.lt) &&
  (q.lanes.filter fun l => decide (l.ch = ch) && decide (l.mode = mode)).all fun l =>
    decide (l.power + rf c.regs p.facetPage Reg.FACET_CAPTURE 5 0 ≤ power)

/-- A detection: with WIN = 0 it seeks a lane at once (R134), otherwise it joins a group or opens one (R132). -/
def detect (c : Commons) (p : RPort) (ch mode freq quality power : Nat) : Commons :=
  if canDetect c p ch mode power then
    let q := c.port p
    let def_ := q.chan ch
    let d : Det := { ch := ch, mode := mode, chan := def_, centreHz := centreHz p q.lo def_.centre, freq := freq,
                     quality := quality, power := power, lt := c.lt }
    let c1 := countDet c p Reg.FACET_DETECT Reg.FACET_CHSEL_DET ch
    if rf c.regs p.facetPage Reg.FACET_MERGE_CFG 7 0 = 0 then serveWinners c1 p [d]
    else match joinable c p d q.groups with
      | some g => c1.updPort p fun q =>
          { q with groups := q.groups.map fun h => if h = g then { h with members := h.members ++ [d] } else h }
      | none => c1.updPort p fun q => { q with groups := q.groups ++ [{ openLt := c.lt, opener := d, members := [] }] }
  else c

/-- The merge windows that have closed by now: each winner seeks a lane, every other member counts in MERGED
(R132). -/
def mergeClose (c : Commons) (p : RPort) : Commons :=
  let closed := (c.port p).groups.filter fun g => !groupOpen c p g
  let merged := closed.foldl (fun n g => n + g.members.length) 0
  let c1 := c.updPort p fun q => { q with groups := q.groups.filter fun g => groupOpen c p g }
  let c2 := if merged = 0 then c1 else { c1 with regs := bumpBy c1.regs p.facetPage Reg.FACET_MERGED merged }
  serveWinners c2 p (closed.map MergeGroup.winner)

/-- A bound lane by its number. -/
def RfPort.lane (q : RfPort) (no : Nat) : Option Lane := q.lanes.find? fun l => decide (l.no = no)

/-- A bound lane changed. -/
def Commons.updLane (c : Commons) (p : RPort) (l : Lane) : Commons :=
  c.updPort p fun q => { q with lanes := q.lanes.map fun k => if k.no = l.no then l else k }

/-- A lane closes with a status counted in a register (R145). -/
def closeLane (c : Commons) (p : RPort) (no : Nat) (page off : Nat) : Commons :=
  closeLanes c p (fun l => decide (l.no = no)) page off

/-- The SFD is found: its timestamp, with RX_TRIM, refers to the antenna (R64, R113, R131). -/
def sfdFound (c : Commons) (p : RPort) (no lt : Nat) : Commons :=
  match (c.port p).lane no with
  | some l => if l.sfdLt.isNone then
      let t : Int := (lt : Int) + signed 16 (rf c.regs p.rfPage Reg.RF_RX_TRIM 15 0)
      c.updLane p { l with sfdLt := some t.toNat }
    else c
  | none => c

/-- No SFD within SFD_TO octet periods of the mode: the lane releases (R137). -/
def sfdExpire (c : Commons) (p : RPort) (no : Nat) : Commons :=
  match (c.port p).lane no with
  | some l =>
    if l.sfdLt.isNone ∧ l.bindLt + rf c.regs p.facetPage Reg.FACET_SFD_TO 9 0 * octetNs l.mode ≤ c.lt then
      closeLane c p no p.facetPage Reg.FACET_SFD_TIMEOUT
    else c
  | none => c

/-- The PHR passes R128 for a mode. -/
def phrOk (mode : Nat) (h : PhrData) : Bool :=
  h.checkOk && !h.modeSwitch && decide (fcsLen mode h.phyOpt ≤ h.len) && decide (h.len ≤ maxPsdu mode)

/-- The PHR is decoded: a bad one closes PHR_BAD; a good one gives the frame's end, and on a protected channel raises
RX_BUSY (R108, R126 to R129, R149). -/
def phrDecode (s : State) (p : RPort) (no : Nat) (h : PhrData) : State :=
  match (s.c.port p).lane no with
  | some l => match l.sfdLt, l.phr with
    | some t, none =>
      if phrOk l.mode h then
        let opt := optMask l.mode h.phyOpt
        let e := t + afterSfdNs l.mode opt h.len
        let l' := { l with phr := some { h with phyOpt := opt }, endLt := some e }
        let s1 := s.updC fun c => c.updLane p l'
        if l.chan.protect then (s1.event p.rfPage 0).notice (.rxBusy p l.ch e) else s1
      else s.updC fun c => closeLane c p no p.facetPage Reg.FACET_PHR_BAD
    | _, _ => s
  | none => s

/-- Symbol synchronisation is lost after the SFD (table "Lane close status", R607). -/
def loseSync (c : Commons) (p : RPort) (no : Nat) : Commons :=
  match (c.port p).lane no with
  | some l => if l.sfdLt.isSome then closeLane c p no p.facetPage Reg.FACET_LOST else c
  | none => c

/-- A write to CH_LANES of the selected channel, refused when the reservations would exceed the limit (R143). -/
def writeChLanes (c : Commons) (p : RPort) (v : Word) : Commons :=
  let ch := rf c.regs p.facetPage Reg.FACET_CH_SEL 7 0
  let v' := setFld (setFld 0#32 1 0 (fld v 1 0)) 5 4 (fld v 5 4)
  let c1 := { c with regs := wrI c.regs p.facetPage Reg.FACET_CH_LANES ch v' }
  if portLimit c p < rsvSum c1 p then c.err p.facetPage 0 else c1

/-- A write to PORT_LIMIT, refused when the reservations would exceed it (R143). -/
def writePortLimit (c : Commons) (p : RPort) (v : Word) : Commons :=
  let c1 := { c with regs := wr c.regs p.facetPage Reg.FACET_PORT_LIMIT (w32 (fld v 8 0)) }
  if portLimit c1 p < rsvSum c p then c.err p.facetPage 0 else c1

/-- BUSY_ACC of a port grows by BUSY_NOW for every millisecond LT runs through (R156). -/
def busyAcc (c : Commons) (ms : Nat) (p : RPort) : Commons :=
  let n := (c.port p).lanes.length * ms
  if n = 0 then c else { c with regs := bumpBy c.regs p.facetPage Reg.FACET_BUSY_ACC n }

end Sys2Proof.Machine
end

