-- ==== Sys2Proof/Machine/Air.lean ====
section
/-! DEFINITION. The air-access unit (chapter 5, commons half): the filter, the acknowledgements, the pending list and
the receive buffer, and the decision at the end of a frame. -/

namespace Sys2Proof.Machine

open Sys2Proof

/-- Cells of the commons receive buffer (table "Filter steps" of R160). -/
def rxCells : Nat := 512

/-- The key of an address in the pending list: twice the address plus the mode (1 extended). -/
def plKey (ext : Bool) (addr : Nat) : Nat := 2 * (if ext then addr % 2 ^ 64 else addr % 2 ^ 16) + b2n ext

/-- The destination equals an enabled own address of the same mode (R160 step 4, R164). -/
def ownAddress (c : Commons) (mode addr : Nat) : Bool :=
  (List.range 16).any fun n =>
    rb c.regs Pg.AIR (Reg.AIR_OWN_CFG + 16 * n) 0 &&
    (if rb c.regs Pg.AIR (Reg.AIR_OWN_CFG + 16 * n) 1 then
       let own := rd64 c.regs Pg.AIR (Reg.AIR_OWN_LO + 16 * n)
       decide (mode = 3) && decide (own ≠ 0) && decide (addr = own)
     else decide (mode = 2) && decide (addr = rf c.regs Pg.AIR (Reg.AIR_OWN_LO + 16 * n) 15 0))

/-- What the filter decides (R160 to R163). -/
inductive Filtered where
  | drop (counter : Nat)
  | pass (cls : Nat) (promisc : Bool) (h : Mhr)
  deriving DecidableEq, Repr

/-- The class of a frame type: 0 ACCEPT, 1 HOST, 2 ACKFRAME, none drop (table "Frame type handling"). -/
def typeClass (c : Commons) (ty : Nat) : Option Nat :=
  match ty with
  | 0 => if rb c.regs Pg.AIR Reg.AIR_FILT_CFG 0 then some 1 else none
  | 1 => some 0
  | 2 => if rb c.regs Pg.AIR Reg.AIR_FILT_CFG 4 then some 2 else none
  | 3 => if rb c.regs Pg.AIR Reg.AIR_FILT_CFG 1 then some 1 else none
  | _ => none

/-- The filter steps 1 to 4 over the octets before the FCS (R160 to R164). -/
def filterFrame (c : Commons) (bs : List Byte) : Filtered :=
  if bs.length < 2 then .drop Reg.AIR_FILT_MHR
  else if fcfVersion bs = 3 ∨ (fcfVersion bs ≤ 1 ∧ !rb c.regs Pg.AIR Reg.AIR_FILT_EXP 1) then .drop Reg.AIR_FILT_VERSION
  else match parseMhr bs with
    | none => .drop Reg.AIR_FILT_MHR
    | some h => match typeClass c h.ftype with
      | none => .drop Reg.AIR_FILT_TYPE
      | some cls =>
        let immAck : Bool := decide (h.ftype = 2) && decide (h.version ≤ 1)
        let panOk : Bool := match h.dstPan with
          | none => true
          | some v => decide (v = rf c.regs Pg.AIR Reg.AIR_PAN_ID 15 0) || decide (v = 0xFFFF)
        let addrOk : Bool :=
          if h.dstMode = 0 then decide (h.ftype = 2) || rb c.regs Pg.AIR Reg.AIR_FILT_CFG 5
          else (decide (h.dstMode = 2) && decide (h.dst = 0xFFFF) && decide (h.ftype ≠ 2)) ||
            ownAddress c h.dstMode h.dst
        let promisc := rb c.regs Pg.AIR Reg.AIR_FILT_EXP 0 && decide (h.ftype = 1)
        if immAck || (panOk && addrOk) then .pass cls false h
        else if promisc then .pass 1 true h
        else if !panOk then .drop Reg.AIR_FILT_PAN
        else .drop Reg.AIR_FILT_ADDR

/-! ## Acknowledgements -/

/-- TURN in ns (R166). -/
def turnNs (c : Commons) (mode : Nat) : Nat :=
  if mode = 14 then 192000 else 1000 * (rf c.regs Pg.AIR Reg.AIR_TURN_SUN 10 0)

/-- The octets of an acknowledgement (table "Acknowledgement formats" of R171, R172). -/
def ackOctets (c : Commons) (h : Mhr) (pend : Bool) (sfdLt fcs : Nat) : List Byte :=
  let body :=
    if h.version = 2 then
      let ie := !c.time.unsync
      let fcf := 2 + 16 * b2n pend + 64 + 256 * b2n h.seqSup + 512 * b2n ie + 1024 * h.srcMode + 8192
      let vid := (rd c.regs Pg.AIR Reg.AIR_ACK_VID).toNat
      leBytes 2 fcf ++ (if h.seqSup then [] else [b8 h.seq]) ++ addrBytes h.srcMode h.src ++
      (if ie then leBytes 2 11 ++ beBytes 3 vid ++ leBytes 8 sfdLt else [])
    else leBytes 2 (2 + 16 * b2n pend) ++ [b8 h.seq]
  body ++ (if fcs = 4 then fcs32 body else fcs16 body)

/-- Place of ACK_LEVEL of a port in AIR.ACK_CFG. -/
def ackLevel (c : Commons) (p : RPort) : Nat :=
  rf c.regs Pg.AIR Reg.AIR_ACK_CFG (8 * p.num + 5) (8 * p.num)

/-- The acknowledgement as a burst of a carrier (R166). -/
def ackBurst (c : Commons) (p : RPort) (n : Nat) (l : Lane) (opt : Nat) (psdu : List Byte) (start : Nat) : Burst :=
  let pre := rf c.regs Pg.AIR Reg.AIR_ACK_PRE 7 0
  let ln : Launch :=
    { id := 0, port := p, carrier := n, ch := l.ch, mode := l.mode, txLevel := ackLevel c p,
      profile := rf c.regs p.rfPage Reg.RF_TX_CFG 11 8, discardLate := false, lt := start, phyOpt := opt,
      preamble := pre, psdu := psdu }
  { isAck := true, launch := ln, start := start, air := airtimeUs l.mode opt pre psdu.length, phase := .planned,
    deferred := false, late := false, cut := none, blanking := false, endLt := 0, chan := l.chan }

/-- When a burst begins to keep its carrier busy: its listen, or its burst window (R99). -/
def busyFrom (c : Commons) (p : RPort) (b : Burst) : Nat :=
  if b.isAck || !b.chan.lbt then winStart c p b else min (winStart c p b) (b.start - listenNs c p b.chan)

/-- The bursts of a carrier that keep it from being idle for an acknowledgement (R99): those whose busy span meets its window, and
a launch that a listen has deferred, whose end is not known. -/
def inTheWay (c : Commons) (p : RPort) (n : Nat) (a : Burst) : List Burst :=
  ((c.port p).carrier n).bursts.filter fun b => !burstGone c p b && ((b.deferred && b.listens c p) ||
    spansMeet (busyFrom c p b) (winEnd c p b) (winStart c p a) (winEnd c p a))

/-- The carrier an acknowledgement takes, and whether it pre-empts (R99). -/
def ackCarrier (c : Commons) (p : RPort) (mk : Nat → Burst) : Option (Nat × Bool) :=
  let en (n : Nat) : Bool := bitOf (rd c.regs p.rfPage Reg.RF_TX_CFG) n
  let idle (n : Nat) : Bool := en n && (inTheWay c p n (mk n)).isEmpty
  let pref := rf c.regs p.rfPage Reg.RF_TX_CFG 5 4
  if idle pref then some (pref, false)
  else match (List.range 4).find? idle with
    | some n => some (n, false)
    | none =>
      if rb c.regs p.rfPage Reg.RF_TX_CFG 6 && en pref && (inTheWay c p pref (mk pref)).all fun b => !b.isAck then
        some (pref, true)
      else none

/-- The duty-cycle check of an acknowledgement (R118). -/
def ackDutyOk (c : Commons) (d : ChanDef) (air : Nat) : Bool :=
  match d.account with
  | none => true
  | some k => decide (ackMode c k ≠ 0) || dutyOk c d air

/-- An acknowledgement already prepared overlaps on the same channel (R169). -/
def ackCollides (c : Commons) (p : RPort) (a : Burst) : Bool :=
  (c.port p).carriers.any fun k => k.bursts.any fun b => b.isAck && decide (b.launch.ch = a.launch.ch) &&
    decide (b.phase ≠ .ended) && spansMeet b.start b.fin a.start a.fin

/-- Launches that an acknowledgement pre-empts: those that start before its FE lead are cut there; later ones, and those still
listening, are held until it ends (R100). -/
def preempt (c : Commons) (p : RPort) (n : Nat) (a : Burst) : Commons :=
  let cutAt := a.start - burstLead c p a
  let waits (b : Burst) : Bool := !b.isAck && !b.phase.started && (b.listens c p || decide (cutAt ≤ b.start))
  c.updCar p n fun k =>
    { k with
      bursts := (k.bursts.filter fun b => !waits b).map fun b =>
        if !b.isAck && decide (b.phase ≠ .ended) && decide (cutAt < b.fin) then { b with cut := some cutAt } else b
      held := k.held ++ (k.bursts.filter waits).map fun b => ⟨b.launch, b.chan, false⟩ }

/-- What becomes of an acknowledgement that R165 calls for: sent on a burst, or refused with its counter (R167). -/
inductive AckResult where
  | sent (carrier : Nat) (pre : Bool) (b : Burst)
  | refused (page off : Nat)
  deriving DecidableEq, Repr

/-- The checks of an acknowledgement: carrier, duty cycle, dwell, same-channel overlap (R167). -/
def ackDecide (c : Commons) (p : RPort) (l : Lane) (opt : Nat) (psdu : List Byte) (start : Nat) : AckResult :=
  let mk (n : Nat) : Burst := ackBurst c p n l opt psdu start
  match ackCarrier c p mk with
  | none => .refused p.rfPage Reg.RF_ACK_NO_CARRIER
  | some (n, pre) =>
    let b := mk n
    if !ackDutyOk c b.chan b.air then .refused p.rfPage Reg.RF_ACK_SUPPRESSED
    else if !dwellOk c p b.chan l.ch b.air then .refused p.rfPage Reg.RF_ACK_SUPPRESSED
    else if ackCollides c p b then .refused Pg.AIR Reg.AIR_ACK_COLLIDE
    else .sent n pre b

/-- R165: an acknowledgement is called for. -/
def ackWanted (c : Commons) (p : RPort) (cls : Nat) (promisc : Bool) (h : Mhr) : Bool :=
  decide (cls = 0) && !promisc && h.ar && !(decide (h.dstMode = 2) && decide (h.dst = 0xFFFF)) && txEn c p &&
  unitOn c.regs Pg.AIR

/-! ## The pending list -/

/-- A number removed from a rising list. -/
def delNat (n : Nat) (l : List Nat) : List Nat := l.filter fun k => decide (k ≠ n)

/-- Entries the pending list holds (R173). -/
def plMax : Nat := 32768

/-- A pending-list update performed: the list after it and its status (table "Pending-list updates" of R173). -/
def plApply (l : List Nat) (op : PlOp) : List Nat × Nat :=
  match op with
  | .set ext a =>
    if l.contains (plKey ext a) then (l, 1)
    else if plMax ≤ l.length then (l, 3)
    else (insNat (plKey ext a) l, 0)
  | .clear ext a => if l.contains (plKey ext a) then (delNat (plKey ext a) l, 0) else (l, 2)
  | .clearAll => ([], 0)

/-- The pending list with every update that has passed Bezel, performed or not (R30, R176). -/
def AirState.listNow (a : AirState) : List Nat := a.updates.foldl (fun l op => (plApply l op).1) a.list

/-- The answer of a query that asked in the cycle of an LT: the list with what passed by the end of that cycle (R176). -/
def AirState.answer (a : AirState) (lt : Nat) : AirState :=
  match a.asked with
  | some (t, key) => if t = lt then { a with qres := some (a.listNow.contains key) } else a
  | none => a

/-- An update passes Bezel: an FCS decision of the same cycle does not see it (R30). -/
def AirState.passUpdate (a : AirState) (lt : Nat) (op : PlOp) : AirState :=
  ({ a with updates := a.updates ++ [op], passedAt := lt
            before := if a.passedAt = lt then a.before else a.listNow } : AirState).answer lt

/-- The list as a frame sees it whose FCS check completes at an LT: without what passed in that cycle (R30). -/
def AirState.listSeen (a : AirState) (lt : Nat) : List Nat := if a.passedAt = lt then a.before else a.listNow

/-- The pending bit: the frame carries a source address and the list holds it (R30, R174). -/
def pendingBit (a : AirState) (lt : Nat) (h : Mhr) : Bool :=
  decide (h.srcMode ≠ 0) && (a.listSeen lt).contains (plKey (decide (h.srcMode = 3)) h.src)

/-- Cells in use: frames that wait, and frames sequenced that a side has not accepted (R21). -/
def AirState.cellsUsed (a : AirState) : Nat := a.rxbuf.length + a.sentUp

/-- The frame takes a cell of the receive buffer, or is dropped as RX_OVERRUN (R20, R160 step 5). -/
def bufferFrame (c : Commons) (f : RxFrame) : Commons :=
  if c.air.cellsUsed < rxCells then
    { c with air := { c.air with rxbuf := c.air.rxbuf ++ [f], rxPeak := max c.air.rxPeak (c.air.cellsUsed + 1) } }
  else c.count Pg.AIR Reg.AIR_RX_OVERRUN

/-- The receive metadata the lane writes (R149 to R151). -/
def laneMeta (c : Commons) (p : RPort) (l : Lane) (h : PhrData) (e : RxEnd) (status : Nat) : RxMeta :=
  let disc := rb c.regs p.facetPage Reg.FACET_CFG 1 && c.time.locked
  let raw := if disc then Config.foCorrect c.time.freqAdj (centreHz p (c.port p).lo l.chan.centre) e.freqOfs else e.freqOfs
  { sfdLt := l.sfdLt.getD 0, endLt := l.endLt.getD 0, psduLen := h.len, mode := l.mode, port := p, channel := l.ch,
    lane := l.no, rssi := rssiAdj c p e.rssi, nearTx := l.nearTx, foUndisc := !disc,
    freqOfs := max (-32767) (min 32767 raw), lqi := min 255 e.lqi, phyOpt := h.phyOpt, rxStatus := status,
    airClass := 3, ackSent := false, ackPend := false, ackEnh := false, ackTime := false,
    ackAirtime := 0 }

/-- A frame with a good FCS: filtered, acknowledged and buffered in the cycle of the decision (R30, R32, R160 to
R174). -/
def goodFrame (c : Commons) (p : RPort) (l : Lane) (h : PhrData) (e : RxEnd) : Commons :=
  let m := laneMeta c p l h e 0
  let fl := fcsLen l.mode h.phyOpt
  let c0 := if l.nearTx then c.count p.rfPage Reg.RF_NEAR_TX else c
  match filterFrame c0 (beforeFcs e.psdu fl) with
  | .drop off => c0.count Pg.AIR off
  | .pass cls promisc hd =>
    if rxCells ≤ c0.air.cellsUsed then c0.count Pg.AIR Reg.AIR_RX_OVERRUN
    else if !ackWanted c0 p cls promisc hd then bufferFrame c0 { rx := { m with airClass := cls }, psdu := e.psdu }
    else
      let pend := pendingBit c0.air c0.lt hd
      let octs := ackOctets c0 hd pend m.sfdLt fl
      let c1 := c0.count Pg.AIR Reg.AIR_ACK_PREP
      match ackDecide c1 p l h.phyOpt octs (m.endLt + turnNs c1 l.mode) with
      | .refused page off => bufferFrame (c1.count page off) { rx := { m with airClass := cls }, psdu := e.psdu }
      | .sent n pre b =>
        let c2 := if pre then preempt c1 p n b else c1
        let c3 := c2.updCar p n fun k => { k with bursts := k.bursts ++ [b] }
        let c4 := if pend then c3.count Pg.AIR Reg.AIR_ACK_PEND1 else c3
        let enh := decide (hd.version = 2)
        let m' := { m with airClass := cls, ackSent := true, ackPend := pend, ackEnh := enh
                           ackTime := enh && !c.time.unsync, ackAirtime := b.air }
        bufferFrame c4 { rx := m', psdu := e.psdu }

/-- The FCS of a frame is decided and the frame closes; one that FACET.CFG.DIAG_BAD keeps counts as received (R104, R145 to
R147). -/
def fcsDecide (c : Commons) (p : RPort) (no : Nat) (e : RxEnd) : Commons :=
  match (c.port p).lane no with
  | some l => match l.phr, l.endLt with
    | some h, some t =>
      if t ≤ c.lt then
        if e.fcsOk then
          goodFrame (closeLane c p no p.facetPage Reg.FACET_FCS_OK) p l h e
        else
          let c1 := closeLane c p no p.facetPage Reg.FACET_FCS_BAD
          if rb c.regs p.facetPage Reg.FACET_CFG 0 then
            bufferFrame (if l.nearTx then c1.count p.rfPage Reg.RF_NEAR_TX else c1) { rx := laneMeta c p l h e 1, psdu := e.psdu }
          else c1
      else c
    | _, _ => c
  | none => c

/-- A received frame that finds the catch-up buffer full ends a refill with cause BUF_OVER; the refill itself is
ended by the sequencer's row (R434). Here the frame waits in the receive buffer like any other. -/
def fcsDecisionCore (s : State) (p : RPort) (no : Nat) (e : RxEnd) : State := s.updC fun c => fcsDecide c p no e

/-! ## Pending-list updates and queries -/

/-- The oldest passed update is performed and its completion sequenced to both sides (R29, R173). -/
def plUpdate (s : State) (want : PlOp → Bool) : State :=
  match s.c.air.updates with
  | [] => s
  | op :: rest =>
    if want op then
      let r := plApply s.c.air.list op
      let s1 := s.updC fun c =>
        let c1 := { c with air := { c.air with updates := rest, list := r.1, listPeak := max c.air.listPeak r.1.length } }
        if r.2 = 3 then c1.count Pg.AIR Reg.AIR_PL_FULL else c1
      s1.offer .units (.plDone op r.2)
    else s

/-- A write of PL_QCMD: with GO the list is read for the query address in the cycle after (R176). -/
def plQuery (c : Commons) (v : Word) : Commons :=
  let c1 := { c with regs := wr c.regs Pg.AIR Reg.AIR_PL_QCMD (w32 (fld v 0 0)) }
  if bitOf v 1 then
    let key := plKey (bitOf v 0) (rd64 c.regs Pg.AIR Reg.AIR_PL_QADDR_LO)
    { c1 with air := ({ c1.air with asked := some (c.lt, key) } : AirState).answer c.lt }
  else c1

end Sys2Proof.Machine
end

