-- ==== Sys2Proof/Machine/Shaping.lean ====
section
/-! DEFINITION. Trowel (chapter 10): queues, credit, gates, Scrim, bookings, protected spans, and the completion of the
frames a side sends. -/

namespace Sys2Proof.Machine

open Sys2Proof

/-! ## Ports, groups and the settings that a side sees -/

/-- Trowel changed. -/
def Side.updTrowel (d : Side) (f : TrowelState → TrowelState) : Side := { d with trowel := f d.trowel }

/-- The group of a Trowel port (table "Trowel ports"). -/
def trowelGroup (k : Nat) : Nat := if k < 12 then k / 4 else k - 9

/-- The Trowel ports of a group. -/
def groupPorts (g : Nat) : List Nat := if g < 3 then (List.range 4).map (g * 4 + ·) else if g < 7 then [g + 9] else []

/-- The group exists on the variant (R1, R318). -/
def groupPresent (v : Variant) (g : Nat) : Bool :=
  match RPort.ofNum g with
  | some p => v.hasPort p
  | none => decide (g = 3) || decide (g = 5) || (v.full && (decide (g = 4) || decide (g = 6)))

/-- A channel's definition as sequenced to the side (R87). -/
def Side.chan (d : Side) (port ch : Nat) : ChanDef := (d.chans.find (port * 256 + ch)).getD ChanDef.default

/-- TURN in µs: AIR.TURN_SUN, or 192 µs for code 14 (R166). -/
def Side.turnUs (d : Side) (mode : Nat) : Nat := if mode = 14 then 192 else fld (d.airReg Reg.AIR_TURN_SUN) 10 0

/-- TX_PRE. -/
def Side.txPre (d : Side) : Nat := rf d.regs Pg.TROWEL Reg.TROWEL_CFG 7 0

/-- REL_LEAD in ns. -/
def Side.relLead (d : Side) : Nat := 1000 * (rf d.regs Pg.TROWEL Reg.TROWEL_REL_LEAD 13 0)

/-- The airtime A of a frame, µs (R341). -/
def Side.frameAir (d : Side) (f : Frame) : Nat := airtimeUs f.mode f.phyOpt d.txPre f.psdu.length

/-- T(n): airtime of a burst of n octets in all, whose first four octets (six for code 14) are no PSDU (R186). DEDUCED. -/
def burstUs (mode phyOpt n : Nat) : Nat := airtimeUs mode phyOpt 0 (n - (if mode = 14 then 6 else 4))

/-- The acknowledgement wait W, µs (R186). -/
def Side.ackWaitUs (d : Side) (mode phyOpt : Nat) : Nat :=
  d.turnUs mode + burstUs mode phyOpt (rf d.regs Pg.PEND Reg.PEND_ACKW_CFG 7 0) + rf d.regs Pg.PEND Reg.PEND_ACKW_CFG 15 8

/-- D: the LBT deferral allowed for on a channel, ns (R342). -/
def lbtSpare (c : Commons) (d : Side) (port ch : Nat) : Nat :=
  if (d.chan port ch).lbt then match RPort.ofNum port with
    | some p => maxDeferNs c p
    | none => 0
  else 0

/-- The Scrim span Σ of a frame on a radio port, ns (R342). -/
def Side.scrim (c : Commons) (d : Side) (port : Nat) (f : Frame) : Nat :=
  1000 * (d.frameAir f + (if f.ar then d.ackWaitUs f.mode f.phyOpt else 0)) + lbtSpare c d port f.ch +
  1000 * (rf d.regs Pg.GATE Reg.GATE_GUARD 11 0)

/-! ## Queues -/

/-- The key of a queue. -/
def queueKey (tenant service group : Nat) : Nat := (tenant * 8 + service) * 8 + group

/-- A frame's queue. -/
def Frame.queue (f : Frame) : Nat := queueKey f.tenant f.service f.group

/-- The frames of a queue. -/
def TrowelState.frames (w : TrowelState) (key : Nat) : List Frame := (w.queues.find key).getD []

/-- A queue replaced; an empty one is not listed. -/
def TrowelState.setQueue (w : TrowelState) (key : Nat) (l : List Frame) : TrowelState :=
  { w with queues := if l.isEmpty then w.queues.del key else w.queues.put key l }

/-- Frames queued. -/
def TrowelState.count (w : TrowelState) : Nat := w.queues.foldl (fun n e => n + e.2.length) 0

/-- Frames queued under a bucket pair: a tenant, a service of it, or a Trowel port's group (R325, SHP_STAT). -/
def TrowelState.under (w : TrowelState) (level idx : Nat) : Nat :=
  (w.queues.filter fun e =>
    if level = 0 then decide (e.1 / 64 = idx) else if level = 1 then decide (e.1 / 8 = idx)
    else decide (e.1 % 8 = trowelGroup idx)).foldl (fun n e => n + e.2.length) 0

/-- A node has a frame in a queue, or one released and not yet completed (R322). DEDUCED: a released frame still counts. -/
def TrowelState.hasNode (w : TrowelState) (mesh : Nat) : Bool :=
  (w.queues.any fun e => e.2.any fun f => decide (f.node = mesh)) ||
  w.released.any fun r => r.win.isNone && decide (r.f.node = mesh)

/-! ## Credit (R323 to R327) -/

/-- One packet of credit. -/
def onePacket : Nat := 65536 * 10 ^ 9

/-- The key of a bucket pair: level and index. -/
def bucketKey (level idx : Nat) : Nat := 8192 * level + idx

/-- The registers of rates and depths. -/
def isShp (off : Nat) : Bool := decide (off = Reg.TROWEL_SHP_CIR ∨ off = Reg.TROWEL_SHP_CBS ∨ off = Reg.TROWEL_SHP_PIR ∨ off = Reg.TROWEL_SHP_PBS)

/-- Rate or depth of a bucket pair in force: one written since the last time input still has its old value (R327). -/
def Side.shp (d : Side) (off key : Nat) : Nat :=
  (d.trowel.shpWas.find (off * 2 ^ 16 + key)).getD (rdI d.regs Pg.TROWEL off key).toNat

/-- A rate or depth about to be written keeps its value in force (R327). -/
def Side.keepShp (d : Side) (off key : Nat) : Side :=
  d.updTrowel fun w => { w with shpWas := w.shpWas.put (off * 2 ^ 16 + key) (d.shp off key) }

/-- The three bucket pairs of a frame on a Trowel port. -/
def frameBuckets (f : Frame) (port : Nat) : List Nat :=
  [bucketKey 0 f.tenant, bucketKey 1 (f.tenant * 8 + f.service), bucketKey 2 port]

/-- A bucket pair has nothing to send. -/
def TrowelState.idle (w : TrowelState) (key : Nat) : Bool := decide (w.under (key / 8192) (key % 8192) = 0)

/-- The bucket pairs that a queued frame makes active: they hold zero and gain from now (R325). -/
def Side.activate (d : Side) (f : Frame) : Side :=
  let keys := [bucketKey 0 f.tenant, bucketKey 1 (f.tenant * 8 + f.service)] ++ (groupPorts f.group).map (bucketKey 2)
  d.updTrowel fun w => { w with credits := keys.foldl (fun t k =>
    match t.find k with
    | some _ => t
    | none => t.put k { comm := 0, peak := 0, last := d.now }) w.credits }

/-- The bucket pairs that have nothing left to send lose their credit (R325). -/
def Side.deactivate (d : Side) : Side :=
  d.updTrowel fun w => { w with credits := w.credits.filter fun e => !w.idle e.1 }

/-- Every active bucket gains at a time input, up to its depth. DEDUCED: a rate written before this input counts for the whole gain
(R324, R327). -/
def Side.gain (d : Side) : Side :=
  d.updTrowel fun w => { w with credits := w.credits.map fun e =>
    let dt := d.now - e.2.last
    let cap := d.shp Reg.TROWEL_SHP_CBS e.1 * onePacket
    let capP := d.shp Reg.TROWEL_SHP_PBS e.1 * onePacket
    let pir := d.shp Reg.TROWEL_SHP_PIR e.1
    (e.1, { comm := min cap (e.2.comm + d.shp Reg.TROWEL_SHP_CIR e.1 * 256 * dt)
            peak := if pir = 0 then (capP : Int) else min (capP : Int) (e.2.peak + (pir * 256 * dt : Nat))
            last := d.now }) }

/-- A bucket pair's committed bucket holds at least one packet. -/
def Side.hasComm (d : Side) (key : Nat) : Bool :=
  decide (d.shp Reg.TROWEL_SHP_CIR key ≠ 0) && (match d.trowel.credits.find key with
    | some c => decide (onePacket ≤ c.comm)
    | none => false)

/-- A bucket pair's peak bucket holds at least one packet; a rate of 0 is always full (R323). -/
def Side.hasPeak (d : Side) (key : Nat) : Bool :=
  decide (d.shp Reg.TROWEL_SHP_PIR key = 0) || (match d.trowel.credits.find key with
    | some c => decide ((onePacket : Int) ≤ c.peak)
    | none => false)

/-- The class of a frame on a port: committed, peak, or not to be released (R326). -/
def Side.creditClass (d : Side) (f : Frame) (port : Nat) : Option Bool :=
  let ks := frameBuckets f port
  if ks.all d.hasComm then some true else if ks.all d.hasPeak then some false else none

/-- The credit of a bucket pair set. -/
def Side.setCredit (d : Side) (key : Nat) (c : Credit) : Side :=
  d.updTrowel fun w => { w with credits := w.credits.put key c }

/-- One packet taken: from every peak bucket and each committed bucket that holds one (R326), or, for a timed launch,
from each that holds one (R351). The six bits say which were taken: committed in bits 0 to 2, peak in 3 to 5. -/
def Side.takeCredit (d : Side) (f : Frame) (port : Nat) (timed : Bool) : Nat × Side :=
  let ks := (List.range 3).zip (frameBuckets f port)
  ks.foldl (fun a e =>
    let comm := a.2.hasComm e.2
    let peak := decide (a.2.shp Reg.TROWEL_SHP_PIR e.2 ≠ 0) && (!timed || a.2.hasPeak e.2)
    match a.2.trowel.credits.find e.2 with
    | none => a
    | some c =>
      let c1 : Credit := { c with comm := if comm then c.comm - onePacket else c.comm
                                  peak := if peak then c.peak - onePacket else c.peak }
      (a.1 + b2n comm * 2 ^ e.1 + b2n peak * 2 ^ (e.1 + 3), a.2.setCredit e.2 c1)) (0, d)

/-- The credit taken at release given back, up to each bucket's depth (R348). -/
def Side.giveBack (d : Side) (f : Frame) (port took : Nat) : Side :=
  ((List.range 3).zip (frameBuckets f port)).foldl (fun a e =>
    match a.trowel.credits.find e.2 with
    | none => a
    | some c =>
      let cap := a.shp Reg.TROWEL_SHP_CBS e.2 * onePacket
      let capP : Int := (a.shp Reg.TROWEL_SHP_PBS e.2 * onePacket : Nat)
      let c1 : Credit := { c with comm := if nbit took e.1 then min cap (c.comm + onePacket) else c.comm
                                  peak := if nbit took (e.1 + 3) then min capP (c.peak + onePacket) else c.peak }
      a.setCredit e.2 c1) d

/-! ## Gates (R333 to R340) -/

/-- An opening at a time: none, one that ends, one without end. -/
inductive Opening where
  | closed
  | until_ (t : Nat)
  | always
  deriving DecidableEq, Repr

/-- An opening cut by a limit. -/
def Opening.cut (o : Opening) (limit : Option Nat) : Opening :=
  match o, limit with
  | .always, some l => .until_ l
  | .until_ t, some l => .until_ (min t l)
  | o, _ => o

/-- The gates of a carrier. -/
def Side.gate (d : Side) (k : Nat) : GateState := (d.trowel.gates.find k).getD GateState.reset

/-- The gates of a carrier changed. -/
def Side.updGate (d : Side) (k : Nat) (f : GateState → GateState) : Side :=
  d.updTrowel fun w => { w with gates := w.gates.put k (f ((w.gates.find k).getD GateState.reset)) }

/-- GATES of an entry. -/
def GateBank.gates (b : GateBank) (i : Nat) : Nat := ((b.ents.find i).getD 0#32).toNat % 256

/-- DUR of an entry, ns. -/
def GateBank.dur (b : GateBank) (i : Nat) : Nat := ((b.ents.find i).getD 0#32).toNat / 256 * 256

/-- The sum of the durations, ns. -/
def GateBank.total (b : GateBank) : Nat := (List.range b.len).foldl (fun n i => n + b.dur i) 0

/-- The open spans of a service within a cycle, from entry `i` at an offset, adjacent ones joined; newest first. -/
def GateBank.spansFrom (b : GateBank) (svc : Nat) : Nat → Nat → Nat → List (Nat × Nat) → List (Nat × Nat)
  | 0, _, _, acc => acc
  | fuel + 1, i, pos, acc =>
    let e := min b.cycle (pos + b.dur i)
    let acc1 :=
      if nbit (b.gates i) svc && decide (pos < e) then
        match acc with
        | (s0, e0) :: t => if e0 = pos then (s0, e) :: t else (pos, e) :: acc
        | [] => [(pos, e)]
      else acc
    b.spansFrom svc fuel (i + 1) e acc1

/-- The open spans of a service within a cycle, in order (R334). -/
def GateBank.spans (b : GateBank) (svc : Nat) : List (Nat × Nat) := (b.spansFrom svc b.len 0 0 []).reverse

/-- The opening of a service at a time in a list: closed before its base (R333, R334). -/
def GateBank.openAt (b : GateBank) (svc t : Nat) : Opening :=
  if t < b.base ∨ b.cycle = 0 then .closed
  else
    let ph := (t - b.base) % b.cycle
    let ss := b.spans svc
    match ss.find? (fun s => decide (s.1 ≤ ph) && decide (ph < s.2)) with
    | none => .closed
    | some s =>
      if s.1 = 0 ∧ s.2 = b.cycle then .always
      else if s.2 = b.cycle then match ss.head? with
        | some h => if h.1 = 0 then .until_ (t - ph + b.cycle + h.2) else .until_ (t - ph + b.cycle)
        | none => .until_ (t - ph + b.cycle)
      else .until_ (t - ph + s.2)

/-- The longest opening of a service, ns; none without end (R340). -/
def GateBank.maxOpen (b : GateBank) (svc : Nat) : Option Nat :=
  let ss := b.spans svc
  if ss = [(0, b.cycle)] then none
  else
    let one := ss.foldl (fun m s => max m (s.2 - s.1)) 0
    match ss.head?, ss.getLast? with
    | some h, some l => if h.1 = 0 ∧ l.2 = b.cycle then some (max one (h.2 + (l.2 - l.1))) else some one
    | _, _ => some one

/-- MAX_OPEN of a service on a carrier, ns; none stands for 0xFFFF_FFFF µs (R335, R340). -/
def GateState.maxOpen (g : GateState) (svc : Nat) : Option Nat := if g.en then g.oper.maxOpen svc else none

/-- The admin list as it will run: its base is S where it is rebased (R336). -/
def GateState.next (g : GateState) (s : Nat) : GateBank := if g.rebase then { g.adm with base := s } else g.adm

/-- The opening of a service on a carrier at a time: the gates in force, cut at a pending swap (R335 to R337) and by the
announced calibration gaps of its port (R347). -/
def Side.opening (d : Side) (k svc t : Nat) : Opening :=
  let g := d.gate k
  let gaps := d.trowel.gaps.filter fun x => decide (x.1 = k / 4)
  if gaps.any fun x => decide (x.2.1 ≤ t) && decide (t < x.2.2) then .closed
  else
    let ahead := (gaps.filter fun x => decide (t < x.2.1)).map fun x => x.2.1
    let limit := ahead.foldl (fun (m : Option Nat) x => some (match m with
      | some y => min x y
      | none => x)) none
    let o :=
      if !g.en then .always
      else match g.pend with
        | some s => if s ≤ t then (g.next s).openAt svc t else (g.oper.openAt svc t).cut (some s)
        | none => g.oper.openAt svc t
    o.cut limit

/-- A span of time ends before an opening does. -/
def Opening.holds (o : Opening) (fin : Nat) : Bool :=
  match o with
  | .closed => false
  | .until_ e => decide (fin ≤ e)
  | .always => true

/-- The end of an opening, 0 for one without end: what tells two openings apart in WAIT_OPEN. -/
def Opening.tag : Opening → Nat
  | .until_ e => e
  | _ => 0

/-! ## Bookings -/

/-- Bookings of a Trowel port. -/
def TrowelState.booked (w : TrowelState) (k : Nat) : List (Nat × Nat) := (w.bookings.find k).getD []

/-- A booking added; those that are past are dropped (R343). -/
def Side.book (d : Side) (k t fin : Nat) : Side :=
  d.updTrowel fun w =>
    let l := (w.booked k).filter (fun s => decide (d.now < s.2)) ++ [(t, fin)]
    { w with bookings := w.bookings.put k l }

/-- CAR_EN of a carrier. -/
def Side.carEn (d : Side) (k : Nat) : Bool := rb d.regs Pg.TROWEL Reg.TROWEL_CAR_EN k

/-! ## Copies of the regulatory limits (R344) -/

/-- Airtime of released launches of a port or account without completion. -/
def TrowelState.inFlightAir (w : TrowelState) (p : Released → Bool) : Nat :=
  (w.released.filter fun r => r.burstEnd.isNone && decide (r.port < 12) && p r).foldl (fun n r => n + r.air) 0

/-- The duty-cycle and dwell copies permit a launch now, with the launches in flight charged (R344, R345). -/
def Side.copiesOk (c : Commons) (d : Side) (p : RPort) (ch air : Nat) : Bool :=
  let def_ := d.chan p.num ch
  let w := d.trowel
  let cc : Commons := { c with duty := { use := w.duty, idx := w.dutyIdx, next := w.dutyNext } }
  let dw : Tab Nat := (w.dwell.filter fun e => decide (e.1 / 4096 = p.num)).map fun e => (e.1 % 4096, e.2)
  let cd := cc.updPort p fun q => { q with dwell := dw }
  let inAcct := w.inFlightAir fun r => decide ((d.chan (r.port / 4) r.f.ch).account = def_.account)
  let inChan := w.inFlightAir fun r => decide (r.port / 4 = p.num) && decide (r.f.ch = ch)
  dwellOk cd p def_ ch (air + inChan) && dutyOk cd def_ (air + inAcct)

/-- How many buckets before the current one an LT lies, when the current one ends at `next`. -/
def bucketsBack (next width lt : Nat) : Nat := if lt + width < next then ceilDiv (next - width - lt) width else 0

/-- LT at which a port's current dwell sub-bucket of the copy ends. -/
def TrowelState.dwellEnd (w : TrowelState) (p : RPort) : Nat := (w.dwellNext.find p.num).getD 1250000000

/-- The width of a dwell sub-bucket of a port, ns (R120). -/
def dwellWidth (c : Commons) (p : RPort) : Nat := 1000000 * (rf c.regs p.chzPage Reg.CHZ_DWELL_WIN 15 0) / 16

/-- A burst charged to the copies, in the buckets in which its start lies (R116, R119, R344). -/
def Side.chargeCopies (c : Commons) (d : Side) (p : RPort) (ch lt air : Nat) (acct : Bool) : Side :=
  d.updTrowel fun w =>
    let bd := bucketsBack (w.dwellEnd p) (dwellWidth c p) lt
    let k := (p.num * 256 + ch) * 16 + ((w.dwellIdx.find p.num).getD 0 + 16 - bd) % 16
    let w1 := if bd < 16 then { w with dwell := w.dwell.put k ((w.dwell.find k).getD 0 + air) } else w
    let by_ := bucketsBack w.dutyNext 60000000000 lt
    match (d.chan p.num ch).account with
    | some a => if acct && decide (by_ < 60) then
        let j := a * 64 + (w.dutyIdx + 60 - by_) % 60
        { w1 with duty := w1.duty.put j ((w1.duty.find j).getD 0 + air) }
      else w1
    | none => w1

/-- An acknowledgement sent for a received frame charges the copies as it charges the accounts (R116, R118, R119, R344). -/
def Side.chargeAck (c : Commons) (d : Side) (m : RxMeta) : Side :=
  if m.ackSent then
    let pays := match (d.chan m.port.num m.channel).account with
      | some a => decide (ackMode c a ≠ 2)
      | none => false
    d.chargeCopies c m.port m.channel (m.endLt + 1000 * d.turnUs m.mode) m.ackAirtime pays
  else d

/-- A boundary of the duty-cycle copy that the side's now has reached (R117). -/
def Side.dutyCopyStep (d : Side) : Nat → Side
  | 0 => d
  | fuel + 1 =>
    if d.trowel.dutyNext ≤ d.now then
      (d.updTrowel fun w =>
        let i := (w.dutyIdx + 1) % 60
        { w with duty := w.duty.filter fun e => decide (e.1 % 64 ≠ i), dutyIdx := i,
                 dutyNext := w.dutyNext + 60000000000 }).dutyCopyStep fuel
    else d

/-- A boundary of a port's dwell copy that the side's now has reached (R120). -/
def Side.dwellCopyStep (c : Commons) (p : RPort) (d : Side) : Nat → Side
  | 0 => d
  | fuel + 1 =>
    let step := dwellWidth c p
    let at_ := d.trowel.dwellEnd p
    if at_ ≤ d.now then
      Side.dwellCopyStep c p (d.updTrowel fun w =>
        let i := ((w.dwellIdx.find p.num).getD 0 + 1) % 16
        { w with dwell := w.dwell.filter fun e => !(decide (e.1 / 4096 = p.num) && decide (e.1 % 16 = i))
                 dwellIdx := w.dwellIdx.put p.num i, dwellNext := w.dwellNext.put p.num (at_ + step) }) fuel
    else d

/-! ## Protected spans (R346) -/

/-- The blanking map of a channel holds another (R107), by the channel plan as sequenced to the side. -/
def Side.blanks (c : Commons) (d : Side) (p : RPort) (ch other : Nat) : Bool :=
  let a := d.chan p.num ch
  let b := d.chan p.num other
  halfDuplex c p ||
    decide (binDistance a.lowBin a.highBin b.lowBin b.highBin < rf c.regs p.rfPage Reg.RF_BLANK_DIST 8 0)

/-- The protected spans that a burst at a time would meet. -/
def Side.meetsSpans (c : Commons) (d : Side) (p : RPort) (ch t air : Nat) : List (Nat × Nat) :=
  (d.trowel.spans.filter fun s =>
    decide (s.1 = p.num) && d.blanks c p ch s.2.1 && spansMeet (t - 8000) (t + 1000 * air + 8000) s.2.2.1 s.2.2.2).map
    fun s => (s.2.1, s.2.2.2)

/-! ## Outcomes -/

/-- A new number for a frame, an item or a launch. -/
def Side.newId (d : Side) : Nat × Side := (d.trowel.ids, d.updTrowel fun w => { w with ids := w.ids + 1 })

/-- The code is a good outcome: LAUNCHED or DELIVERED. -/
def goodCode (code : Nat) : Bool := decide (code = 0) || decide (code = 32)

/-- A frame reaches its outcome: its own cell is freed; its item completes when all its frames have theirs, with the
first bad status (R348, R392). -/
def Side.outcome (d : Side) (lt : Nat) (f : Frame) (code : Nat) : Side :=
  let d1 := d.freeCellsOf f.cell.toList
  match f.item with
  | none => d1
  | some i => match d1.trowel.items.find i with
    | none => d1
    | some o =>
      let st := if goodCode o.code && !goodCode code then code else if o.code = 0 then code else o.code
      if o.left ≤ 1 then
        ((d1.updTrowel fun w => { w with items := w.items.del i }).freeCellsOf o.cells).completion lt o.strand st o.tenant
          o.service o.group o.tag
      else d1.updTrowel fun w => { w with items := w.items.put i { o with left := o.left - 1, code := st } }

/-! ## Enqueue (R319 to R322, R340) -/

/-- A frame is too long for every opening of its service on the enabled carriers of its port (R340). DEDUCED: with no
carrier enabled no opening exists. -/
def Side.tooLong (c : Commons) (d : Side) (f : Frame) : Bool :=
  decide (f.group < 3) && (groupPorts f.group).all fun k =>
    !d.carEn k || (match (d.gate k).maxOpen f.service with
      | some m => decide (1000 * (m / 1000) < d.scrim c f.group f)
      | none => false)

/-- A refused frame: counted, and complete at once (R320). -/
def Side.refuse (d : Side) (lt : Nat) (f : Frame) (off code : Nat) : Side := (d.count Pg.TROWEL off).outcome lt f code

/-- A frame enters its queue, or is refused (R320). The unit disabled refuses it (R458). -/
def Side.enqueue (v : Variant) (c : Commons) (d : Side) (lt : Nat) (f : Frame) : Side :=
  let q := d.trowel.frames f.queue
  let destBad : Bool := !groupPresent v f.group || (match RPort.ofNum f.group with
    | some p => !txEn c p
    | none => false)
  if !unitOn d.regs Pg.TROWEL then d.outcome lt f Config.refusalStatus
  else if destBad then d.refuse lt f Reg.TROWEL_REF_DEST 19
  else if rf d.regs Pg.TROWEL Reg.TROWEL_QLIM 9 0 ≤ q.length then d.refuse lt f Reg.TROWEL_REF_FULL 16
  else if d.strand.cellsFree = 0 then d.refuse lt f Reg.TROWEL_REF_CELL 17
  else if d.tooLong c f then d.refuse lt f Reg.TROWEL_REF_LONG 18
  else
    let own := if f.item.isNone ∧ f.cell.isNone then d.takeCell else none
    let d1 := match own with
      | some e => e.2
      | none => d
    let f1 : Frame := match own with
      | some e => { f with cell := some e.1 }
      | none => f
    let d2 := (d1.count Pg.TROWEL Reg.TROWEL_ENQ).activate f1
    d2.updTrowel fun w =>
      let w1 := w.setQueue f.queue (w.frames f.queue ++ [f1])
      { w1 with peak := max w1.peak w1.count }

/-- A head is held (R272, R321, R454): its key is still being derived, an earlier frame of its flow is released without outcome, or a loss marker of its flow
waits. DEDUCED: a frame that is no node downlink is a flow of its own. -/
def Side.isHeld (d : Side) (f : Frame) : Bool :=
  d.keyPending f.seq || decide (f.node ≠ 0) &&
  ((d.trowel.released.any fun r => r.win.isNone && decide (r.f.queue = f.queue) && decide (r.f.node = f.node)) ||
   d.strand.marks.any fun m => decide (m.flow = f.node + 2 ^ 32))

/-! ## Release -/

/-- Why a head is skipped (R329), with what the skip counts. -/
inductive Skip where
  | no
  | quiet
  | wait (tag : Nat)
  | duty
  | span (ss : List (Nat × Nat))
  deriving DecidableEq, Repr

/-- The checks of R329 for a head on a carrier at t, but for its credit. -/
def Side.check (c : Commons) (d : Side) (k t : Nat) (f : Frame) : Skip :=
  match RPort.ofNum (k / 4) with
  | none => .quiet
  | some p =>
    let air := d.frameAir f
    let fin := t + d.scrim c p.num f
    let o := d.opening k f.service t
    let meets := d.meetsSpans c p f.ch t air
    if d.isHeld f then .quiet
    else if o = .closed then .quiet
    else if !o.holds fin || (d.trowel.booked k).any (fun b => spansMeet t fin b.1 b.2) then .wait o.tag
    else if !d.copiesOk c p f.ch air then .duty
    else if !meets.isEmpty then .span meets
    else .no

/-- A frame at the head of its queue changed. -/
def Side.setHead (d : Side) (f : Frame) (g : Frame → Frame) : Side :=
  d.updTrowel fun w => w.setQueue f.queue (match w.frames f.queue with
    | x :: t => g x :: t
    | [] => [])

/-- What a skip on a carrier counts: once per frame and opening of the carrier, minute bucket or span (R329, R345, R346). -/
def Side.noteSkip (d : Side) (k : Nat) (f : Frame) : Skip → Side
  | .wait tag => if f.waited.contains (k, tag) then d
    else (d.count Pg.TROWEL Reg.TROWEL_WAIT_OPEN).setHead f fun x => { x with waited := (k, tag) :: x.waited }
  | .duty => if f.skipped = some d.trowel.dutyNext then d
    else (d.count Pg.TROWEL Reg.TROWEL_DUTY_SKIP).setHead f fun x => { x with skipped := some d.trowel.dutyNext }
  | .span ss =>
    let new := ss.filter fun s => !f.deferred.contains s
    { d with regs := bumpBy d.regs Pg.TROWEL Reg.TROWEL_DEFER_RX new.length }.setHead f
      fun x => { x with deferred := new ++ x.deferred }
  | _ => d

/-- Round-robin rank of a tenant on a port for a service: the subscriber after the last one released comes first
(R330). -/
def Side.rank (d : Side) (k svc tenant : Nat) : Nat :=
  match d.trowel.turns.find (k * 8 + svc) with
  | some last => (tenant + 1024 - last - 1) % 1024
  | none => tenant

/-- A candidate: its class (true committed), and its frame. -/
abbrev Cand := Bool × Frame

/-- A candidate comes before another on a port (R330). -/
def Side.candBefore (d : Side) (k : Nat) (a b : Cand) : Bool :=
  if a.1 ≠ b.1 then a.1
  else if a.2.service ≠ b.2.service then decide (b.2.service < a.2.service)
  else decide (d.rank k a.2.service a.2.tenant < d.rank k b.2.service b.2.tenant)

/-- The best of a list of candidates. -/
def Side.bestCand (d : Side) (k : Nat) : List Cand → Option Cand
  | [] => none
  | x :: t => match d.bestCand k t with
    | some y => if d.candBefore k y x then some y else some x
    | none => some x

/-- The heads of the queues of a group. -/
def TrowelState.heads (w : TrowelState) (group : Nat) : List Frame :=
  w.queues.filterMap fun e => if e.1 % 8 = group then e.2.head? else none

/-- A release is counted against the second's limit (R332): none when the limit is reached. DEDUCED: seconds of LT. -/
def Side.rateOk (d : Side) : Bool :=
  decide (d.trowel.rateSec ≠ d.now / 1000000000) || decide (d.trowel.rateCnt < 20000)

/-- The second's count advanced. -/
def Side.rateNote (d : Side) : Side :=
  d.updTrowel fun w =>
    if w.rateSec = d.now / 1000000000 then { w with rateCnt := w.rateCnt + 1 }
    else { w with rateSec := d.now / 1000000000, rateCnt := 1 }

/-- The launch transaction of a frame on a carrier (R92, R330). -/
def Side.launchOf (d : Side) (f : Frame) (k t : Nat) (p : RPort) : Launch :=
  { id := f.id, port := p, carrier := k % 4, ch := f.ch, mode := f.mode, txLevel := f.txLevel, profile := f.profile,
    discardLate := true, lt := t, phyOpt := f.phyOpt, preamble := d.txPre, psdu := f.psdu }

/-- A frame leaves its queue. -/
def Side.unqueue (d : Side) (f : Frame) : Side :=
  d.updTrowel fun w => w.setQueue f.queue ((w.frames f.queue).drop 1)

/-- A chosen frame released on a carrier at t (R330, R343, R346). -/
def Side.releaseOn (c : Commons) (d : Side) (k t : Nat) (p : RPort) (f : Frame) : Side :=
  let e := d.takeCredit f k false
  let air := d.frameAir f
  let d1 := (((e.2.unqueue f).count Pg.TROWEL Reg.TROWEL_RELEASED).rateNote.book k t (t + d.scrim c p.num f)).updTrowel
    fun w => { w with turns := w.turns.put (k * 8 + f.service) f.tenant
                      released := w.released ++ [{ f := f, port := k, t := t, air := air, took := e.1, burstEnd := none,
                                                   ackBy := none, win := none }] }
  let d2 := if f.ar && rb d.regs Pg.TROWEL Reg.TROWEL_CFG 8 then
      let sp := (p.num, f.ch, t + 1000 * air, t + 1000 * (air + d.ackWaitUs f.mode f.phyOpt))
      d1.updTrowel fun w => { w with spans := w.spans ++ [sp] }
    else d1
  (d2.emit (.launch (d.launchOf f k t p))).deactivate

/-- A carrier is to decide at the last time input: its port exists, it is enabled and ready, it has not decided yet, and a frame
waits in a queue of its group (R328, R329, R332). DEDUCED: it is ready when no booking covers t. -/
def Side.decides (v : Variant) (d : Side) (k : Nat) : Bool :=
  let t := d.tick + d.relLead
  match RPort.ofNum (k / 4) with
  | none => false
  | some p => v.hasPort p && decide (d.trowel.deciding ≤ k) && d.carEn k && d.rateOk && !(d.trowel.heads p.num).isEmpty &&
      !(d.trowel.booked k).any (fun b => decide (b.1 ≤ t) && decide (t < b.2))

/-- The carrier that decides next at the last time input: they decide in increasing port number (R328). -/
def Side.nextDecision (v : Variant) (d : Side) : Option Nat := (List.range 12).find? fun k => d.decides v k

/-- A release decision for the carrier whose turn it is (R328 to R332). -/
def Side.decide_ (v : Variant) (c : Commons) (d0 : Side) (k : Nat) : Side :=
  match RPort.ofNum (k / 4) with
  | none => d0
  | some p =>
    if d0.nextDecision v ≠ some k then d0
    else
      let d := d0.updTrowel fun w => { w with deciding := k + 1 }
      let t := d.tick + d.relLead
      let hs := d.trowel.heads p.num
      let d1 := hs.foldl (fun a f => a.noteSkip k f (d.check c k t f)) d
      let cands : List Cand := (d1.trowel.heads p.num).filterMap fun f =>
        if d.check c k t f = .no then (d.creditClass f k).map (·, f) else none
      match d1.bestCand k cands with
      | none => d1
      | some e => d1.releaseOn c k t p e.2

/-- An Ethernet MAC or host port of Trowel has room for one frame (R331). -/
def Side.roomAt (d : Side) (k : Nat) : Bool :=
  decide (14 ≤ k) || decide ((d.trowel.released.filter fun r => decide (r.port = k)).length < Config.ethTxRoom + 1)

/-- A frame released to an Ethernet MAC or a host port (R331). One delivered to a host port completes LAUNCHED. -/
def Side.releaseTo_ (d : Side) (lt k : Nat) (f : Frame) : Side :=
  let e := d.takeCredit f k false
  let d1 := ((e.2.unqueue f).count Pg.TROWEL Reg.TROWEL_RELEASED).rateNote.updTrowel
    fun w => { w with turns := w.turns.put (k * 8 + f.service) f.tenant }
  if k < 14 then
    ((d1.updTrowel fun w => { w with released := w.released ++
        [{ f := f, port := k, t := d.now, air := 0, took := e.1, burstEnd := none, ackBy := none, win := none }] }).emit
      (.eth (decide (k = 13)) f.id f.tenant f.psdu)).deactivate
  else (((d1.emit (.hostFrame (decide (k = 15)) f.psdu)).deactivate).outcome lt f 0)

/-- A release decision for Trowel ports 12 to 15 (R331, R332). -/
def Side.decideHost (v : Variant) (d : Side) (lt k : Nat) : Side :=
  if !groupPresent v (trowelGroup k) || k < 12 || 16 ≤ k || !d.rateOk || !d.roomAt k then d
  else
    let cands : List Cand := (d.trowel.heads (trowelGroup k)).filterMap fun f =>
      if d.isHeld f then none else (d.creditClass f k).map (·, f)
    match d.bestCand k cands with
    | none => d
    | some e => d.releaseTo_ lt k e.2

/-! ## Completion (R348, R349) -/

/-- The released frame of a launch number. -/
def TrowelState.flight (w : TrowelState) (id : Nat) : Option Released := w.released.find? fun r => decide (r.f.id = id)

/-- A released frame is no longer in flight. -/
def Side.land (d : Side) (id : Nat) : Side :=
  d.updTrowel fun w => { w with released := w.released.filter fun r => decide (r.f.id ≠ id) }

/-- The protected span of a released launch removed, since it did not go out. -/
def Side.unprotect (d : Side) (r : Released) : Side :=
  d.updTrowel fun w => { w with spans := w.spans.filter fun s =>
    !(decide (s.1 = r.port / 4) && decide (s.2.1 = r.f.ch) && decide (s.2.2.1 = r.t + 1000 * r.air)) }

/-- A launch with AR = 1 has gone out: its acknowledgement is awaited, and its protected span runs from the end of its burst as it was
(R186, R346). -/
def Side.awaitAck (d : Side) (r : Released) (done : LaunchDone) : Side :=
  let fin := done.lt + 1000 * done.airtime
  let w := d.ackWaitUs r.f.mode r.f.phyOpt
  let d1 := (d.unprotect r).updTrowel fun k => { k with released := k.released.map fun x =>
    if x.f.id = r.f.id then { x with burstEnd := some fin, ackBy := some (fin + 1000 * (w + 32)) } else x }
  if rb d.regs Pg.TROWEL Reg.TROWEL_CFG 8 then
    d1.updTrowel fun k => { k with spans := k.spans ++ [(r.port / 4, r.f.ch, fin, fin + 1000 * w)] }
  else d1

/-- A frame returned to the head of its queue (R348). -/
def Side.requeue (d : Side) (r : Released) : Side :=
  let f : Frame := { r.f with relaunches := r.f.relaunches + 1 }
  let d1 := (d.updTrowel fun w => w.setQueue f.queue (f :: w.frames f.queue)).activate f
  (d1.giveBack r.f r.port r.took).count Pg.TROWEL Reg.TROWEL_REQUEUED

/-- The completion of a queued frame's launch (R348, R349). -/
def Side.queuedDone (d : Side) (lt : Nat) (r : Released) (done : LaunchDone) : Side :=
  if done.status = stLaunched ∨ done.status = stLate then
    if r.f.ar then d.awaitAck r done
    else (d.land r.f.id).outcome lt r.f 0
  else
    let d1 := (d.land r.f.id).unprotect r
    if done.status = stAborted ∨ done.status = stBadParam then d1.outcome lt r.f done.status
    else if rf d.regs Pg.TROWEL Reg.TROWEL_CFG 12 10 ≤ r.f.relaunches then
      (d1.count Pg.TROWEL Reg.TROWEL_RELAUNCH_EXH).outcome lt r.f done.status
    else if !unitOn d.regs Pg.TROWEL then d1.outcome lt r.f stAborted
    else d1.requeue r

/-- A released frame for an Ethernet MAC completes: LAUNCHED, or ABORTED with the link down (R508). -/
def Side.ethDone (d : Side) (lt id status : Nat) : Side :=
  match d.trowel.flight id with
  | none => d
  | some r => (d.land id).outcome lt r.f status

/-! ## Gate commands (R333 to R340) -/

/-- Frames that no longer fit anywhere are removed and complete with TOO_LONG_FOR_GATE, in queue order (R340). -/
def Side.purgeLong (c : Commons) (d : Side) (lt : Nat) : Side :=
  let bad := (d.trowel.queues.map fun e => e.2.filter (d.tooLong c)).flatten
  let keep (e : Nat × List Frame) : Option (Nat × List Frame) :=
    let l := e.2.filter fun f => !d.tooLong c f
    if l.isEmpty then none else some (e.1, l)
  let d1 := d.updTrowel fun w => { w with queues := w.queues.filterMap keep }
  (bad.foldl (fun a f => a.refuse lt f Reg.TROWEL_REF_LONG 18) d1).deactivate

/-- SWAP_LAT as used: not below REL_LEAD (R339), ns. -/
def Side.swapLat (d : Side) : Nat := 1000 * (rf d.regs Pg.GATE Reg.GATE_SWAP_LAT 15 0)

/-- BASE lies at or after an LT, and by less than 2^39 ST units: further ahead it is past (R40, R41, R336). -/
def notPast (base from_ : Nat) : Bool := decide (from_ ≤ base) && decide (base / 256 < from_ / 256 + 2 ^ 39)

/-- A swap whose start is past follows LATE_POL (R336). -/
def Side.lateSwap (d : Side) (k : Nat) : Side :=
  let g := d.gate k
  let from_ := d.now + d.swapLat
  if g.latePol then
    let s := g.adm.base + ceilDiv (from_ - g.adm.base) g.adm.cycle * g.adm.cycle
    d.updGate k fun g => { g with pend := some s, rebase := false, swapLt := s, missed := true }
  else d.updGate k fun g => { g with pend := some from_, rebase := true, swapLt := from_, late := true }

/-- A write of 1 to CTRL.SWAP (R336, R337). -/
def Side.gateSwap (d : Side) (k : Nat) : Side :=
  let g := d.gate k
  if g.pend.isSome then d.err Pg.GATE 1
  else if g.adm.len = 0 ∨ g.adm.cycle < 1000000 then d.err Pg.GATE 0
  else if notPast g.adm.base (d.now + d.swapLat) then
    d.updGate k fun g => { g with pend := some g.adm.base, rebase := false, swapLt := g.adm.base }
  else d.lateSwap k

/-- Pending swaps whose start an accepted step passes over follow LATE_POL (R70, R336). -/
def Side.passSwaps (d : Side) (old new : Nat) : Side :=
  (List.range 12).foldl (fun d k => match (d.gate k).pend with
    | some s => if old < s ∧ s ≤ new then d.lateSwap k else d
    | none => d) d

/-- A write of 1 to CTRL.ABORT (R337). -/
def Side.gateAbort (d : Side) (k : Nat) : Side := d.updGate k fun g => { g with pend := none, rebase := false }

/-- Some MAX_OPEN of a carrier is lower than before; none stands for no limit (R340). -/
def lowersOpen (old new : GateState) : Bool :=
  (List.range 8).any fun s => match old.maxOpen s, new.maxOpen s with
    | some a, some b => decide (b < a)
    | none, some _ => true
    | _, none => false

/-- The gates of a carrier changed; where that lowers a MAX_OPEN, frames that no longer fit anywhere go (R340). -/
def Side.changeGate (c : Commons) (d : Side) (lt k : Nat) (f : GateState → GateState) : Side :=
  let d1 := d.updGate k f
  if lowersOpen (d.gate k) (d1.gate k) then d1.purgeLong c lt else d1

/-- A write of CTRL.EN (R335, R340). -/
def Side.gateEn (c : Commons) (d : Side) (lt k : Nat) (en : Bool) : Side := Side.changeGate c d lt k fun g => { g with en := en }

/-- The swap of a carrier that the side's now has reached (R334, R337, R340). -/
def Side.gateApply (c : Commons) (d : Side) (lt k : Nat) : Side :=
  let g := d.gate k
  match g.pend with
  | none => d
  | some s =>
    if s ≤ d.now then
      let new := g.next s
      Side.changeGate c { d with regs := bumpI d.regs Pg.GATE Reg.GATE_SWAPS k } lt k fun g =>
        { g with oper := new, adm := g.oper, bank := !g.bank, pend := none, rebase := false,
                 trunc := g.trunc || decide (new.cycle < new.total) }
    else d

/-! ## Time inputs -/

/-- Spans and gaps that are past dropped. -/
def Side.dropPast (d : Side) : Side :=
  d.updTrowel fun w => { w with
    spans := w.spans.filter fun s => decide (d.now < 8000 + s.2.2.2)
    gaps := w.gaps.filter fun s => decide (d.now < s.2.2) }

/-- Trowel at a time input: the copies' boundaries, the rates and depths written since the last one, credit, spans; the carriers are
to decide (R117, R120, R324, R327, R328). -/
def Side.trowelTick (c : Commons) (d : Side) : Side :=
  let d1 := d.dutyCopyStep 64
  let d2 := [RPort.s, RPort.m, RPort.h].foldl (fun a p => Side.dwellCopyStep c p a 32) d1
  ({ d2 with trowel := { d2.trowel with shpWas := [], deciding := 0 } } : Side).gain.dropPast

/-- Targets of Trowel and the gates moved by a rebase (R61, R338); what is under way keeps its remaining delay. -/
def Side.trowelRebase (d : Side) (step : Nat) : Side :=
  let move (g : GateState) : GateState :=
    { g with
      oper := { g.oper with base := g.oper.base + step }
      adm := { g.adm with base := g.adm.base + step }
      pend := g.pend.map (· + step)
      swapLt := if g.pend.isSome then g.swapLt + step else g.swapLt }
  let shift (r : Released) : Released :=
    { r with t := r.t + step, burstEnd := r.burstEnd.map (· + step), ackBy := r.ackBy.map (· + step)
             win := r.win.map fun w => { w with fin := w.fin + step } }
  d.updTrowel fun w =>
    { w with
      gates := w.gates.map fun e => (e.1, move e.2)
      bookings := w.bookings.map fun e => (e.1, e.2.map fun b => (b.1 + step, b.2 + step))
      released := w.released.map shift
      spans := w.spans.map fun x => (x.1, x.2.1, x.2.2.1 + step, x.2.2.2 + step)
      gaps := w.gaps.map fun g => (g.1, g.2.1 + step, g.2.2 + step) }

/-- The boundaries of the copies keep their remaining delay through a step (R117). -/
def Side.copiesShift (d : Side) (step : Nat) : Side :=
  d.updTrowel fun w =>
    let dw := [RPort.s, RPort.m, RPort.h].foldl (fun (t : Tab Nat) p => t.put p.num (w.dwellEnd p + step)) w.dwellNext
    { w with dutyNext := w.dutyNext + step, dwellNext := dw }

/-- A commons notice acts on Trowel: RX_BUSY protects its channel (R346), CAL_NOTICE announces a gap (R347). DEDUCED: a
gap that starts as it is noticed (GAP_NOW) is not announced. -/
def Side.trowelNotice (d : Side) : Notice → Side
  | .rxBusy p ch endLt =>
    if rb d.regs Pg.TROWEL Reg.TROWEL_CFG 9 &&
        decide (endLt - d.now ≤ 1000 * (rf d.regs Pg.TROWEL Reg.TROWEL_PROT_MAX 19 0)) then
      d.updTrowel fun w => { w with spans := w.spans ++ [(p.num, ch, d.now, endLt)] }
    else d
  | .calNotice p start len =>
    if start ≤ d.now then d
    else d.updTrowel fun w => { w with gaps := w.gaps ++ [(p.num, start, start + 1000 * len)] }
  | _ => d

/-- A side that takes part acts on its own work when it runs. -/
def sideRun (s : State) (x : SideId) : Bool := unitsRun s && s.c.bezel.consumes x && s.c.pd.sideUp x

end Sys2Proof.Machine
end

