-- ==== Sys2Proof/Machine/Pend.lean ====
section
/-! DEFINITION. The pending-downlink pool, receive windows, acknowledgements from nodes and drift tracking (chapter 5,
side half), with the timed launches of chapter 10. -/

namespace Sys2Proof.Machine

open Sys2Proof

/-! ## The pool (R178 to R181) -/

/-- The PEND unit changed. -/
def Side.updPend (d : Side) (f : PendState → PendState) : Side := { d with pend := f d.pend }

/-- Blocks of the pool. -/
def poolBlocks : Nat := 30720

/-- Blocks that a frame takes (R178). -/
def frameBlocks (f : Frame) : Nat := ceilDiv (64 + f.psdu.length) 256

/-- Blocks in use. -/
def PendState.used (p : PendState) : Nat := p.pool.foldl (fun n e => n + frameBlocks e.f) 0

/-- PER_NODE; 0 is treated as 1. -/
def Side.perNode (d : Side) : Nat := max 1 (rf d.regs Pg.PEND Reg.PEND_CFG 7 4)

/-- The address announced for a node (R179): its EUI-64, or the short address of its mesh ID. DEDUCED: a node without an
entry has no known EUI-64 and is not announced. -/
def Side.announceAddr (d : Side) (mesh : Nat) : Option (Bool × Nat) :=
  if rb d.regs Pg.PEND Reg.PEND_CFG 1 then some (false, mesh % 65536)
  else (d.nodeAt mesh).map fun e => (true, e.2.eui)

/-- PEND of a node's entry follows the pool; a locked entry stays as it is (R227, R243). -/
def Side.markPend (d : Side) (mesh : Nat) (on : Bool) : Side :=
  match d.nodeAt mesh with
  | some e => d.setNode e.1 fun x => if x.lock then x else { x with pend := on }
  | none => d

/-- A node's first frame is parked: its SET is sent (R179). -/
def Side.announce (d : Side) (mesh : Nat) : Side :=
  let d1 := d.markPend mesh true
  match d.announceAddr mesh with
  | some a => (d1.updPend fun p => { p with addrs := p.addrs.put mesh a }).emit (.plUpdate (.set a.1 a.2))
  | none => d1

/-- A node's last frame has left: its CLEAR is sent (R179). -/
def Side.unannounce (d : Side) (mesh : Nat) : Side :=
  let d1 := d.markPend mesh false
  match d1.pend.addrs.find mesh with
  | some a => (d1.updPend fun p => { p with addrs := p.addrs.del mesh, unann := p.unann.del mesh }).emit
      (.plUpdate (.clear a.1 a.2))
  | none => d1

/-- The counter of an outcome (table "Parked-frame outcomes"). -/
def outcomeReg : Nat → Nat
  | 0 => Reg.PEND_DELIVERED
  | 1 => Reg.PEND_EXPIRED
  | 2 => Reg.PEND_UNDELIVERED
  | 3 => Reg.PEND_POOL_FULL
  | _ => Reg.PEND_NODE_FULL

/-- A frame parked, or refused with POOL_FULL or NODE_FULL (R178, R179). -/
def Side.park (d : Side) (lt : Nat) (f : Frame) : Side :=
  if !unitOn d.regs Pg.PEND then d.outcome lt f Config.refusalStatus
  else if poolBlocks < d.pend.used + frameBlocks f then (d.count Pg.PEND (outcomeReg 3)).outcome lt f 35
  else if d.perNode ≤ (d.pend.pool.filter fun p => decide (p.f.node = f.node)).length then
    (d.count Pg.PEND (outcomeReg 4)).outcome lt f 36
  else
    let first := !d.hasParked f.node
    let d1 := (d.count Pg.PEND Reg.PEND_PARKED).updPend fun p =>
      let e : Parked := { f := f, since := d.now, windows := 0, inFlight := false }
      let p1 : PendState := { p with pool := p.pool ++ [e] }
      { p1 with poolPeak := max p1.poolPeak p1.used }
    if first then d1.announce f.node else d1

/-- A parked frame leaves the pool without its completion; the CLEAR follows the node's last frame. -/
def Side.takeParked (d : Side) (f : Frame) : Side :=
  let d1 := d.updPend fun p => { p with pool := p.pool.filter fun e => decide (e.f.id ≠ f.id) }
  if d1.hasParked f.node then d1 else d1.unannounce f.node

/-- A parked frame leaves with an outcome (R181). -/
def Side.leave (d : Side) (lt : Nat) (f : Frame) (code : Nat) : Side :=
  ((d.takeParked f).count Pg.PEND (outcomeReg code)).outcome lt f (32 + code)

/-- A downlink to a node is parked, whether it asks for it or not, where that keeps its node's order (R322). -/
def Side.parks (d : Side) (node : Nat) (park : Bool) : Bool :=
  if park then d.hasParked node || !d.trowel.hasNode node else decide (node ≠ 0) && d.hasParked node

/-- A node downlink takes the path that keeps its node's order; a redirection counts (R322). -/
def Side.submit (v : Variant) (c : Commons) (d : Side) (lt : Nat) (park : Bool) (f : Frame) : Side :=
  let parks := d.parks f.node park
  let d1 := if parks = park then d else d.count Pg.TROWEL Reg.TROWEL_REDIRECT
  if parks then d1.park lt f else d1.enqueue v c lt f

/-- Frames parked for longer than MAX_AGE expire (R181). DEDUCED: one with an attempt in progress waits for its end. -/
def Side.expireParked (d : Side) (lt : Nat) : Side :=
  let age := 1000000000 * (rf d.regs Pg.PEND Reg.PEND_MAX_AGE 23 0)
  if age = 0 then d
  else
    let old := d.pend.pool.filter fun p => !p.inFlight && decide (age < d.now - p.since)
    old.foldl (fun a p => a.leave lt p.f 1) d

/-! ## Pending-list completions (R180) -/

/-- The node whose SET carried an address. -/
def PendState.nodeOf (p : PendState) (ext : Bool) (addr : Nat) : Option Nat :=
  (p.addrs.find? fun e => decide (e.2 = (ext, addr))).map fun e => e.1

/-- A pending-list update completes: a SET that was refused with FULL is repeated every second of LT (R173, R180). -/
def Side.plDone (d : Side) (op : PlOp) (status : Nat) : Side :=
  match op with
  | .set ext addr => match d.pend.nodeOf ext addr with
    | none => d
    | some m =>
      if status = 3 then
        (d.count Pg.PEND Reg.PEND_UNANNOUNCED).updPend fun p =>
          { p with unann := match p.unann.find m with
              | some _ => p.unann
              | none => p.unann.put m (d.now + 1000000000) }
      else d.updPend fun p => { p with unann := p.unann.del m }
  | _ => d

/-- The SETs whose second has passed are repeated (R180). -/
def Side.retrySets (d : Side) : Side :=
  (d.pend.unann.filter fun e => decide (e.2 ≤ d.now)).foldl (fun a e =>
    match a.pend.addrs.find e.1 with
    | some x => (a.updPend fun p => { p with unann := p.unann.put e.1 (e.2 + 1000000000) }).emit (.plUpdate (.set x.1 x.2))
    | none => a) d

/-! ## Timed launches (R350, R351) -/

/-- The carrier of a timed launch from t (R350): the lowest-numbered that is enabled, free, and open throughout. DEDUCED: beyond the
20,000 releases of a second of R332 there is none. -/
def Side.timedCarrier (c : Commons) (d : Side) (port t : Nat) (f : Frame) : Option Nat :=
  let fin := t + d.scrim c port f
  (groupPorts port).find? fun k =>
    decide (port < 3) && d.rateOk && d.carEn k && !((d.trowel.booked k).any fun b => spansMeet t fin b.1 b.2) &&
    (d.opening k f.service t).holds fin

/-- A parked frame changed. -/
def Side.setParked (d : Side) (id : Nat) (g : Parked → Parked) : Side :=
  d.updPend fun p => { p with pool := p.pool.map fun e => if e.f.id = id then g e else e }

/-- A parked frame released as a timed launch at t, or left parked (R350, R351). -/
def Side.timed (c : Commons) (d : Side) (f : Frame) (t : Nat) (w : WinTx) : Bool × Side :=
  match RPort.ofNum f.group, d.timedCarrier c f.group t f with
  | some p, some k =>
    let e := d.takeCredit f k true
    let air := d.frameAir f
    let d1 := (((e.2.count Pg.TROWEL Reg.TROWEL_TIMED_OK).count Pg.PEND Reg.PEND_WIN_LAUNCH).rateNote.book k t
      (t + d.scrim c f.group f)).updTrowel fun x =>
        let r : Released := { f := f, port := k, t := t, air := air, took := e.1, burstEnd := none, ackBy := none,
                              win := some w }
        { x with released := x.released ++ [r] }
    let d2 := if f.ar && rb d.regs Pg.TROWEL Reg.TROWEL_CFG 8 then
        let sp := (p.num, f.ch, t + 1000 * air, t + 1000 * (air + d.ackWaitUs f.mode f.phyOpt))
        d1.updTrowel fun x => { x with spans := x.spans ++ [sp] }
      else d1
    (true, (d2.setParked f.id fun e => { e with f := f, inFlight := true }).emit (.launch (d.launchOf f k t p)))
  | _, _ =>
    (false, ((d.count Pg.TROWEL Reg.TROWEL_TIMED_REFUSED).count Pg.PEND Reg.PEND_WIN_LOST).setParked f.id
      fun e => { e with inFlight := false })

/-! ## Receive windows -/

/-- A node's oldest parked frame, unless an attempt for the node is in progress or a loss marker of its flow waits
(R454). -/
def Side.oldest (d : Side) (mesh : Nat) : Option Parked :=
  let l := d.pend.pool.filter fun p => decide (p.f.node = mesh)
  if (l.any fun p => p.inFlight || d.keyPending p.f.seq) || d.strand.marks.any fun m => decide (m.flow = mesh + 2 ^ 32) then none else l.head?

/-- A parked frame placed on a channel: port, channel, mode. -/
def Frame.on (f : Frame) (port ch mode : Nat) : Frame := { f with group := port, ch := ch, mode := mode }

/-- The node entry's preferred port, channel and mode. -/
def Side.prefPlace (d : Side) (mesh : Nat) : Option (Nat × Nat × Nat) :=
  (d.nodeAt mesh).map fun e => (e.2.prefPort, e.2.prefChan, e.2.prefMode)

/-- A window opened at L for a node: its oldest parked frame is launched there (R182, R183). -/
def Side.openWindow (c : Commons) (d : Side) (mesh l port ch mode : Nat) : Side :=
  match d.oldest mesh with
  | none => d
  | some p =>
    let pl := if rb d.regs Pg.PEND Reg.PEND_CFG 0 then (d.prefPlace mesh).getD (port, ch, mode) else (port, ch, mode)
    (d.timed c (p.f.on pl.1 pl.2.1 pl.2.2) l
      { fin := l + 1000 * (rf d.regs Pg.PEND Reg.PEND_RXW_LEN 19 0), tries := 0, record := none }).2

/-- RXW_OFFSET, ns. -/
def Side.rxwOffset (d : Side) : Nat := 1000 * (rf d.regs Pg.PEND Reg.PEND_RXW_OFFSET 15 0)

/-- The window after an acknowledgement with pending = 1 (R182 to R184). DEDUCED: the node is the one that was announced
under the frame's MAC source address. -/
def Side.ackWindow (c : Commons) (d : Side) (m : RxMeta) (srcMode src : Nat) : Side :=
  if !m.ackPend then d
  else
    let node := if srcMode = 3 then d.pend.nodeOf true src else if srcMode = 2 then d.pend.nodeOf false src else none
    match node with
    | none => d.count Pg.PEND Reg.PEND_PEND_NOFRAME
    | some mesh =>
      let l := m.endLt + 1000 * (d.turnUs m.mode + m.ackAirtime) + d.rxwOffset
      d.openWindow c mesh l m.port.num m.channel m.mode

/-- The completion of a timed launch (R183, R186). -/
def Side.timedDone (d : Side) (lt : Nat) (r : Released) (done : LaunchDone) : Side :=
  if done.status = stLaunched ∨ done.status = stLate then
    if r.f.ar then d.awaitAck r done
    else (d.land r.f.id).leave lt r.f 0
  else
    (((d.land r.f.id).unprotect r).count Pg.PEND Reg.PEND_WIN_LOST).setParked r.f.id fun e => { e with inFlight := false }

/-- A launch completion charges the copies and ends or continues its frame (R119, R344, R348, R183). Symbol frames of a
broadcast session complete like any queued frame. -/
def Side.launchDone (c : Commons) (d : Side) (lt : Nat) (done : LaunchDone) : Side :=
  let charged : Bool := decide (done.status = stLaunched ∨ done.status = stLate ∨ done.status = stPreempted)
  let d1 := if charged then Side.chargeCopies c d done.port done.ch done.lt done.airtime true else d
  match d1.trowel.flight done.id with
  | none => d1
  | some r => if r.win.isSome then d1.timedDone lt r done else d1.queuedDone lt r done

/-- A record of scheduled windows changed. -/
def Side.updRec (d : Side) (n : Nat) (g : WinRec → WinRec) : Side :=
  match d.pend.recs.find n with
  | some r => d.updPend fun p => { p with recs := p.recs.put n (g r) }
  | none => d

/-- The window of a parked frame ends without acknowledgement (R188, R181). -/
def Side.windowLost (d : Side) (lt : Nat) (r : Released) (w : WinTx) : Side :=
  let d1 := (d.count Pg.PEND Reg.PEND_WIN_NOACK).setParked r.f.id
    fun e => { e with inFlight := false, windows := e.windows + 1 }
  let d2 := match w.record with
    | some n => d1.updRec n fun x => { x with noack := true }
    | none => d1
  let max_ := rf d.regs Pg.PEND Reg.PEND_MAX_WINDOWS 7 0
  match d2.pend.pool.find? fun e => decide (e.f.id = r.f.id) with
  | some e => if max_ ≠ 0 ∧ max_ ≤ e.windows then d2.leave lt e.f 2 else d2
  | none => d2

/-- A released frame that had to be acknowledged is found unacknowledged (R187): a queued one completes NOACK (R349), a
window launch is retried or ends its window (R188, R192). -/
def Side.unacked (c : Commons) (d : Side) (lt : Nat) (r : Released) : Side :=
  let d1 := d.land r.f.id
  match r.win with
  | none => (d1.count Pg.TROWEL Reg.TROWEL_NOACK).outcome lt r.f 20
  | some w =>
    let l := d.tick + 1000 * (rf d.regs Pg.PEND Reg.PEND_ACKW_CFG 31 16)
    let fin := l + lbtSpare c d r.f.group r.f.ch + 1000 * (r.air + d.ackWaitUs r.f.mode r.f.phyOpt)
    if w.tries < rf d.regs Pg.PEND Reg.PEND_CFG 11 8 ∧ fin ≤ w.fin then
      let e := d1.timed c r.f l { w with tries := w.tries + 1 }
      if e.1 then e.2.count Pg.PEND Reg.PEND_RETRY else e.2
    else d1.windowLost lt r w

/-- Every launch whose acknowledgement wait is over at the last time input, in the order of release (R187). -/
def Side.ackExpiry (c : Commons) (d : Side) (lt : Nat) : Side :=
  (d.trowel.released.filter fun r => match r.ackBy with
    | some t => decide (t ≤ d.tick)
    | none => false).foldl (fun a r => a.unacked c lt r) d

/-- An acknowledgement frame matches a launch (R186). -/
def Side.ackMatches (d : Side) (m : RxMeta) (seq : Option Nat) (r : Released) : Bool :=
  match r.burstEnd with
  | none => false
  | some e =>
    let tol := 1000 * (rf d.regs Pg.PEND Reg.PEND_ACKW_CFG 15 8)
    decide (r.port / 4 = m.port.num) && decide (r.f.ch = m.channel) && decide (r.f.macSeq = seq) &&
    decide (e + 1000 * (d.turnUs r.f.mode) ≤ m.sfdLt + tol) &&
    decide (m.endLt ≤ e + 1000 * (d.ackWaitUs r.f.mode r.f.phyOpt))

/-- An ACKFRAME frame: it completes the launch it matches, or counts in ACK_UNMATCHED (R185 to R187, R349). -/
def Side.ackFrame (c : Commons) (d : Side) (lt : Nat) (m : RxMeta) (seq : Option Nat) : Side :=
  match d.trowel.released.find? (d.ackMatches m seq) with
  | none => d.count Pg.PEND Reg.PEND_ACK_UNMATCHED
  | some r =>
    let d1 := d.land r.f.id
    if r.win.isNone then d1.outcome lt r.f 0
    else
      let d2 := d1.leave lt r.f 0
      if nbit (byteAt r.f.psdu 0) 4 then d2.openWindow c r.f.node (m.endLt + d.rxwOffset) m.port.num m.channel m.mode else d2

/-! ## Scheduled windows (R189 to R192) -/

/-- T̂(k) of a record (R189), in ns. -/
def WinRec.est (r : WinRec) (k : Nat) : Int :=
  let t : Int := (r.nom + 1000000 * (k * r.period) : Nat)
  t - r.eps * (t - r.anchor) / 1000000000

/-- The guard G of a window (R190), in ns. -/
def Side.winGuard (d : Side) (r : WinRec) (k : Nat) : Int :=
  (1000 * (rf d.regs Pg.PEND Reg.PEND_GUARD_BASE 15 0) : Nat) +
  (rf d.regs Pg.PEND Reg.PEND_GUARD_RES 15 0 : Int) * (r.est k - r.anchor) / 100000000

/-- The first window of a record that has not begun by an LT: the least k with T̂(k) after it. -/
def firstWindow (r : WinRec) (now : Nat) : Nat :=
  let den : Int := 1000000000 - r.eps
  if den ≤ 0 ∨ r.period = 0 then 0
  else
    let x : Int := (1000000000 * (now : Int) - r.eps * r.anchor) / den
    if x < r.nom then 0 else ((x - r.nom) / (1000000 * r.period : Nat)).toNat + 1

/-- A window of a record that is due for its launch: L lies no further ahead than REL_LEAD (R190). DEDUCED. -/
def Side.winDue (d : Side) (r : WinRec) : Bool := decide (r.est r.k + d.winGuard r r.k ≤ ((d.now + d.relLead : Nat) : Int))

/-- A due window is used: the node's oldest parked frame is launched at L if it fits, and the window is over for the
record (R190, R192). -/
def Side.useWindow (c : Commons) (d : Side) (n : Nat) (r : WinRec) : Side :=
  let d1 := d.updRec n fun x => { x with k := r.k + 1 }
  match d1.oldest r.mesh with
  | none => d1
  | some p =>
    let pl := (d.prefPlace r.mesh).getD (p.f.group, p.f.ch, p.f.mode)
    let f := p.f.on pl.1 pl.2.1 pl.2.2
    let l := r.est r.k + d.winGuard r r.k
    let fin := r.est r.k - d.winGuard r r.k + (1000 * r.len : Nat)
    let need := lbtSpare c d f.group f.ch + 1000 * (d.frameAir f + (if f.ar then d.ackWaitUs f.mode f.phyOpt else 0))
    if fin < l + (need : Nat) then d1.count Pg.PEND Reg.PEND_WIN_SKIPPED
    else (d1.timed c f l.toNat { fin := fin.toNat, tries := 0, record := some n }).2

/-- Every record with a due window, in the order of their indices (R190). -/
def Side.scheduled (c : Commons) (d : Side) : Side :=
  (d.pend.recs.filter fun e => d.winDue e.2).foldl (fun a e => a.useWindow c e.1 e.2) d

/-- EPS after an anchor (R191); a step that is not whole rounds as a free value. -/
def movedEps (n : Nat) (eps ofs : Int) (fc : Nat) : Int :=
  let den : Int := (fc * 2 ^ n : Nat)
  let num : Int := eps * (fc * (2 ^ n - 1) : Nat) + 10000000000 * ofs
  let q := num / den
  if num % den ≠ 0 ∧ Config.roundUp n (unsignedOf 32 eps) (unsignedOf 32 ofs) then q + 1 else q

/-- A verified frame answered by an Enh-Ack with the time IE re-anchors its node's records (R191). DEDUCED: HOPS = 0. -/
def Side.anchor (c : Commons) (d : Side) (f : UpFrame) : Side :=
  if f.rx.airClass = 0 ∧ f.rx.ackSent ∧ f.rx.ackEnh ∧ f.rx.ackTime ∧ f.dml.hops = 0 ∧ !c.time.unsync then
    let n := rf d.regs Pg.PEND Reg.PEND_DRIFT_AVG 2 0
    let fc := centreHz f.rx.port (c.port f.rx.port).lo (d.chan f.rx.port.num f.rx.channel).centre
    (d.pend.recs.filter fun e => decide (e.2.mesh = f.dml.orig)).foldl (fun a e =>
      let a1 := if e.2.noack then a.count Pg.PEND Reg.PEND_NODE_DRIFT else a
      a1.updRec e.1 fun x =>
        { x with anchor := f.rx.sfdLt, noack := false
                 eps := if f.rx.foUndisc then x.eps else movedEps n x.eps f.rx.freqOfs fc }) d
  else d

/-! ## Window commands (R195) -/

/-- A staging register of the PEND page. -/
def Side.pendReg (d : Side) (off : Nat) : Nat := (rd d.regs Pg.PEND off).toNat

/-- The record selected. -/
def Side.winIdx (d : Side) : Nat := rf d.regs Pg.PEND Reg.PEND_WIN_IDX 13 0

/-- WIN_CMD.READ: the record's fields loaded; DESIGN CHOICE: zero where the record is free. -/
def Side.cmdWinRead (d : Side) : Side :=
  let r := (d.pend.recs.find d.winIdx).getD { mesh := 0, nom := 0, period := 0, len := 0, anchor := 0, eps := 0, k := 0,
                                              noack := false }
  let put (a : Side) (off v : Nat) : Side := a.updR fun t => wr t Pg.PEND off (w32 v)
  let d1 := put (put d Reg.PEND_WIN_MESH r.mesh) Reg.PEND_WIN_NOM_LO r.nom
  let d2 := put (put d1 Reg.PEND_WIN_NOM_HI (r.nom / 2 ^ 32)) Reg.PEND_WIN_PERIOD r.period
  let d3 := put (put d2 Reg.PEND_WIN_LEN r.len) Reg.PEND_WIN_ANCHOR_LO r.anchor
  (put (put d3 Reg.PEND_WIN_ANCHOR_HI (r.anchor / 2 ^ 32)) Reg.PEND_WIN_EPS (unsignedOf 32 r.eps)).updPend
    fun p => { p with winResult := 0 }

/-- WIN_CMD.WRITE: committed whole or refused whole (R195). -/
def Side.cmdWinWrite (d : Side) : Side :=
  let r0 : WinRec :=
    { mesh := d.pendReg Reg.PEND_WIN_MESH, nom := rd64 d.regs Pg.PEND Reg.PEND_WIN_NOM_LO
      period := d.pendReg Reg.PEND_WIN_PERIOD, len := rf d.regs Pg.PEND Reg.PEND_WIN_LEN 19 0
      anchor := rd64 d.regs Pg.PEND Reg.PEND_WIN_ANCHOR_LO, eps := signed 32 (d.pendReg Reg.PEND_WIN_EPS), k := 0
      noack := false }
  let res (n : Nat) : Side := d.updPend fun p => { p with winResult := n }
  if r0.period < 1000 ∨ r0.len = 0 then res 1
  else if (d.nodeAt r0.mesh).isNone then res 2
  else if (d.pend.recs.find d.winIdx).isNone ∧ 16384 ≤ d.pend.recs.length then res 3
  else d.updPend fun p =>
    { p with recs := p.recs.put d.winIdx { r0 with k := firstWindow r0 d.now }, winResult := 0 }

/-- WIN_CMD.DELETE. -/
def Side.cmdWinDelete (d : Side) : Side := d.updPend fun p => { p with recs := p.recs.del d.winIdx, winResult := 0 }

/-- What a rebase moves in the PEND unit (R61). -/
def Side.pendRebase (d : Side) (step : Nat) : Side :=
  d.updPend fun p =>
    { p with pool := p.pool.map fun e => { e with since := e.since + step }
             unann := p.unann.map fun e => (e.1, e.2 + step) }

/-- A command of the tables of R242 waits in a strand and can be taken: it takes effect at its own place in sequence
order, before the inputs that follow it (R231). -/
def Side.cmdWaits (d : Side) : Bool :=
  d.strand.rings.any fun e => d.takeable e.1 && (d.nextItem e.1).any fun h =>
    decide (h.ty = tyCommand) && ((decide (1 ≤ h.code) && decide (h.code ≤ 5)) || (decide (8 ≤ h.code) && decide (h.code ≤ 11)))

/-- An input looks the CAM up when it is consumed. -/
def Input.looksUp : Input → Bool
  | .rxFrame _ | .ethFrame _ => true
  | _ => false

/-- TRIAL_TO has passed since DONE, at the last time input, without FW_CONFIRM (R364). -/
def Side.trialOver (d : Side) : Bool :=
  let limit := rf d.regs Pg.MRAM Reg.MRAM_TRIAL_TO 15 0
  match d.fw.doneAt with
  | none => false
  | some t => decide (limit ≠ 0) && d.fw.trial && !d.fw.expired && decide (t + 1000000000 * limit ≤ d.tick)

/-- Something is due at the last time input, before the inputs that follow it: a carrier's release decision (R328), a timed wait
(R402, R406), the result of a background verification (R357), the end of a trial (R364). -/
def Side.owes (v : Variant) (d : Side) : Bool :=
  (d.nextDecision v).isSome || d.disp.waiters.any d.waitDue || d.fw.verifyAt.any (fun t => decide (t ≤ d.tick)) || d.trialOver

/-- The next input of a side, when it consumes inputs now: none while a table command waits at its place (R231) or something is due
at the time input before it (R328, R357, R364, R402), no
lookup while the moves of a CAM command before it run (R249), no time input before every frame write is ready (R232). -/
def nextInput (s : State) (x : SideId) : Option Seqd :=
  let d := s.side x
  if !sideRun s x || d.cmdWaits || d.owes s.variant then none
  else d.inq.head?.filter fun i => !(i.inp.looksUp && d.node.camOld.isSome) &&
    !(i.inp.isTime && d.node.writes.any fun w => d.keyPending w.f.seq)

/-- An input taken from a side's queue: its LT is the side's now, and it moves the sequence point on (R17, R422). An
update past its checks shows SHADOW_BOOT from the next input on (R361). -/
def Side.consume (d : Side) (i : Seqd) : Side :=
  { d with inq := d.inq.drop 1, now := i.lt, point := i.seq + 1, seen := i.seen
           fw := { d.fw with phase := if d.fw.phase = 1 then 2 else d.fw.phase } }

end Sys2Proof.Machine
end

