-- ==== Sys2Proof/Machine/Threads.lean ====
section
/-! DEFINITION. The dispatcher operations of a core, DNEXT, timeouts and time slices (R396 to R410). -/

namespace Sys2Proof.Machine

open Sys2Proof

/-! ## Results (table "Results" of R401) -/

/-- OK. -/
def resOk : Nat := 0
/-- TIMEOUT. -/
def resTimeout : Nat := 1
/-- CANCELLED. -/
def resCancelled : Nat := 2
/-- BUSY. -/
def resBusy : Nat := 3
/-- BAD_ARG. -/
def resBadArg : Nat := 4
/-- NO_THREAD. -/
def resNoThread : Nat := 5
/-- STATE. -/
def resState : Nat := 6

/-- The side exists and its SIDE domain is on, and its firmware runs: core 0 has been started at ENTRY, the side is starting, being
refilled or in service, and not in a self-check (R396, R397, R427, R557 step 5). -/
def coresRun (s : State) (x : SideId) : Bool :=
  (s.variant.full || decide (x = .a)) && s.c.pd.sideUp x && decide (s.c.sys.boot x = 1) &&
  (match s.c.bezel.st x with
   | .boot | .refill | .compared | .alone => true
   | _ => false)

/-- The result of an operation in DRES of the core and of its current thread (R401). -/
def Side.setRes (d : Side) (n res : Nat) : Side :=
  d.updDisp fun k =>
    let k1 := k.setCore n fun c => { c with dres := res }
    match (k.core n).cur with
    | some t => k1.setThread t fun th => { th with res := res, missed := false }
    | none => k1

/-- An operation fails: it changes nothing else and counts (R401). -/
def Side.opFail (d : Side) (n res : Nat) : Side := (d.setRes n res).count Pg.DISP Reg.DISP_OP_FAIL

/-- A thread becomes CANCELLED (R408). -/
def Side.toCancelled (d : Side) (t : Nat) : Side :=
  d.updDisp fun k =>
    let k1 := { k with ready := k.ready.filter (· ≠ t), waiters := k.waiters.filter (· ≠ t) }
    k1.setThread t fun th => { th with st := .cancelled, marked := false }

/-- A thread's slot becomes FREE. -/
def DispState.free (k : DispState) (t : Nat) : DispState :=
  { k with threads := k.threads.del t, ready := k.ready.filter (· ≠ t), waiters := k.waiters.filter (· ≠ t) }

/-- A marked current thread of a core becomes CANCELLED (R408). -/
def Side.dropMarked (d : Side) (n : Nat) : Bool × Side :=
  match (d.disp.core n).cur with
  | some t => match d.disp.threads.find t with
    | some th => if th.marked then (true, (d.stopCore n).toCancelled t) else (false, d)
    | none => (false, d)
  | none => (false, d)

/-- Every timed wait that is due ends with TIMEOUT, longest wait first (R402, R406, R407). -/
def Side.timeouts (d : Side) (lt : Nat) : Side :=
  (d.disp.waiters.filter d.waitDue).foldl
    (fun d t => (d.wakeWith lt t resTimeout).count Pg.DISP Reg.DISP_TIMEOUTS) d

/-- DARG0 and DARG1 of a core. -/
def State.coreArgs (s : State) (x : SideId) (n : Nat) : Nat × Nat :=
  (((s.side x).disp.core n).darg0, ((s.side x).disp.core n).darg1)

/-- A dispatcher operation of a core: nothing on a core in reset; timeouts due at the last time input come before it (R402); the
operation of a thread marked by CANCEL fails with STATE (R397, R408). Its arguments stay in DARG0 and DARG1. -/
def coreOp (s : State) (x : SideId) (n : Nat) (args : Nat × Nat) (f : Side → Side) : State :=
  if coresRun s x && decide (n < 8) && (s.side x).coreOn n then
    s.upd x fun d0 =>
      let d := (d0.timeouts s.c.lt).updDisp fun k => k.setCore n fun c => { c with darg0 := args.1, darg1 := args.2 }
      let m := d.dropMarked n
      if m.1 then m.2.opFail n resState else f d
  else s

/-! ## Operations -/

/-- The free slots in rising order. -/
def DispState.freeSlots (k : DispState) : List Nat := (List.range 1024).filter fun t => (k.threads.find t).isNone

/-- CREATE: a FREE slot becomes SUSPENDED; which one is a free value (R401). -/
def Side.opCreate (d : Side) (n a0 : Nat) : Side :=
  let fs := d.disp.freeSlots
  if fs.isEmpty then d.opFail n resNoThread
  else
    let t := fs.getD (Config.pickThread d.disp.picks % fs.length) 0
    let th : Thread := { st := .suspended, prio := a0 % 64, aff := (a0 / 256) % 256, obj := 0, deadline := none, latePol := false,
                         missed := false, res := 0, readyAt := 0, readyLt := 0, marked := false }
    (d.updDisp fun k => { k with threads := k.threads.put t th, picks := k.picks + 1 }).setRes n (65536 * t)

/-- RESUME: SUSPENDED to READY at the tail of its priority. -/
def Side.opResume (d : Side) (lt n a0 : Nat) : Side :=
  if 1024 ≤ a0 then d.opFail n resBadArg
  else match d.disp.threads.find a0 with
    | some th => if th.st = .suspended then (d.makeReady lt a0).setRes n resOk else d.opFail n resState
    | none => d.opFail n resState

/-- Taking an object without waiting (R400): the state after it when it succeeds. -/
def DispState.take (k : DispState) (o : Nat) (ob : Obj) : Option DispState :=
  if ob.count = 0 then none else some (k.setCount o ob (if ob.counting then ob.count - 1 else 0))

/-- WAIT: succeeds at once, fails, times out at once under its late policy, or blocks (R400, R406). A timeout of 2^39 or more
lies in the past (R41). -/
def Side.opWait (d : Side) (n a0 a1 : Nat) : Side :=
  let o := a0 % 4096
  match d.disp.obj o with
  | none => d.opFail n resBadArg
  | some ob =>
    match (d.disp.core n).cur with
    | none => d.opFail n resState
    | some t => match d.disp.take o ob with
      | some k => ({ d with disp := k }).setRes n resOk
      | none =>
        let target := (d.st + a1) % 2 ^ 40
        let due : Bool := decide (a1 ≠ 0) && stDue target d.st
        if due && !nbit a0 12 then (d.setRes n (resTimeout + 256)).count Pg.DISP Reg.DISP_TIMEOUTS
        else
          let d1 := d.stopCore n
          d1.updDisp fun k =>
            let k1 := { k with waiters := k.waiters ++ [t] }
            k1.setThread t fun th =>
              { th with st := .waiting, obj := o, deadline := if a1 = 0 ∨ due then none else some target
                        latePol := nbit a0 12, missed := due }

/-- TRYWAIT: succeeds at once or returns BUSY. -/
def Side.opTrywait (d : Side) (n a0 : Nat) : Side :=
  let o := a0 % 4096
  match d.disp.obj o with
  | none => d.opFail n resBadArg
  | some ob => match d.disp.take o ob with
    | some k => ({ d with disp := k }).setRes n resOk
    | none => d.opFail n resBusy

/-- SIGNAL (R400). -/
def Side.opSignal (d : Side) (lt n a0 : Nat) : Side :=
  match d.disp.obj (a0 % 4096) with
  | none => d.opFail n resBadArg
  | some _ => ((d.signal lt (a0 % 4096) (nbit a0 12)).2).setRes n resOk

/-- CANCEL acts by the target's state (R408, R409). -/
def Side.opCancel (d : Side) (lt n a0 : Nat) : Side :=
  if 1024 ≤ a0 then d.opFail n resBadArg
  else match d.disp.threads.find a0 with
    | none => d.opFail n resState
    | some th =>
      let d0 := (d.count Pg.DISP Reg.DISP_CANCELS).setRes n resOk
      match th.st with
      | .waiting => d0.wakeWith lt a0 resCancelled
      | .suspended => d0.toCancelled a0
      | .ready =>
        let d1 := d0.toCancelled a0
        if th.readyLt = lt then d1.count Pg.DISP Reg.DISP_CANCEL_RACE else d1
      | .running =>
        let d1 := d0.updDisp fun k => k.setThread a0 fun th => { th with marked := true }
        match (List.range 8).find? fun i => decide ((d1.disp.core i).cur = some a0) with
        | some i => d1.interrupt i
        | none => d1
      | .cancelled => d.opFail n resState

/-- DELETE: CANCELLED or SUSPENDED to FREE. -/
def Side.opDelete (d : Side) (n a0 : Nat) : Side :=
  if 1024 ≤ a0 then d.opFail n resBadArg
  else match d.disp.threads.find a0 with
    | some th =>
      if th.st = .cancelled ∨ th.st = .suspended then (d.updDisp fun k => k.free a0).setRes n resOk
      else d.opFail n resState
    | none => d.opFail n resState

/-- YIELD: the current thread to the tail of its priority. -/
def Side.opYield (d : Side) (lt n : Nat) : Side :=
  match (d.disp.core n).cur with
  | some t => ((d.setRes n resOk).makeReady lt t).stopCore n
  | none => d.opFail n resState

/-- EXIT: the current thread to FREE. -/
def Side.opExit (d : Side) (n : Nat) : Side :=
  match (d.disp.core n).cur with
  | some t => ((d.stopCore n).updDisp fun k => k.free t).setRes n resOk
  | none => d.opFail n resState

/-- SETPRIO: a new priority; a READY or WAITING thread moves to the tail of it. -/
def Side.opSetprio (d : Side) (n a0 a1 : Nat) : Side :=
  if 1024 ≤ a0 then d.opFail n resBadArg
  else match d.disp.threads.find a0 with
    | none => d.opFail n resState
    | some th =>
      let tail (l : List Nat) : List Nat := if l.contains a0 then l.filter (· ≠ a0) ++ [a0] else l
      if th.st = .cancelled then d.opFail n resState
      else
        (d.updDisp fun k =>
          let k1 := k.setThread a0 fun th => { th with prio := a1 % 64 }
          { k1 with ready := tail k1.ready, waiters := tail k1.waiters }).setRes n resOk

/-- OBJ_INIT resets an object; refused with STATE while it has waiters. -/
def Side.opObjInit (d : Side) (n a0 a1 : Nat) : Side :=
  if a0 < 96 ∨ 4096 ≤ a0 then d.opFail n resBadArg
  else match d.disp.firstWaiter a0 with
    | some _ => d.opFail n resState
    | none =>
      let counting := nbit a1 16
      let c := a1 % 65536
      (d.updDisp fun k => { k with objs := k.objs.put a0 ⟨counting, if counting then c else min 1 c⟩ }).setRes n resOk

/-- The core's running thread returned to the head of its ready list (R397, R403). -/
def Side.putBack (d : Side) (lt n : Nat) : Side :=
  match (d.disp.core n).cur with
  | none => d
  | some t =>
    let d1 := d.stopCore n
    d1.updDisp fun k =>
      let k1 := { k with ready := t :: k.ready }
      let k2 := k1.setThread t fun th => { th with st := .ready, readyAt := d1.st, readyLt := lt }
      let p := k2.prio t
      let x := k2.stat p
      { k2 with stats := k2.stats.put p { x with peak := max x.peak (k2.depth p) } }

/-- A read of DNEXT: the best READY thread whose affinity includes the core becomes RUNNING on it, with what R410
observes of the dispatch. -/
def Side.dispatch (d : Side) (lt n : Nat) : Side :=
  let d0 := (d.putBack lt n).updDisp fun k => k.setCore n fun c => { c with irq := false }
  let el := d0.disp.ready.filter fun t => match d0.disp.threads.find t with
    | some th => nbit th.aff n
    | none => false
  match bestBy d0.disp.prio el with
  | none => d0.updDisp fun k => k.setCore n fun c => { c with dnext := 0xFFFFFFFF#32 }
  | some t => d0.updDisp fun k =>
    match k.threads.find t with
    | none => k
    | some th =>
      let w := stSince th.readyAt d0.st
      let x := k.stat th.prio
      let k1 := { k with ready := k.ready.filter (· ≠ t),
                         stats := k.stats.put th.prio ⟨x.dispatches + 1, x.cum + w, max x.max w, x.peak⟩ }
      let k2 := k1.setThread t fun th => { th with st := .running }
      k2.setCore n fun c => { c with cur := some t, since := d0.st, sliced := false
                                     dres := th.res + (if th.missed then 512 else 0)
                                     dnext := w32 (t % 1024 + 65536 * (th.prio % 64)) }

/-- CORE_EN written: a core whose bit is cleared returns its thread to the head of its ready list and halts
(R397). -/
def Side.coreEnWritten (d : Side) (lt : Nat) : Side :=
  (List.range 8).foldl (fun d n => if d.coreOn n then d else
    (d.putBack lt n).updDisp fun k => k.setCore n fun c => { c with irq := false }) d

/-! ## Time -/

/-- A timed wait that an accepted step passes over: its timeout ends it with LATE, or is dropped with MISSED (R66, R70, R406). -/
def Side.passWait (d : Side) (lt t : Nat) : Side :=
  match d.disp.threads.find t with
  | none => d
  | some th =>
    if th.latePol then d.updDisp fun k => k.setThread t fun th => { th with deadline := none, missed := true }
    else (d.wakeWith lt t (resTimeout + 256)).count Pg.DISP Reg.DISP_TIMEOUTS

/-- The timed waits whose targets lie between the LT before an accepted step and the LT after it, longest wait first (R70). -/
def Side.passWaits (d : Side) (lt old new : Nat) : Side :=
  let crossed (t : Nat) : Bool := match d.disp.threads.find t with
    | some th => (match th.deadline with
      | some e => stPassed old new e
      | none => false)
    | none => false
  (d.disp.waiters.filter crossed).foldl (fun d t => d.passWait lt t) d

/-- A thread that has run for TSLICE while an eligible READY thread of equal priority waits: its core receives the
dispatch interrupt (R405). -/
def Side.sliceEnd (d : Side) (n : Nat) : Side :=
  let slice := rf d.regs Pg.DISP Reg.DISP_TSLICE 15 0
  let k := d.disp.core n
  match k.cur with
  | none => d
  | some t =>
    let waits := d.disp.ready.any fun r => decide (d.disp.prio r = d.disp.prio t) && (match d.disp.threads.find r with
      | some th => nbit th.aff n
      | none => false)
    if slice ≠ 0 ∧ slice ≤ stSince k.since d.st ∧ waits ∧ k.sliced = false then
      (d.interrupt n).updDisp fun q => q.setCore n fun c => { c with sliced := true }
    else d

/-! ## Meanings -/

end Sys2Proof.Machine
end

