-- ==== Sys2Proof/Machine/Time.lean ====
section
/-! DEFINITION. Lath and Plumb: network time, its sources, steps and slews, the timer slots and the timed pulse
outputs (chapter 2). -/

namespace Sys2Proof.Machine

open Sys2Proof

/-- LATH.FLAGS bits. -/
def flagRefused : Nat := 0
/-- STEP_ACCEPTED. -/
def flagAccepted : Nat := 1
/-- STEP_RANGE. -/
def flagRange : Nat := 2
/-- ACQ. -/
def flagAcq : Nat := 3
/-- SRC_SWITCH. -/
def flagSwitch : Nat := 4
/-- CMD_REFUSED. -/
def flagCmd : Nat := 5

/-- A LATH.FLAGS bit set. -/
def Commons.flag (c : Commons) (n : Nat) : Commons :=
  c.hwSet Pg.LATH Reg.LATH_FLAGS (bitMask n)

/-! ## Sources -/

/-- The source codes in priority order: each at its highest place, codes 6 and 7 treated as 0 (R76). -/
def priorities (c : Commons) : List Nat :=
  ([(2, 0), (5, 3), (8, 6), (11, 9), (14, 12)].map fun b => rf c.regs Pg.PLUMB Reg.PLUMB_SRC_PRIO b.1 b.2).foldl
    (fun l k => if 1 ≤ k ∧ k ≤ 5 ∧ !l.contains k then l ++ [k] else l) []

/-- What Plumb keeps for a source. -/
def TimeState.src (t : TimeState) (code : Nat) : SrcState := (t.srcs.find code).getD ⟨none, none, 0⟩

/-- A source is valid; code 2 never on the KL9620 (R43). -/
def srcValid (v : Variant) (t : TimeState) (code : Nat) : Bool :=
  (t.src code).validSince.isSome && (v.full || decide (code ≠ 2))

/-- The highest-priority valid source, 0 for none. -/
def bestSource (s : State) : Nat :=
  ((priorities s.c).find? fun k => srcValid s.variant s.c.time k).getD 0

/-- The place of a source in the priority order, past its end when it is not listed. -/
def prioOf (c : Commons) (code : Nat) : Nat := ((priorities c).findIdx? fun k => decide (k = code)).getD 9

/-- Plumb measures a source: it is listed in SRC_PRIO or selected (R43). DEDUCED: a selected source that a write takes off the
list stays selected until it is lost. -/
def measured (c : Commons) (code : Nat) : Bool := (priorities c).contains code || decide (c.time.source = code)

/-- How long a source may stay silent, in ns, when silence loses it: PTP_TIMEOUT in 250 ms units, HOST_TIMEOUT in s, the windows
of two successive edges of PPS_IN (table "Time sources"). -/
def silence (c : Commons) (code : Nat) : Option Nat :=
  if code = 1 ∨ code = 2 then some (250000000 * (rf c.regs Pg.PLUMB Reg.PLUMB_LOSS_CFG 7 0))
  else if code = 3 then some (2000000001 + (rd c.regs Pg.PLUMB Reg.PLUMB_PPS_WINDOW).toNat)
  else if code = 5 then some (1000000000 * (rf c.regs Pg.PLUMB Reg.PLUMB_LOSS_CFG 31 24))
  else none

/-- A source has been silent for its timeout by now (R604). -/
def silentTooLong (c : Commons) (code : Nat) : Bool :=
  match silence c code, (c.time.src code).lastMeas with
  | some n, some t => decide (t + n ≤ c.lt)
  | _, _ => false

/-- A loss condition of a source holds under the settings now: it has been silent for its timeout, or REF10_IN lies outside
REF10_TOL (R43, R604). -/
def lossDue (c : Commons) (code : Nat) : Bool :=
  if code = 4 then (c.time.src 4).validSince.isSome &&
    decide ((rd c.regs Pg.PLUMB Reg.PLUMB_REF10_TOL).toNat < c.time.ref10Dev)
  else silentTooLong c code

/-- REVERT_HOLDOFF in ns. -/
def holdoffNs (c : Commons) : Nat := 1000000000 * (rf c.regs Pg.PLUMB Reg.PLUMB_LOSS_CFG 23 16)

/-- The higher-priority source whose holdoff has passed, best first (R44). DESIGN CHOICE: after REVERT_HOLDOFF was 0 a new
non-zero value counts from the moment the source became valid, as R604 counts every new value. -/
def revertible (s : State) : Option Nat :=
  if holdoffNs s.c = 0 ∨ s.c.time.source = 0 then none
  else (priorities s.c).find? fun k =>
    decide (prioOf s.c k < prioOf s.c s.c.time.source) && srcValid s.variant s.c.time k &&
    (match (s.c.time.src k).validSince with
     | some t => decide (t + holdoffNs s.c ≤ s.c.lt)
     | none => false)

/-! ## Timer slots and pulse outputs -/

/-- Offset of a timer slot register. -/
def tmrOff (base n : Nat) : Nat := base + 16 * n

/-- A timer slot's target ST. -/
def tmrTarget (t : Tab Word) (n : Nat) : Nat := rd64 t Pg.LATH (tmrOff Reg.LATH_TMR_TGT_LO n) % 2 ^ 40

/-- A timer slot is armed. -/
def tmrArmed (t : Tab Word) (n : Nat) : Bool := rb t Pg.LATH (tmrOff Reg.LATH_TMR_CTRL n) 0

/-- An armed slot expires: it clears ARM, its source becomes pending, and it produces its timer-expiry input; a late
one follows its policy (R66, R71). -/
def slotExpire (s : State) (n : Nat) (late : Bool) : State :=
  let off := tmrOff Reg.LATH_TMR_CTRL n
  let v := rd s.c.regs Pg.LATH off
  let discard := late && bitOf v 1
  let s1 := s.updC fun c =>
    let c1 : Commons := { c with regs := wr c.regs Pg.LATH off (setBit v 0 false)
                                 evt := { c.evt with slotPend := insNat n c.evt.slotPend } }
    if late then c1.hwSet Pg.LATH off (bitMask (if discard then 3 else 2)) else c1
  if discard then s1 else s1.offer .lath (.timerExpiry n late)

/-- A slot falls due (R40, R71). -/
def slotDue (s : State) (n : Nat) : State :=
  if n < 32 ∧ tmrArmed s.c.regs n ∧ stDue (tmrTarget s.c.regs n) (stOf s.c.lt) then slotExpire s n false else s

/-- An armed slot whose target lies in the past is late (R41, R65). -/
def slotLate (s : State) (n : Nat) : State :=
  if tmrArmed s.c.regs n ∧ stDiff (tmrTarget s.c.regs n) (stOf s.c.lt) < 0 then slotExpire s n true else s

/-- Arming, or any write to TMRn_CTRL: ARM and LATE_POL are stored, LATE and MISSED are cleared by 1, and re-arming
or a W1C acknowledges the last expiry (R71, R478); a target already past is late (R41, R65). `w` is the effective word. -/
def writeTmrCtrl (s : State) (n : Nat) (w : Word) : State :=
  let off := tmrOff Reg.LATH_TMR_CTRL n
  let old := rd s.c.regs Pg.LATH off
  let v1 := setBit (setBit old 0 (bitOf w 0)) 1 (bitOf w 1)
  let v2 := if bitOf w 2 then setBit v1 2 false else v1
  let v3 := if bitOf w 3 then setBit v2 3 false else v2
  let ack := bitOf w 0 || bitOf w 2 || bitOf w 3
  let s1 := s.updC fun c => { c with regs := wr c.regs Pg.LATH off v3,
                                     evt := { c.evt with slotPend := if ack then delNat n c.evt.slotPend
                                                                     else c.evt.slotPend } }
  if bitOf w 0 then slotLate s1 n else s1

/-- Offset of a pulse output register. -/
def tpoOff (base n : Nat) : Nat := base + 32 * n

/-- The state of a pulse output. -/
def Commons.tpoAt (c : Commons) (n : Nat) : TpoState := c.tpo.getD n TpoState.idle

/-- A pulse output's state changed. -/
def Commons.setTpo (c : Commons) (n : Nat) (x : TpoState) : Commons := { c with tpo := setAt c.tpo n x }

/-- PERIOD of an output. -/
def tpoPeriod (c : Commons) (n : Nat) : Nat := (rd c.regs Pg.TPO (tpoOff Reg.TPO_PERIOD n)).toNat

/-- START of an output. -/
def tpoStart (c : Commons) (n : Nat) : Nat := rd64 c.regs Pg.TPO (tpoOff Reg.TPO_START_LO n) % 2 ^ 40

/-- PERIOD is non-zero and WIDTH is not below it (R73). -/
def tpoClips (c : Commons) (n : Nat) : Bool :=
  decide (tpoPeriod c n ≠ 0 ∧ tpoPeriod c n ≤ rf c.regs Pg.TPO (tpoOff Reg.TPO_WIDTH n) 23 0)

/-- WIDTH as used: with PERIOD non-zero and WIDTH ≥ PERIOD it is PERIOD − 1 (R73). -/
def tpoWidth (c : Commons) (n : Nat) : Nat :=
  if tpoClips c n then tpoPeriod c n - 1 else rf c.regs Pg.TPO (tpoOff Reg.TPO_WIDTH n) 23 0

/-- A STATn flag set. -/
def tpoFlag (c : Commons) (n bit : Nat) : Commons := c.hwSet Pg.TPO (tpoOff Reg.TPO_STAT n) (bitMask bit)

/-- MISSED_CNT advanced, saturating at 0xFFFF, with MISSED (R74). -/
def tpoMiss (c : Commons) (n k : Nat) : Commons :=
  if k = 0 then c
  else
    let off := tpoOff Reg.TPO_STAT n
    let c1 := tpoFlag c n 2
    { c1 with regs := wr c1.regs Pg.TPO off (let v := rd c1.regs Pg.TPO off
                                             setFld v 31 16 (min 0xFFFF (fld v 31 16 + k))) }

/-- The first START + k × PERIOD after an ST that is not late, and how many periods lie before it (R74). -/
def tpoNext (start period now : Nat) : Nat × Nat :=
  let k := ceilDiv (stSince start now) period
  ((start + k * period) % 2 ^ 40, k)

/-- ENABLE clears and nothing is scheduled any more (R72). -/
def tpoOver (c : Commons) (n : Nat) (active : Bool) : Commons :=
  let off := tpoOff Reg.TPO_CTRL n
  ({ c with regs := wr c.regs Pg.TPO off (setBit (rd c.regs Pg.TPO off) 0 false) }).setTpo n { TpoState.idle with active := active }

/-- A pulse scheduled. -/
def TpoState.rise (x : TpoState) (st : Nat) (late : Bool) : TpoState :=
  { x with next := some st, rising := true, grid := st, late := late, clear := false, after := none }

/-- A pulse is in progress: its end is the next edge. -/
def TpoState.inPulse (x : TpoState) : Bool := x.next.isSome && !x.rising

/-- A target lies in the past (R41, R65). -/
def stPast (c : Commons) (st : Nat) : Bool := decide (stDiff st (stOf c.lt) < 0)

/-- The output is armed at START; during a pulse that is still in progress it is armed behind that pulse (R65, R72, R77). -/
def tpoArm (c : Commons) (n : Nat) : Commons :=
  let x := c.tpoAt n
  let st := tpoStart c n
  c.setTpo n (if x.inPulse then { x with clear := false, after := some (st, stPast c st) } else x.rise st (stPast c st))

/-- A write to CTRLn: ENABLE arms the output at START (R72, R73); clearing it returns the output to its inactive
level after any pulse in progress (R77). -/
def writeTpoCtrl (c : Commons) (n : Nat) (v : Word) : Commons :=
  let off := tpoOff Reg.TPO_CTRL n
  let was := rb c.regs Pg.TPO off 0
  let c1 := { c with regs := wr c.regs Pg.TPO off (w32 (fld v 2 0)) }
  let x := c.tpoAt n
  if bitOf v 0 && !was then
    let c2 := tpoArm c1 n
    if tpoClips c n then tpoFlag c2 n 3 else c2
  else if !bitOf v 0 && was then
    c1.setTpo n (if x.inPulse then { x with clear := true, after := none } else TpoState.idle)
  else c1

/-- The pulse that ended at an ST: a single one, or one after which ENABLE was cleared, is over; an output armed meanwhile is
armed now; a repeating one goes on at its next START + k × PERIOD that is not late, and what the pulse covered is passed over
(R72, R74, R77). `active` is the level that the ball keeps. -/
def tpoEndPulse (c : Commons) (n : Nat) (x : TpoState) (e : Nat) (active : Bool) : Commons :=
  match x.after with
  | some (st, late) => c.setTpo n { x.rise st (late || decide (stDiff st e < 0)) with active := active }
  | none =>
    let p := tpoPeriod c n
    if x.clear ∨ p = 0 then tpoOver c n active
    else
      let k := max 1 (ceilDiv (stSince x.grid e) p)
      (tpoMiss c n (k - 1)).setTpo n { x.rise ((x.grid + k * p) % 2 ^ 40) false with active := active }

/-- A pulse that is not driven: the next START + k × PERIOD follows, or none (R74, R75). -/
def tpoSkip (c : Commons) (n : Nat) (x : TpoState) (k : Nat) : Commons :=
  let p := tpoPeriod c n
  if p = 0 then tpoOver (tpoMiss c n 1) n x.active
  else (tpoMiss c n k).setTpo n (x.rise ((x.grid + k * p) % 2 ^ 40) false)

/-- An edge of a pulse output falls due (R72 to R75). A hold of Bezel keeps the level, and the edge counts as missed. DEDUCED:
with a rising edge the whole pulse is missed; after a missed falling edge the level stays until the next edge that is driven. -/
def tpoEdge (c : Commons) (n : Nat) : Commons :=
  let x := c.tpoAt n
  let now := stOf c.lt
  match x.next with
  | none => c
  | some e =>
    if !stDue e now || !decide (n < 4) then c
    else if x.rising then
      if c.bezel.held then tpoSkip c n x 1
      else if x.late then
        let k := if tpoPeriod c n = 0 then 1 else (tpoNext x.grid (tpoPeriod c n) now).2
        if rb c.regs Pg.TPO (tpoOff Reg.TPO_CTRL n) 2 then tpoSkip c n x k
        else
          let passed := k - 1
          (tpoMiss (tpoFlag c n 1) n passed).setTpo n
            { x with active := true, late := false, rising := false, began := now
                     grid := (x.grid + passed * tpoPeriod c n) % 2 ^ 40, next := some ((now + tpoWidth c n) % 2 ^ 40) }
      else c.setTpo n { x with active := true, rising := false, began := e, next := some ((e + tpoWidth c n) % 2 ^ 40) }
    else if c.bezel.held then tpoEndPulse (tpoMiss c n 1) n x e x.active
    else tpoEndPulse c n x e false

/-- An edge of an output falls due in this very cycle (R68). -/
def tpoDueNow (c : Commons) (n : Nat) : Bool :=
  decide ((c.tpoAt n).next = some (stOf c.lt)) && decide (c.lt % 256 = 0)

/-- START, PERIOD or WIDTH written in the cycle in which an edge of an enabled output falls due: the edge takes its new target
(R68, R77). -/
def tpoRetarget (c : Commons) (n off : Nat) : Commons :=
  let x := c.tpoAt n
  let st := tpoStart c n
  if off = tpoOff Reg.TPO_WIDTH n then
    if x.rising then c else c.setTpo n { x with next := some ((x.began + tpoWidth c n) % 2 ^ 40) }
  else if off = tpoOff Reg.TPO_PERIOD n then
    if x.rising ∧ tpoPeriod c n ≠ 0 then c.setTpo n (x.rise (tpoNext st (tpoPeriod c n) (stOf c.lt)).1 false)
    else if x.rising then tpoArm c n
    else c
  else tpoArm c n

/-! ## Steps of LT -/

/-- A launch moved by a step, where targets are rebased (R61). -/
def Launch.moved (l : Launch) (step : Nat) : Launch := { l with lt := l.lt + step }

/-- The launches of a carrier rebased (R61). -/
def Carrier.rebase (k : Carrier) (step : Nat) : Carrier :=
  { arrivals := k.arrivals.map fun l => l.moved step
    queue := k.queue.map fun e => (e.1.moved step, e.2)
    held := k.held.map fun e => { e with launch := e.launch.moved step }
    bursts := k.bursts.map fun b =>
      if b.phase = .ended then { b with endLt := b.endLt + step }
      else { b with start := b.start + step, launch := b.launch.moved step, cut := b.cut.map (· + step) } }

/-- The times of a port that a step moves whatever REBASE holds: what is in progress keeps its remaining delay. -/
def RfPort.shift (q : RfPort) (step : Nat) : RfPort :=
  { q with retuneEnd := q.retuneEnd.map (· + step), calEnd := q.calEnd.map (· + step),
           gapEnd := q.gapEnd.map (· + step), dwellNext := q.dwellNext + step
           lanes := q.lanes.map fun l => { l with bindLt := l.bindLt + step }
           groups := q.groups.map fun g => { g with openLt := g.openLt + step }
           rearm := q.rearm.map fun e => (e.1, e.2 + step) }

/-- An ST target moved by a step. DESIGN CHOICE: a step that is no multiple of 256 ns moves it to the ST unit in which the moved
beginning of its own unit lies. -/
def stMoved (step st : Nat) : Nat := stOf (st * 256 + step)

/-- The armed actions of the commons rebased by a step (R61). ST targets move by `stMoved`. -/
def rebaseCommons (c : Commons) (step : Nat) : Commons :=
  let move (q : RfPort) : RfPort := { q with carriers := q.carriers.map fun k => k.rebase step }
  let slots := (List.range 32).filter fun n => tmrArmed c.regs n
  let moveSlot (t : Tab Word) (n : Nat) : Tab Word :=
    wr64 t Pg.LATH (tmrOff Reg.LATH_TMR_TGT_LO n) (stMoved step (tmrTarget t n))
  let outs := (List.range 4).filter fun n => rb c.regs Pg.TPO (tpoOff Reg.TPO_CTRL n) 0
  let moveStart (t : Tab Word) (n : Nat) : Tab Word :=
    wr64 t Pg.TPO (tpoOff Reg.TPO_START_LO n) (stMoved step (rd64 t Pg.TPO (tpoOff Reg.TPO_START_LO n) % 2 ^ 40))
  let k := c.clasp
  { c with
    regs := outs.foldl moveStart (slots.foldl moveSlot c.regs)
    tpo := c.tpo.map fun x =>
      { x with next := x.next.map (stMoved step), grid := stMoved step x.grid, began := stMoved step x.began
               after := x.after.map fun a => (stMoved step a.1, a.2) }
    rfS := move c.rfS, rfM := move c.rfM, rfH := move c.rfH
    ibe := { c.ibe with stopLt := c.ibe.stopLt.map (· + step) }
    clasp := { k with r0 := { k.r0 with expiry := k.r0.expiry + step }, r1 := { k.r1 with expiry := k.r1.expiry + step },
                      r2 := { k.r2 with expiry := k.r2.expiry + step } } }

/-- A burst that is no launch still to start keeps its remaining delay through a step: DEDUCED, what is on the air or prepared is no
longer an armed action. -/
def Burst.stepped (b : Burst) (step : Nat) : Burst :=
  if b.phase = .ended then { b with endLt := b.endLt + step }
  else if b.isAck || b.phase.started then { b with start := b.start + step, cut := b.cut.map (· + step) }
  else b

/-- Launches of a port that a step passed over: planned ones go back to step 2, where they are late (R70). -/
def RfPort.passOver (q : RfPort) (old new : Nat) : RfPort :=
  let gone (b : Burst) : Bool := !b.isAck && !b.phase.started && decide (old < b.start) && decide (b.start ≤ new)
  { q with carriers := q.carriers.map fun k =>
      { k with queue := (k.bursts.filter gone).map (fun b => (b.launch, b.chan)) ++ k.queue,
               bursts := (k.bursts.filter fun b => !gone b).map fun b => b.stepped (new - old) } }

/-- The armed actions of the commons that an accepted step passes over are late, and their late policy handles them once: slots
expire or are discarded, launches go back to step 2, a pulse is late when its edge comes (R70). -/
def passOver (s : State) (old new : Nat) : State :=
  let s1 := s.updC fun c => ((c.updPort .s fun q => q.passOver old new).updPort .m
    fun q => q.passOver old new).updPort .h fun q => q.passOver old new
  let s2 := s1.updC fun c => { c with tpo := c.tpo.map fun x =>
    { x with late := x.late || (x.rising && (match x.next with
                                             | some e => stPassed old new e
                                             | none => false)) } }
  (List.range 32).foldl (fun s n =>
    if tmrArmed s.c.regs n ∧ stPassed old new (tmrTarget s.c.regs n) then slotExpire s n true else s) s2

/-- What Plumb counts from a moment in the past keeps the time it has counted; the offsets of the sources shrink by the step
(R43 to R45, R57, R604). -/
def TimeState.stepped (t : TimeState) (step : Nat) : TimeState :=
  { t with srcs := t.srcs.map fun e =>
             (e.1, { validSince := e.2.validSince.map (· + step), lastMeas := e.2.lastMeas.map (· + step), off := e.2.off - step })
           holdover := t.holdover.map (· + step), slewFrom := t.slewFrom + step }

/-- Delays that run in Bezel, Clasp, PD, CEVT and Loupe keep what remains of them. DEDUCED: they are no scheduled actions. -/
def Commons.delaysStepped (c : Commons) (step : Nat) : Commons :=
  let held (l : List (Nat × Txn)) : List (Nat × Txn) := l.map fun e => (e.1 + step, e.2)
  let lead (l : List (Nat × Nat)) : List (Nat × Nat) := l.map fun e => (e.1, e.2 + step)
  let mods (t : Tab (Nat × Bool)) : Tab (Nat × Bool) := t.map fun e => (e.1, (e.2.1 + step, e.2.2))
  let runs (r : PdRun) : PdRun := { r with since := r.since + step }
  { c with
    bezel := { c.bezel with
      heldA := held c.bezel.heldA, heldB := held c.bezel.heldB, leadA := lead c.bezel.leadA, leadB := lead c.bezel.leadB
      hold := c.bezel.hold.map fun m => { m with start := m.start + step }
      gapFrom := c.bezel.gapFrom.map (· + step)
      refill := c.bezel.refill.map fun r => { r with retryAt := r.retryAt.map (· + step) } }
    clasp := { c.clasp with grantDue := c.clasp.grantDue.map (· + step), drillEnd := c.clasp.drillEnd.map (· + step) }
    pd := { c.pd with run := c.pd.run.map runs, susp := c.pd.susp.map runs }
    evt := { c.evt with modA := mods c.evt.modA, modB := mods c.evt.modB }
    tamp := { c.tamp with nonce := c.tamp.nonce.map fun e => (e.1, e.2 + step), lockEnd := c.tamp.lockEnd.map (· + step) } }

/-- LT moves forward by one step. Bucket boundaries, dwell windows, retunes and gaps in progress keep their remaining
delay (R117); scheduled gaps and drills are next due after the new LT (R114, R436). With `rebase` every armed action
keeps its delay (R61); otherwise an action with 0 < d ≤ step is late and follows its policy once (R70). The step
reaches both sides as one time input (R62); an acquisition of no size gives none, since successive time inputs carry
strictly increasing LT (R42). -/
def stepForward (s : State) (step : Nat) (acq rebase : Bool) : State :=
  let old := s.c.lt
  let new := old + step
  let c1 := (if rebase then rebaseCommons s.c step else s.c).delaysStepped step
  let c2 : Commons := { c1 with
    lt := new
    time := c1.time.stepped step
    duty := { c1.duty with next := c1.duty.next + step }
    rfS := c1.rfS.shift step, rfM := c1.rfM.shift step, rfH := c1.rfH.shift step
    clasp := { c1.clasp with drillNext := if c1.clasp.drillNext.isSome then nextDrill c1 new else none } }
  let regap (c : Commons) (p : RPort) : Commons :=
    c.updPort p fun q => { q with gapNext := if q.gapNext.isSome then nextGap c p new else none }
  let s1 := { s with c := regap (regap (regap c2 .s) .m) .h }
  let s2 := if rebase then s1 else passOver s1 old new
  if step = 0 then s2 else s2.offer .lath (.time step acq rebase)

/-! ## Measurements -/

/-- The threshold of R51 and R52, ns. -/
def jumpThresh (c : Commons) : Nat := rf c.regs Pg.PLUMB Reg.PLUMB_JUMP_THRESH 29 0

/-- SLEW_MAX, ppm. -/
def slewMax (c : Commons) : Nat := rf c.regs Pg.PLUMB Reg.PLUMB_SLEW_MAX 8 0

/-- Holdover begins: a slew in progress stops (R54). -/
def TimeState.enterHoldover (t : TimeState) (lt : Nat) : TimeState :=
  { t with holdover := match t.holdover with
             | some since => some since
             | none => some lt
           expired := t.holdover.isSome && t.expired, slewing := false, slewRem := 0 }

/-- A slew of an offset begins (R51, R55). -/
def TimeState.slew (t : TimeState) (off : Int) (lt : Nat) : TimeState :=
  { t with slewRem := off, slewing := decide (100 < off.natAbs), slewFrom := lt }

/-- A measurement within the threshold ends holdover, clears the pending offset and is slewed (R51, R54). -/
def slewTo (t : TimeState) (off : Int) (lt : Nat) : TimeState :=
  { t with holdover := none, noSource := false, expired := false, pend := none }.slew off lt

/-- An offset beyond the threshold is refused: holdover, and the offset pends (R52, R54). -/
def refuseStep (c : Commons) (off : Int) : Commons :=
  ({ c with time := { c.time.enterHoldover c.lt with pend := some off, noSource := false } }).flag flagRefused

/-- A value within a bound on either side of zero. -/
def clampInt (n : Nat) (x : Int) : Int := max (-(n : Int)) (min (n : Int) x)

/-- The free values that the servo gives after a measurement of a source: frequency from every source but the host, and while
locked the correction stays within SLEW_MAX (R50, table "Time sources"). -/
def servo (c : Commons) (code : Nat) : Commons :=
  let t := c.time
  let locked := Config.servoLocked t.freeIdx
  let free := Config.freqAdj t.freeIdx
  let adj := if code = 5 then t.freqAdj else if locked then clampInt (1000 * slewMax c) free else free
  { c with time := { t with freqAdj := adj, locked := locked, freeIdx := t.freeIdx + 1 } }

/-- A time measurement of the selected source: acquisition, a slew, or a refused step, which disciplines nothing (R51, R52, R54,
R60). COARSE clears at it once XTAL runs (R63). -/
def discipline (s : State) (code : Nat) (off : Int) : State :=
  let s1 := s.updC fun c => { c with time := { c.time with offset := off, coarse := c.time.coarse && c.time.xtalStopped } }
  if s1.c.time.unsync then
    if 0 ≤ off then
      let reb := rb s1.c.regs Pg.LATH Reg.LATH_ACQ_CFG 0
      let s2 := s1.updC fun c => servo (({ c with time := { c.time with unsync := false } }).flag flagAcq) code
      stepForward s2 off.toNat true reb
    else s1.updC fun c => c.flag flagRefused
  else if off.natAbs ≤ jumpThresh s1.c then s1.updC fun c => servo { c with time := slewTo c.time off c.lt } code
  else s1.updC fun c => refuseStep c off

/-! ## Selection -/

/-- LATH.STAT.SOURCE changes: SRC_SWITCH is set; no source means holdover, a returning source ends such a holdover
unless an offset is pending (R43, R55); REF10_IN corrects no phase, so a slew in progress stops (R48). -/
def switchTo (c : Commons) (code : Nat) : Commons :=
  let t := { c.time with source := code }
  let t1 :=
    if code = 0 then { t.enterHoldover c.lt with noSource := true }
    else if t.noSource then
      { t with noSource := false, holdover := if t.pend.isSome then t.holdover else none }
    else t
  let t2 := if code = 4 then { t1 with slewing := false, slewRem := 0 } else t1
  ({ c with time := t2 }).flag flagSwitch

/-- A source is selected, and the change is a measurement of it: the offset it last showed is slewed or refused (R43, R45); a
frequency source gives no offset (R48, R60). -/
def selectSource (s : State) (code : Nat) : State :=
  if code = s.c.time.source then s
  else
    let s1 := s.updC fun c => switchTo c code
    if code = 0 then s1
    else if code = 4 then s1.updC fun c => servo c 4
    else discipline s1 code (s1.c.time.src code).off

/-- While no source is selected the best valid one is taken as soon as there is one (R43). -/
def selectIfNone (s : State) : State := if s.c.time.source = 0 then selectSource s (bestSource s) else s

/-- A valid measurement or edge of a source, with the offset it shows (R43, R44). -/
def noteValid (c : Commons) (code : Nat) (off : Int) : Commons :=
  let k := c.time.src code
  let since := match k.validSince with
    | some t => t
    | none => c.lt
  let k1 : SrcState := { validSince := some since, lastMeas := some c.lt, off := off }
  { c with time := { c.time with srcs := c.time.srcs.put code k1 } }

/-- A source is lost: it is not valid any more; if it was selected the best valid one is taken, or none (R43). The second count
of PPS_IN is lost with it. -/
def loseSource (s : State) (code : Nat) : State :=
  let s1 := s.updC fun c =>
    { c with time := { c.time with srcs := c.time.srcs.put code { validSince := none, lastMeas := none, off := 0 },
                                   ppsCount := if code = 3 then none else c.time.ppsCount } }
  if s.c.time.source = code ∧ code ≠ 0 then selectSource s1 (bestSource s1) else s1

/-- A higher-priority source that has stayed valid for the holdoff is selected (R44). -/
def revert (s : State) : State :=
  match revertible s with
  | some k => selectSource s k
  | none => s

/-- Every loss condition and holdoff judged against the settings now (R604). -/
def judgeSources (s : State) : State :=
  revert (selectIfNone ([1, 2, 3, 4, 5].foldl (fun s k => if lossDue s.c k then loseSource s k else s) s))

/-- Plumb runs: PORST_N has been released (R58). -/
def plumbRuns (c : Commons) : Bool := !c.sys.porstLow

/-- A measurement of a source that Plumb measures: it makes the source valid, is taken for the selection, and disciplines LT if
the source is the selected one (R43 to R45). -/
def measure (s : State) (code : Nat) (off : Int) : State :=
  if !plumbRuns s.c || !measured s.c code then s
  else
    let s1 := s.updC fun c => noteValid c code off
    if s1.c.time.source = 0 then selectIfNone s1
    else if s1.c.time.source = code then discipline s1 code off
    else s1

/-- The difference of two LTs as a signed number of ns. -/
def ltDiff (a b : Nat) : Int := (a : Int) - (b : Int)

/-- The TAI second in TOD. -/
def todOf (c : Commons) : Nat := (rd c.regs Pg.PLUMB Reg.PLUMB_TOD_LO).toNat + rf c.regs Pg.PLUMB Reg.PLUMB_TOD_HI 2 0 * 2 ^ 32

/-- Which expected edge of PPS_IN an edge now is: the next one, or the one after a missing edge, within ±PPS_WINDOW of its
expected LT; none when it is neither (table "Time sources"). -/
def ppsPlace (c : Commons) (last : Nat) : Option Nat :=
  let w := (rd c.regs Pg.PLUMB Reg.PLUMB_PPS_WINDOW).toNat
  [1, 2].find? fun k => decide ((ltDiff (last + 1000000000 * k) c.lt).natAbs ≤ w)

/-- A rising edge on PPS_IN: an edge outside ±PPS_WINDOW of its expected LT is a loss (R43); the first second count is taken from
TOD, a later one is the previous edge's and the seconds since (R47). DEDUCED: an edge that stayed away counts as a second. A
count that disagrees with LT is a step of whole seconds. -/
def ppsEdgeCore (s : State) : State :=
  if !plumbRuns s.c || !measured s.c 3 then s
  else
    let edge (sec : Nat) : State :=
      measure (s.updC fun c => { c with time := { c.time with ppsCount := some sec } }) 3 (ltDiff (1000000000 * sec) s.c.lt)
    match (s.c.time.src 3).lastMeas with
    | none => edge (todOf s.c)
    | some last => match ppsPlace s.c last with
      | none => loseSource s 3
      | some k => edge (match s.c.time.ppsCount with
        | some n => n + k
        | none => todOf s.c)

/-- A write to TOD: the next edge takes the second that TOD then holds (R47). DESIGN CHOICE: each of the two words takes effect by
itself, so an edge between the two writes takes the half-written value. -/
def writeTod (c : Commons) : Commons := { c with time := { c.time with ppsCount := none } }

/-- A write to HOST_TIME_HI applies the 64-bit value as the LT now (R49). -/
def writeHostTime (s : State) (v : Word) : State :=
  let s1 := s.updR fun t => wr t Pg.PLUMB Reg.PLUMB_HOST_TIME_HI v
  measure s1 5 (ltDiff (rd64 s1.c.regs Pg.PLUMB Reg.PLUMB_HOST_TIME_LO) s1.c.lt)

/-- A word written to PTP_MEAS: the fourth applies the entry, or discards it when VALID is 0 (R510). -/
def writePtpMeas (s : State) (v : Word) : State :=
  let ws := s.c.time.ptp ++ [v]
  if ws.length < 4 then s.updC fun c => { c with time := { c.time with ptp := ws } }
  else
    let s1 := s.updC fun c => { c with time := { c.time with ptp := [] } }
    let w3 := ws.getD 3 0
    if bitOf w3 1 ∧ (bitOf w3 0 = false ∨ s.variant.full) then
      measure s1 (if bitOf w3 0 then 2 else 1)
        (signed 64 ((ws.getD 0 0).toNat + (ws.getD 1 0).toNat * 2 ^ 32))
    else s1

/-- REF10_IN measured and within tolerance. How far it lies from nominal is a free value within REF10_TOL. -/
def ref10Seen (c : Commons) : Commons :=
  let dev := min (Config.ref10Dev c.time.freeIdx) (rd c.regs Pg.PLUMB Reg.PLUMB_REF10_TOL).toNat
  noteValid { c with sys := { c.sys with ref10 := true }
                     time := { c.time with ref10Dev := dev, freeIdx := c.time.freeIdx + 1 } } 4 0

/-- REF10_IN shows a frequency within tolerance: a valid frequency source, which disciplines frequency while it is selected and
corrects no phase (R43, R48). -/
def ref10Core (s : State) : State :=
  if !plumbRuns s.c || !measured s.c 4 then s
  else
    let s1 := s.updC ref10Seen
    if s1.c.time.source = 0 then selectIfNone s1
    else if s1.c.time.source = 4 then s1.updC fun c => servo c 4
    else s1

/-! ## Commands and moments of Lath and Plumb -/

/-- The holdover of a refused step ends with it; one for want of a source ends only when a source returns (R55). -/
def TimeState.settled (t : TimeState) : TimeState :=
  if t.source = 0 then { t with pend := none }
  else { t with pend := none, holdover := none, noSource := false, expired := false }

/-- ACCEPT_STEP (R55, R56). -/
def acceptStepCore (s : State) : State :=
  match s.c.time.pend with
  | none => s.updC fun c => c.flag flagCmd
  | some off =>
    if off ≤ 0 then s.updC fun c => c.flag flagCmd
    else
      let most := (2 ^ 39 - 1) * 256
      if off.toNat ≤ most then
        let s1 := s.updC fun c => ({ c with time := c.time.settled }).flag flagAccepted
        stepForward s1 off.toNat false false
      else
        let s1 := s.updC fun c => (({ c with time := { c.time with pend := some (off - most) } }).flag flagRange).flag
          flagAccepted
        stepForward s1 most false false

/-- ACCEPT_SLEW (R55). DEDUCED: while no source is selected holdover goes on, and with it no phase correction (R54). -/
def acceptSlewCore (c : Commons) : Commons :=
  match c.time.pend with
  | none => c.flag flagCmd
  | some off => { c with time := if c.time.source = 0 then c.time.settled else c.time.settled.slew off c.lt }

/-- A write to LATH.CMD: both commands together are refused (table "LATH.CMD fields"). -/
def writeLathCmd (s : State) (v : Word) : State :=
  if bitOf v 0 ∧ bitOf v 1 then s.updC fun c => c.flag flagCmd
  else if bitOf v 0 then acceptStepCore s
  else if bitOf v 1 then s.updC acceptSlewCore
  else s

/-- A slew can have removed its offset by now: the rate of LT differs by at most SLEW_MAX, and what remains is at most 100 ns (R50,
R51). -/
def slewCanEnd (c : Commons) : Bool :=
  c.time.slewing && decide ((c.time.slewRem.natAbs - 100) * 1000000 ≤ slewMax c * (c.lt - c.time.slewFrom))

/-- A slew has removed its offset; what the other sources showed shrinks with it (R45, R51). An end that would have taken a rate
beyond SLEW_MAX does not happen (R50). -/
def slewEnd (c : Commons) : Commons :=
  if slewCanEnd c then
    { c with time := { c.time with
      slewing := false, slewRem := 0
      srcs := c.time.srcs.map fun e => (e.1, { e.2 with off := e.2.off - c.time.slewRem }) } }
  else c

/-- The selected source meets a loss condition (R43). A source that cannot be lost now is left alone: its timeout has not passed;
the frequency of REF10_IN is known outside. -/
def sourceLostCore (s : State) (code : Nat) : State :=
  if code = 4 then
    if (s.c.time.src 4).validSince.isSome then
      loseSource (s.updC fun c => { c with sys := { c.sys with ref10 := false } }) 4
    else s
  else if silentTooLong s.c code then loseSource s code
  else s

/-- Holdover has lasted longer than HOLDOVER_LIMIT seconds: HOLDOVER_EXPIRED once (R57). -/
def holdoverExpire (c : Commons) : Commons :=
  let lim := (rd c.regs Pg.PLUMB Reg.PLUMB_HOLDOVER_LIMIT).toNat
  match c.time.holdover with
  | some t => if lim ≠ 0 ∧ t + 1000000000 * lim < c.lt ∧ c.time.expired = false then
      ({ c with time := { c.time with expired := true } }).event Pg.LATH 0
    else c
  | none => c

/-- XTAL stops: AON carries LT on the 32.768 kHz oscillator (R63); the commons stop (R549). -/
def xtalStops (c : Commons) : Commons :=
  if c.time.xtalStopped || c.sys.porstLow then c
  else
    let c1 := { c with time := { c.time with xtalStopped := true, coarse := true, lastFine := c.lt }
                       sys := { c.sys with xtalOk := false, commonsStopped := true } }
    (c1.count Pg.CLK Reg.CLK_XTAL_LOSS).err Pg.CLK 1

/-- XTAL restarts: the fine count resumes at the later of the coarse value and the last fine value plus 1 ns
(R63). -/
def xtalRestarts (c : Commons) (coarse : Nat) : Commons :=
  if c.time.xtalStopped then
    { c with lt := max c.lt (max coarse (c.time.lastFine + 1)), time := { c.time with xtalStopped := false }
             sys := { c.sys with xtalOk := true } }
  else c

/-- The count of the 32.768 kHz oscillator after an LT, in ns: the resolution of LT while XTAL is stopped (R63). -/
def coarseNext (lt : Nat) : Nat := ceilDiv ((lt * 32768 / 1000000000 + 1) * 1000000000) 32768

/-- LT as the AON domain counts it: in steps of 30.518 µs (R63). -/
def coarseLt (lt : Nat) : Nat := ceilDiv (lt * 32768 / 1000000000 * 1000000000) 32768

/-- LT_LO read: LT [31:0], and LT [63:32] latched into LT_HI (R38). -/
def readLtLo (c : Commons) : Commons × Word :=
  ({ c with time := { c.time with ltHi := c.lt / 2 ^ 32 } }, w32 c.lt)

/-- Milliseconds of LT between two values, counted on the LT counter (R156). -/
def msBetween (a b : Nat) : Nat := b / 1000000 - a / 1000000

/-- LT runs to a later value: BUSY_ACC grows by the milliseconds passed (R42, R156). -/
def runTo (c : Commons) (lt : Nat) : Commons :=
  let ms := msBetween c.lt lt
  busyAcc (busyAcc (busyAcc { c with lt := lt } ms .s) ms .m) ms .h

/-- A time input: LT strictly greater than that of the one before it (R17, R42). -/
def timeInputCore (s : State) (lt : Nat) : State :=
  if s.c.lt < lt ∧ plumbRuns s.c then
    let s1 := s.updC fun c => runTo c lt
    -- a back-pressured Lath keeps one time input waiting
    if seqBlocked s1 && s1.c.bezel.waiting.any (fun w => decide (w = (.lath, .time 0 false false))) then s1
    else s1.offer .lath (.time 0 false false)
  else s

end Sys2Proof.Machine
end

