-- ==== Sys2Proof/Machine/Mesh.lean ====
section
/-! DEFINITION. The pipeline of a side: received frames through the DML steps, Skim, verification, relays and delivery
(chapters 6 and 7), downlink packets from hosts and Ethernet (R34), and the time inputs of a side. -/

namespace Sys2Proof.Machine

open Sys2Proof

/-! ## Frame cells and their metadata -/

/-- The receive metadata of a cell, bytes 0 to 31 (R149). -/
def metaBytes (m : RxMeta) : List Byte :=
  leBytes 8 m.sfdLt ++ leBytes 8 m.endLt ++ leBytes 2 m.psduLen ++ [b8 (m.mode % 32 + 32 * m.port.num), b8 m.channel] ++
  leBytes 2 m.lane ++ leBytes 2 (m.rssi % 512 + 512 * b2n m.nearTx + 1024 * b2n m.foUndisc) ++
  leBytes 2 (unsignedOf 16 m.freqOfs) ++ [b8 m.lqi, b8 m.phyOpt, b8 (m.rxStatus % 16 + 16 * m.airClass)] ++
  [b8 (b2n m.ackSent + 2 * b2n m.ackPend + 4 * b2n m.ackEnh + 16 * (m.ackAirtime / 65536 % 16))] ++
  leBytes 2 m.ackAirtime

/-- The side metadata of a cell, bytes 32 to 63 (R394). -/
def sideBytes (seq orig tenant level cls : Nat) : List Byte :=
  leBytes 8 seq ++ leBytes 4 orig ++ leBytes 2 (tenant % 1024) ++ [b8 (level % 8), b8 cls] ++ zeros 16

/-- A received frame's item delivered to a strand with its metadata (R394); its flow is its originator (R451). -/
def Side.deliverItem (d : Side) (lt n flow : Nat) (front : List Byte) (seq orig tenant level cls : Nat) (data : List Byte) :
    Side :=
  d.pushFlow lt n flow (itemDesc tyFrame 0 data.length tenant 0 0 0 0)
    (front ++ sideBytes seq orig tenant level cls ++ data)

/-- A verified frame's data delivered to a strand with its metadata (R394). -/
def Side.deliverUp (d : Side) (lt n : Nat) (f : UpFrame) (cls : Nat) (data : List Byte) : Side :=
  d.deliverItem lt n f.dml.orig (metaBytes f.rx) f.seq f.dml.orig f.dml.tenant f.level cls data

/-! ## Originating frames (R212 to R214, R217, R218, R224, R296) -/

/-- The part's mesh ID. -/
def Side.ownId (d : Side) : Nat := (rd d.regs Pg.DML Reg.DML_OWN_ID).toNat

/-- The next MAC sequence number of a side's frames. -/
def Side.nextMac (d : Side) : Nat × Side :=
  (Config.macSeq d.mesh.frames % 256, d.updMesh fun m => { m with frames := m.frames + 1 })

/-- CHANNEL of a descriptor. -/
def Desc.channel (d : Desc) : Nat := d.get 24 0 8
/-- MODE. -/
def Desc.mode (d : Desc) : Nat := d.get 25 0 5
/-- AR. -/
def Desc.ar (d : Desc) : Bool := decide (d.get 25 5 1 = 1)
/-- PARK. -/
def Desc.park (d : Desc) : Bool := decide (d.get 25 6 1 = 1)
/-- PREF. -/
def Desc.pref (d : Desc) : Bool := decide (d.get 25 7 1 = 1)
/-- PHY_OPT. -/
def Desc.phyOpt (d : Desc) : Nat := d.get 26 0 8
/-- TX_LEVEL. -/
def Desc.txLevel (d : Desc) : Nat := d.get 27 0 6
/-- FE_PROFILE. -/
def Desc.feProfile (d : Desc) : Nat := d.get 28 0 4
/-- TTL. -/
def Desc.ttl (d : Desc) : Nat := d.get 28 4 4
/-- SEL. -/
def Desc.sel (d : Desc) : Nat := d.get 29 0 6

/-- An empty frame of an item, as a descriptor asks for it. -/
def frameOf (h : Desc) (item : Option Nat) (node tenant service group ch mode seq : Nat) : Frame :=
  { id := 0, item := item, node := node, tenant := tenant, service := service, group := group, ch := ch, mode := mode,
    phyOpt := h.phyOpt, txLevel := h.txLevel, profile := h.feProfile, ar := h.ar, macSeq := none, psdu := [],
    session := false, cell := none, seq := seq, relaunches := 0, waited := [], skipped := none,
    deferred := [], fc := 0 }

/-- One DML frame of TYPE 1 built, protected and submitted; a refusal is its outcome. CHAIN sets
the frame-pending bit of a frame that is parked (R185, R212, R296, R299). -/
def Side.sendLink (v : Variant) (c : Commons) (d : Side) (lt : Nat) (h : Desc) (n : Nat) (e : NodeEntry) (f : Frame)
    (fcs : Nat) (body : List Byte) : Side :=
  let ttl := if h.ttl = 0 then rf d.regs Pg.DML Reg.DML_TX_CFG 3 0 else h.ttl
  let dml : Dml := { ver := 1, ty := 1, lowpan := true, fack := false, norel := false, ttl := ttl, hops := 0,
                     tenant := f.tenant, sel := h.sel, orig := d.ownId, seq := d.mesh.txSeq }
  let chain := d.parks f.node h.park && rb d.regs Pg.PEND Reg.PEND_CFG 2
  let m := d.nextMac
  match m.2.protectLink f.seq n e f.tenant m.1 h.ar chain (dmlOctets dml) body fcs with
  | (.error code, d1) => d1.outcome lt f code
  | (.ok psdu, d1) =>
    let d2 := (d1.updMesh fun k => { k with txSeq := (k.txSeq + 1) % 65536 }).count Pg.DML Reg.DML_TX_ORIG
    let i := d2.newId
    i.2.submit v c lt h.park { f with id := i.1, psdu := psdu, macSeq := some m.1 }

/-- A packet for a node from stage 3 of the downlink path: compressed, fragmented where one frame is too long, each frame
protected and submitted (R212, R213, R217, R218, R224, R296). `item` is the item that it completes. DESIGN CHOICE: a frame that
is parked is sized by the node's PREF_MODE; the mode of its window is not known yet where RXW_CHAN = 0. -/
def Side.downlink (v : Variant) (c : Commons) (d : Side) (lt : Nat) (h : Desc) (item : Option Nat) (seq tenant : Nat)
    (entry : Option (Nat × NodeEntry)) (pkt : List Byte) : Side :=
  let done (d : Side) (code : Nat) : Side :=
    d.outcome lt (frameOf h item 0 tenant h.service h.group 0 0 seq) code
  if d.ownId = 0 ∨ d.ownEui = 0 then done (d.count Pg.DML Reg.DML_TX_NOID) 19
  else match entry with
    | none => done (d.count Pg.SEC Reg.SEC_TX_REFUSED) 48
    | some (n, e) =>
      if 1280 < pkt.length then done (d.count Pg.LOWPAN Reg.LOWPAN_TOOBIG) 50
      else if !unitOn d.regs Pg.LOWPAN then done d Config.refusalStatus
      else match compress d.mesh.ctxs d.ownIid (flipUl e.eui) (rb d.regs Pg.LOWPAN Reg.LOWPAN_CFG 1) pkt with
        | none => done d 51
        | some z =>
          let prefd := h.pref || decide (3 ≤ h.group)
          let pl := if prefd then (e.prefPort, e.prefChan, e.prefMode) else (h.group, h.channel, h.mode)
          let parks := d.parks e.mesh h.park
          let sized := if parks then e.prefMode else pl.2.2
          let f := frameOf h item e.mesh tenant h.service pl.1 pl.2.1 pl.2.2 seq
          let fcs := fcsLen sized h.phyOpt
          let limit := min (rf d.regs Pg.LOWPAN Reg.LOWPAN_TX_MAX_PSDU 10 0) (maxPsdu sized)
          let room := limit - linkOverhead (d.txLevelOf tenant) fcs
          let bodies := fragments d.mesh.txTag room z
          let many := decide (1 < bodies.length)
          let d1 := d.count Pg.LOWPAN Reg.LOWPAN_COMP
          if many && parks && decide (d.perNode < bodies.length) then
            done (d1.count Pg.PEND Reg.PEND_NODE_FULL) 36
          else
            let d2 := if many then
                { d1 with regs := bumpBy d1.regs Pg.LOWPAN Reg.LOWPAN_FRAG_TX bodies.length }.updMesh fun k =>
                  { k with txTag := (k.txTag + 1) % 65536 }
              else d1
            let d3 := match item with
              | some i => d2.updTrowel fun w => match w.items.find i with
                | some o => { w with items := w.items.put i { o with left := bodies.length } }
                | none => w
              | none => d2
            bodies.foldl (fun a b => match a.nodeAt e.mesh with
              | some x => a.sendLink v c lt h x.1 x.2 f fcs b
              | none => a.sendLink v c lt h n e f fcs b) d3

/-- A packet routed at stage 2 or 12 (R250, R251). `item` is the item that it completes; `front`, `level` and `cls` go
into the metadata of a strand item. -/
def Side.routePacket (v : Variant) (c : Commons) (d : Side) (lt : Nat) (h : Desc) (item : Option Nat)
    (seq orig tenant level : Nat) (front : List Byte) (pkt : List Byte) : Side :=
  let done (d : Side) (code : Nat) : Side :=
    d.outcome lt (frameOf h item 0 tenant h.service h.group 0 0 seq) code
  if !unitOn d.regs Pg.PCAM then
    if item.isSome then done d Config.refusalStatus else d.disDrop
  else
    let r := d.route seq (beNat (slice pkt 24 16)) tenant
    match r.1 with
    | .drop => done r.2 50
    | .eth second =>
      let i := r.2.newId
      i.2.enqueue v c lt { frameOf h item 0 tenant h.service (if second then 4 else 3) 0 0 seq with
                           id := i.1, psdu := pkt, ar := false }
    | .strand n => done (r.2.deliverItem lt n orig front seq orig tenant level 0 pkt) Config.strandRouteCode
    | .mesh =>
      let m := r.2.meshNode (beNat (slice pkt 24 16)) tenant
      match m.1 with
      | some e => m.2.downlink v c lt h item seq tenant (some e) pkt
      | none =>
        if rb m.2.regs Pg.NODE Reg.NODE_CFG 14 then
          done (m.2.deliverItem lt (rf m.2.regs Pg.NODE Reg.NODE_CFG 13 8) orig front seq orig tenant level 2 pkt)
            Config.strandRouteCode
        else done m.2 50

/-! ## Skim (R201 to R205) -/

/-- An entry is live at the side's now (R203). -/
def Side.skimLive (d : Side) (e : SkimEntry) : Bool := e.pend || decide (0 < stDiff e.expiry (stOf d.now))

/-- The entries of a set, with their places. -/
def Side.skimWays (d : Side) (set : Nat) : List (Nat × SkimEntry) := d.mesh.skim.filter fun e => decide (e.1 / 8 = set)

/-- The live entry of a message (R201). -/
def Side.skimFind (d : Side) (orig seq : Nat) : Option (Nat × SkimEntry) :=
  (d.skimWays (Config.skimSet orig seq % 16384)).find? fun e =>
    decide (e.2.orig = orig) && decide (e.2.seq = seq) && d.skimLive e.2

/-- A discarded copy noted in its entry, and the acknowledgement it had (R177, R201). -/
def Side.skimCopy (d : Side) (p : Nat) (e : SkimEntry) (ackSent : Bool) : Side :=
  let d1 := d.updMesh fun m => { m with skim := m.skim.put p { e with copies := min 255 (e.copies + 1) } }
  if ackSent then d1.count Pg.PEND Reg.PEND_DUP_ACKED else d1

/-- The relay decision of a place is due at the last time input consumed: later copies no longer count (R210). -/
def Side.relayDue (d : Side) (p : Nat) : Bool :=
  d.mesh.relays.any fun r => decide (r.place = p) && (match r.due with
    | some t => decide (t ≤ d.tick)
    | none => false)

/-- A hit at step 7 (R201, R210). -/
def Side.skimHit (d : Side) (p : Nat) (e : SkimEntry) (ackSent : Bool) : Side :=
  let d1 := d.count Pg.SKIM Reg.SKIM_DUP
  if e.pend && !d.relayDue p then (d1.count Pg.SKIM Reg.SKIM_HEARD).skimCopy p { e with heard := min 15 (e.heard + 1) } ackSent
  else d1.skimCopy p e ackSent

/-- The entries of a set with the earliest expiry among those whose PEND is 0. -/
def Side.skimOldest (d : Side) (ways : List (Nat × SkimEntry)) : List (Nat × SkimEntry) :=
  let cs := ways.filter fun e => !e.2.pend
  let left (e : Nat × SkimEntry) : Int := stDiff e.2.expiry (stOf d.now)
  cs.filter fun e => cs.all fun x => decide (left e ≤ left x)

/-- The place that an insertion takes (R205): one without a live entry, else the earliest expiry if eviction is on; the
second component: an eviction. Which of several equal ones is a free value. -/
def Side.skimPlace (d : Side) (orig seq : Nat) : Option (Nat × Bool) :=
  let set := Config.skimSet orig seq % 16384
  let ways := d.skimWays set
  let free := (List.range 8).filter fun w => !(ways.any fun e => decide (e.1 = set * 8 + w) && d.skimLive e.2)
  let old := d.skimOldest ways
  let pick (l : List Nat) : Nat := l.getD (Config.pickWay set (65536 * orig + seq) % l.length) 0
  if !free.isEmpty then some (set * 8 + pick free, false)
  else if rb d.regs Pg.SKIM Reg.SKIM_EVICT_POL 0 ∨ old.isEmpty then none
  else some (pick (old.map fun e => e.1), true)

/-- A verified frame inserted (R203, R205): the place it took. -/
def Side.skimInsert (d : Side) (lt : Nat) (m : RxMeta) (h : Dml) : Option Nat × Side :=
  match d.skimPlace h.orig h.seq with
  | none => (none, d.count Pg.SKIM Reg.SKIM_NOROOM)
  | some (p, evict) =>
    let life := if h.ty = 2 then 1000000000 * (max 1 (rf d.regs Pg.SKIM Reg.SKIM_CFG 9 0))
      else 100000000 * (max 1 (rf d.regs Pg.SKIM Reg.SKIM_CFG 25 16))
    let e : SkimEntry := { orig := h.orig, seq := h.seq, ty := h.ty, pend := false, heard := 0, port := m.port.num,
                           channel := m.channel, copies := 0, expiry := stOf (lt + life) }
    let d1 := if evict then d.count Pg.SKIM Reg.SKIM_EVICT else d
    (some p, (d1.count Pg.SKIM Reg.SKIM_INSERT).updMesh fun k => { k with skim := k.skim.put p e })

/-- The sweep of a second: the live entries counted (SKIM.OCC). -/
def Side.skimSweep (d : Side) : Side :=
  if d.mesh.sweepNext ≤ d.now then
    let occ := (d.mesh.skim.filter fun e => d.skimLive e.2).length
    let d1 := d.updMesh fun m => { m with sweepNext := 1000000000 * (d.now / 1000000000 + 1) }
    { d1 with regs := peak (wr d1.regs Pg.SKIM Reg.SKIM_OCC (w32 occ)) Pg.SKIM Reg.SKIM_OCC_PEAK 17 0 occ }
  else d

/-- The 16 octets of a Skim entry (table "Skim entry layout"). -/
def packSkim (e : SkimEntry) : List Byte :=
  leBytes 4 e.orig ++ leBytes 2 e.seq ++ [b8 (e.ty + 8 * b2n e.pend + 16 * e.heard), b8 e.port, b8 e.channel, b8 e.copies,
    0#8] ++ leBytes 5 e.expiry

/-- SKIM_READ: the live entries of a range (R242, R380). -/
def Side.cmdSkimRead (d : Side) (a : List Byte) : Nat × List Byte × Side :=
  let first := leAt a 0 4
  let n := byteAt a 4
  if 131072 ≤ first ∨ n = 0 ∨ 64 < n then (6, [], d)
  else (0, ((d.mesh.skim.filter fun e => decide (first ≤ e.1) && decide (e.1 < first + n) && d.skimLive e.2).map fun e =>
    packSkim e.2).flatten, d)

/-! ## Relays (R207 to R211) -/

/-- The relay settings of a port. -/
def Side.relayReg (d : Side) (p : RPort) : Word := rd d.regs Pg.DML (Reg.DML_RELAY_S + 4 * p.num)

/-- A flood inserted in Skim is scheduled for relaying, or not (R207). -/
def Side.scheduleRelay (d : Side) (p : Nat) (f : UpFrame) : Side :=
  if f.dml.ty ≠ 2 ∨ !rb d.regs Pg.DML Reg.DML_CFG 0 ∨ f.dml.norel ∨ !bitOf (d.relayReg f.rx.port) 31 then d
  else if f.dml.ttl < 1 ∨ 14 < f.dml.hops then d.count Pg.DML Reg.DML_RELAY_LIMIT
  else
    let d1 := (d.count Pg.DML Reg.DML_RELAY_WAIT).updMesh fun m =>
      { m with
        skim := match m.skim.find p with
          | some e => m.skim.put p { e with pend := true, heard := 0 }
          | none => m.skim
        relays := m.relays ++ [{ place := p, f := f, due := none }] }
    d1.ask .relay

/-- The relay frame of a flood built, protected and enqueued (R210, R211, R212). DESIGN CHOICE: its FE_PROFILE is that of
`Config.routedDesc`, since RELAYx holds none. -/
def Side.sendRelay (v : Variant) (c : Commons) (d : Side) (lt : Nat) (f : UpFrame) : Side :=
  let g := d.relayReg f.rx.port
  let drop (d : Side) : Side := d.count Pg.DML Reg.DML_RELAY_DROP
  if d.ownEui = 0 then drop d
  else
    let m := d.nextMac
    let dml := { f.dml with ttl := f.dml.ttl - 1, hops := f.dml.hops + 1 }
    let opt := fld g 23 16
    match m.2.protectNet f.seq f.dml.tenant m.1 f.payIes (dmlOctets dml) f.plain (fcsLen (fld g 12 8) opt) with
    | (.error _, d1) => drop d1
    | (.ok psdu, d1) =>
      let i := d1.newId
      let fr : Frame := { frameOf 0#256 none 0 f.dml.tenant (rf d.regs Pg.DML Reg.DML_CFG 3 1) f.rx.port.num (fld g 7 0)
                            (fld g 12 8) f.seq with
                          id := i.1, psdu := psdu, macSeq := some m.1, phyOpt := opt, txLevel := fld g 29 24,
                          profile := (Desc.feProfile Config.routedDesc) }
      let before := i.2.trowel.count
      let d2 := i.2.enqueue v c lt fr
      if d2.trowel.count = before then drop d2 else d2.count Pg.DML Reg.DML_RELAY_SENT

/-- The relay decision of a flood (R210). -/
def Side.decideRelay (v : Variant) (c : Commons) (d : Side) (lt : Nat) (r : Relay) : Side :=
  let k := rf d.regs Pg.DML Reg.DML_SUPP_K 3 0
  let d1 := d.updMesh fun m => { m with relays := m.relays.filter fun x => decide (x.place ≠ r.place) }
  match d1.mesh.skim.find r.place with
  | none => d1
  | some e =>
    let d2 := d1.updMesh fun m => { m with skim := m.skim.put r.place { e with pend := false } }
    if k ≠ 0 ∧ k ≤ e.heard then d2.count Pg.DML Reg.DML_SUPPRESSED else d2.sendRelay v c lt r.f

/-- Every relay decision due at the last time input, in the order of the floods (R210). -/
def Side.decideRelays (v : Variant) (c : Commons) (d : Side) (lt : Nat) : Side :=
  (d.mesh.relays.filter fun r => match r.due with
    | some t => decide (t ≤ d.tick)
    | none => false).foldl (fun a r => a.decideRelay v c lt r) d

/-! ## Delivery (R199, R237) -/

/-- A delivered frame is a node report of the session: the side writes REPORT_ADD (R371). -/
def Side.noteReport (d : Side) (f : UpFrame) : Side :=
  if d.sess.active && decide (f.dml.sel = d.sess.reportSel) && decide (f.dml.ty ≠ 4) &&
      decide (f.plain.take 2 = [b8 d.sess.session, 1#8]) then
    d.emit (.regWrite Pg.IBE Reg.IBE_REPORT_ADD 1#32 15)
  else d

/-- A frame past its learning decision: step 10 and 11, or refused (R198, R199, R215, R237). -/
def Side.finishUp (v : Variant) (c : Commons) (d : Side) (lt : Nat) (f : UpFrame) (state : Nat) : Side :=
  if state = 1 then d
  else if state = 2 then d.deliverUp lt (rf d.regs Pg.NODE Reg.NODE_CFG 13 8) f 2 f.psdu
  else
    let map := rd d.regs Pg.DML (Reg.DML_SEL_MAP + 4 * f.dml.sel)
    let strand := if f.dml.ty = 4 then rf d.regs Pg.DML Reg.DML_CFG 13 8 else fld map 5 0
    if !f.dml.lowpan then (d.deliverUp lt strand f 0 f.plain).noteReport f
    else if !unitOn d.regs Pg.LOWPAN then d.disDrop
    else
      let eui := match d.nodeAt f.dml.orig with
        | some e => e.2.eui
        | none => f.eui
      match d.lowpanIn f.dml.orig eui f.lt f.plain with
      | (.none_, d1) => d1
      | (.host, d1) => d1.deliverUp lt (rf d1.regs Pg.LOWPAN Reg.LOWPAN_CFG 13 8) f 0 f.plain
      | (.packet p, d1) =>
        if bitOf map 8 && decide (f.dml.ty ≠ 4) then
          d1.routePacket v c lt Config.routedDesc none f.seq f.dml.orig f.dml.tenant f.level (metaBytes f.rx) p
        else d1.deliverUp lt strand f 0 p

/-- Held frames whose turn has come, in their order; one that still waits, for its learning decision or for its key, keeps later
ones of its originator (R237, R272). -/
def Side.releaseHeld (v : Variant) (c : Commons) (lt : Nat) : List HeldUp → List Nat → List HeldUp → Side → Side
  | [], _, kept, d => d.updNode fun k => { k with held := kept.reverse }
  | h :: t, blocked, kept, d =>
    if blocked.contains h.f.dml.orig then Side.releaseHeld v c lt t blocked (h :: kept) d
    else match if d.keyPending h.f.seq then none else h.verdict with
      | none => Side.releaseHeld v c lt t (h.f.dml.orig :: blocked) (h :: kept) d
      | some st => Side.releaseHeld v c lt t blocked kept (d.finishUp v c lt h.f st)

/-! ## A received frame (R198, R201, R202, R235, R289) -/

/-- Steps 1 to 6 of the table "DML receive steps": the counter of the step that fails. -/
def Side.dmlRefusal (d : Side) (m : Dml) : Option Nat :=
  if m.ver ≠ 1 then some Reg.DML_VERSION
  else if m.ty = 1 then some Reg.DML_DIR
  else if 5 ≤ m.ty then some Reg.DML_TYPE
  else if !rb d.regs Pg.DML (Reg.DML_TEN_EN + 4 * (m.tenant / 32)) (m.tenant % 32) then some Reg.DML_TENANT
  else if m.orig = 0 ∨ m.orig = 2 ^ 32 - 1 then some Reg.DML_ORIG_BAD
  else if m.orig = d.ownId then some Reg.DML_OWN_ECHO
  else if rb d.regs Pg.DML Reg.DML_HOP_CHK 4 ∧ rf d.regs Pg.DML Reg.DML_HOP_CHK 3 0 < m.ttl + m.hops then some Reg.DML_HOPS
  else none

/-- The frame as its later stages know it. DESIGN CHOICE: an originator without entry has no EUI-64 for R217; a frame heard directly
from it gives its extended MAC source, any other the EUI-64 0. The MAC addresses of a relayed frame play no part. -/
def upFrameOf (i : Seqd) (f : RxFrame) (p : Parsed) (w : Verified) (e : Option (Nat × NodeEntry)) : UpFrame :=
  { seq := i.seq, lt := i.lt, rx := f.rx, psdu := f.psdu, dml := p.dml, level := w.level, fc := w.fc, epoch := w.epoch,
    link := p.dml.link, known := e.isSome
    eui := match e with
      | some x => x.2.eui
      | none => if p.h.srcMode = 3 ∧ p.dml.hops = 0 then p.h.src else 0
    srcExt := decide (p.h.srcMode = 3), payIes := slice p.bs p.h.len (p.at_ - p.h.len), plain := w.plain }

/-- Step 9 onward of a verified frame: Skim, the frame write, the relay, the hold and the delivery. -/
def Side.accepted (v : Variant) (c : Commons) (d : Side) (lt : Nat) (f : UpFrame) (entry : Option Nat) : Side :=
  let ins := d.skimInsert f.lt f.rx f.dml
  let d1 := if f.level = 0 then ins.2
    else ins.2.updNode fun k => { k with writes := k.writes ++ [{ f := f, entry := entry, gone := false }] }
  let d2 := match ins.1 with
    | some p => d1.scheduleRelay p f
    | none => d1
  let d3 := d2.anchor c f
  let waits : Bool := entry.isNone && decide (f.level ≠ 0)
  if waits || d3.keyPending f.seq || d3.node.held.any fun h => decide (h.f.dml.orig = f.dml.orig) then
    d3.updNode fun k => { k with held := k.held ++ [{ f := f, verdict := if waits then none else some 0 }] }
  else d3.finishUp v c lt f 0

/-- Steps 7 to 11 of a frame that passed step 6. -/
def Side.verifyFrame (v : Variant) (c : Commons) (d : Side) (lt : Nat) (i : Seqd) (f : RxFrame) (p : Parsed) : Side :=
  if !unitOn d.regs Pg.SKIM then d.disDrop
  else
    let d1 := d.count Pg.SKIM Reg.SKIM_LOOKUP
    match d1.skimFind p.dml.orig p.dml.seq with
    | some (q, e) => d1.skimHit q e f.rx.ackSent
    | none =>
      if !unitOn d1.regs Pg.NODE || !unitOn d1.regs Pg.FILIG || !unitOn d1.regs Pg.SEC then d1.disDrop
      else
        let e := d1.nodeAt p.dml.orig
        let d2 := (d1.count Pg.NODE Reg.NODE_LOOKUP).count Pg.NODE (if e.isSome then Reg.NODE_HIT else Reg.NODE_MISS)
        match d2.verify i.seq p e with
        | (.error off, d3) =>
          if off = Reg.SEC_REPLAY ∧ f.rx.ackSent then d3.count Pg.PEND Reg.PEND_DUP_ACKED else d3
        | (.ok w, d3) => match d3.skimFind p.dml.orig p.dml.seq with
          | some (q, x) => (d3.count Pg.SKIM Reg.SKIM_LATE_DUP).skimCopy q x f.rx.ackSent
          | none => d3.accepted v c lt (upFrameOf i f p w e) (e.map fun x => x.1)

/-- A received frame consumed by a side: a sent acknowledgement charges the copies (R119, R163, R177, R182, R187, R198). -/
def Side.rxFrame (v : Variant) (c : Commons) (d : Side) (lt : Nat) (i : Seqd) (f : RxFrame) : Side :=
  let h := parseMhr (beforeFcs f.psdu (fcsLen f.rx.mode f.rx.phyOpt))
  if f.rx.rxStatus ≠ 0 then d
  else match f.rx.airClass with
    | 2 => match h with
      | some x => d.ackFrame c lt f.rx (if x.seqSup then none else some x.seq)
      | none => d.count Pg.PEND Reg.PEND_ACK_UNMATCHED
    | 1 => d.deliverItem lt Config.hostClassStrand 0 (metaBytes f.rx) i.seq 0 0 0 1 f.psdu
    | _ =>
      let d0 := d.chargeAck c f.rx
      let d1 := match h with
        | some x => d0.ackWindow c f.rx x.srcMode x.src
        | none => d0
      if !unitOn d1.regs Pg.DML then d1.disDrop
      else match parseFrame f with
        | none => d1.count Pg.DML Reg.DML_SHORT
        | some p => match d1.dmlRefusal p.dml with
          | some off => d1.count Pg.DML off
          | none => (d1.count Pg.DML Reg.DML_RX_OK).verifyFrame v c lt i f p

/-! ## Packets from hosts and Ethernet (R34, R378, R392, R506) -/

/-- An item that a side takes becomes an item in hand: its number. -/
def Side.openItem (d : Side) (n : Nat) (t : Taken) : Nat × Side :=
  let h := t.head
  let i := d.newId
  let o : Origin := { strand := n, tag := h.tag, tenant := h.tenant, service := h.service, group := h.group,
                      node := h.key % 2 ^ 32, cells := t.cells, left := 1, code := 0 }
  (i.1, i.2.updTrowel fun w => { w with items := w.items.put i.1 o })

/-- A FRAME item taken from a HOST_IN strand enters the downlink path. -/
def Side.hostFrame (v : Variant) (c : Commons) (d : Side) (lt n : Nat) (t : Taken) : Side :=
  let h := t.head
  let o := d.openItem n t
  let d1 := o.2
  let item := some o.1
  let seq := t.seq
  let done (code : Nat) : Side := d1.outcome lt (frameOf h item 0 h.tenant h.service h.group 0 0 seq) code
  if h.key = 0 then
    if t.data.length < 40 ∨ byteAt t.data 0 / 16 ≠ 6 then done 51
    else d1.routePacket v c lt h item seq 0 h.tenant 0 (zeros 32) t.data
  else if 3 ≤ h.group ∧ !h.pref ∧ !h.park then done 19
  else d1.downlink v c lt h item seq h.tenant (d1.nodeAt (h.key % 2 ^ 32)) t.data

/-- The command codes of the tables of commands. -/
def knownCode (code : Nat) : Bool :=
  (decide (1 ≤ code) && decide (code ≤ 5)) || (decide (8 ≤ code) && decide (code ≤ 11)) ||
  (decide (16 ≤ code) && decide (code ≤ 22)) || (decide (32 ≤ code) && decide (code ≤ 35)) || (decide (40 ≤ code) && decide (code ≤ 45))

/-- The next item of a strand is a FRAME whose lookup comes after the CAM command whose moves run: it waits (R249). -/
def Side.behindMoves (d : Side) (n : Nat) : Bool := d.node.camOld.isSome && decide (d.node.camSeq ≤ itemSeq (d.nextSlots n))

/-- The next item of a HOST_IN strand taken, when it is no command that a row of its own takes: a FRAME, an item that
breaks R379, or a command of an unknown code, which is answered with BAD_ARG. -/
def Side.hostItem (v : Variant) (c : Commons) (d : Side) (lt n : Nat) : Side :=
  match d.nextItem n with
  | none => d
  | some h =>
    if h.ty = tyCommand ∧ knownCode h.code then d
    else if !d.mesh.seqLoaded || d.behindMoves n then d
    else match d.takeItem n with
      | (none, d1) => d1
      | (some t, d1) =>
        if !t.ok then d1.badItem lt n t
        else if h.ty = tyCommand then (d1.freeCellsOf t.cells).result lt n h (badArgOf h.code) []
        else d1.hostFrame v c lt n t

/-- A command item of a code taken and answered: refused with a free status while its unit is disabled, which counts as a
command that failed (R242, R392, R458). -/
def Side.runCommand (d : Side) (lt n code unit : Nat) (page ok fail : Nat)
    (f : Side → List Byte → Nat × List Byte × Side) : Side :=
  match d.nextItem n with
  | none => d
  | some h =>
    if h.ty ≠ tyCommand ∨ h.code ≠ code then d
    else match d.takeItem n with
      | (none, d1) => d1
      | (some t, d1) =>
        let d2 := d1.freeCellsOf t.cells
        if !t.ok then d1.badItem lt n t
        else
          let r := if unitOn d2.regs unit then f d2 t.data else (Config.refusalStatus, [], d2)
          (r.2.2.countCmd page ok fail (if unitOn d2.regs unit then r.1 else 1)).result lt n h r.1 r.2.1

/-- The octets of an Ethernet frame after its header and tag: the packet it carries. -/
def ethPayload (bs : List Byte) : List Byte :=
  if beNat (slice bs 12 2) = 0x8100 then bs.drop 18 else bs.drop 14

/-- An IPv6 packet cut to the length its header gives: padding of a short Ethernet frame and its FCS removed. -/
def ip6Trim (p : List Byte) : List Byte := p.take (40 + beNat (slice p 4 2))

/-- A received Ethernet frame consumed by a side: IPv6 packets are routed, PTP and other frames go to their strands
(table "Ethernet receive steps"). Its metadata carry the receive timestamp in place of SFD_LT. -/
def Side.ethFrame (v : Variant) (c : Commons) (d : Side) (lt : Nat) (i : Seqd) (f : EthFrame) : Side :=
  let cls := rd c.regs (ethPage f.second) Reg.ETH_CLASS
  let front := leBytes 8 f.ts ++ zeros 24
  match f.cls with
  | 1 =>
    let p := ip6Trim (ethPayload f.bytes)
    if p.length < 40 ∨ byteAt p 0 / 16 ≠ 6 then d
    else d.routePacket v c lt Config.routedDesc none i.seq 0 f.tenant 0 front p
  | 0 => d.deliverItem lt (fld cls 21 16) 0 front i.seq 0 f.tenant 0 0 f.bytes
  | _ => d.deliverItem lt (fld cls 13 8) 0 front i.seq 0 f.tenant 0 0 f.bytes

/-! ## Time inputs of a side (R61, R62, R70, R231, R232) -/

/-- The armed actions of a side moved by a rebase (R61). -/
def Side.rebase (d : Side) (step : Nat) : Side :=
  let st (x : Nat) : Nat := (x + step / 256) % 2 ^ 40
  let d1 := ((d.trowelRebase step).pendRebase step).updDisp fun k =>
    { k with threads := k.threads.map fun e => (e.1, { e.2 with deadline := e.2.deadline.map st }) }
  let d2 := d1.updMesh fun m =>
    { m with sweepNext := m.sweepNext + step
             relays := m.relays.map fun r => { r with due := r.due.map (· + step) }
             reasm := m.reasm.map fun r => { r with opened := r.opened + step } }
  let d3 := d2.updNode fun k =>
    { k with passAt := k.passAt.map (· + step), locks := k.locks.map fun l => { l with since := l.since + step } }
  let d5 := d3.updPend fun p =>
    { p with recs := p.recs.map fun e => (e.1, { e.2 with nom := e.2.nom + step, anchor := e.2.anchor + step }) }
  { d5 with fw := { d5.fw with verifyAt := d5.fw.verifyAt.map (· + step), doneAt := d5.fw.doneAt.map (· + step) } }

/-- Session frames queued or released and not completed (R369). -/
def Side.sessionFrames (d : Side) : Nat :=
  d.trowel.queues.foldl (fun n e => n + (e.2.filter fun f => f.session).length) 0 +
  (d.trowel.released.filter fun r => r.f.session).length

/-- Symbols requested while fewer than DEPTH session frames are outstanding and the session runs (R369). -/
def Side.askSymbols (running : Bool) (d : Side) : Nat → Side
  | 0 => d
  | fuel + 1 =>
    if running && d.sess.active && decide (d.sessionFrames + d.sess.asked < d.sess.depth) then
      Side.askSymbols running ({ d with sess := { d.sess with asked := d.sess.asked + 1 } }.emit .symRead) fuel
    else d

/-- A derivation completes and its key reaches the frames that wait for it (R272, R273). -/
def Side.derived (v : Variant) (c : Commons) (d : Side) (lt : Nat) : Side :=
  let d1 := d.completeFlight
  Side.releaseHeld v c lt d1.node.held [] [] d1

/-- Tamper cuts key access: every key operation in flight is aborted, its frames are dropped and counted, and the side is zeroized
(R281, R310). A frame from a host completes with KEY_REFUSED. -/
def Side.cutKeys (d : Side) (lt : Nat) : Side :=
  let cut (n : Nat) : Bool := d.keyPending n
  let ups := d.node.held.filter fun h => cut h.f.seq
  let queued := (d.trowel.queues.map fun e => e.2.filter fun f => f.macSeq.isSome && cut f.seq).flatten
  let parked := d.pend.pool.filter fun p => !p.inFlight && cut p.f.seq
  let d1 := (d.updNode fun k => { k with held := k.held.filter fun h => !cut h.f.seq
                                         writes := k.writes.filter fun w => !cut w.f.seq }).updMesh fun m =>
    { m with relays := m.relays.filter fun r => !cut r.f.seq
             skim := (m.relays.filter fun r => cut r.f.seq).foldl (fun t r => match t.find r.place with
               | some e => t.put r.place { e with pend := false }
               | none => t) m.skim }
  let keep (e : Nat × List Frame) : Option (Nat × List Frame) :=
    let l := e.2.filter fun f => !(f.macSeq.isSome && cut f.seq)
    if l.isEmpty then none else some (e.1, l)
  let d2 := d1.updTrowel fun w => { w with queues := w.queues.filterMap keep }
  let d3 := (queued.foldl (fun a f => a.outcome lt f 48) d2).deactivate
  let d4 := parked.foldl (fun a p => (a.takeParked p.f).outcome lt p.f 48) d3
  Side.zeroize { d4 with regs := bumpBy d4.regs Pg.SEC Reg.SEC_TAMPERED (ups.length + queued.length + parked.length) }

/-- A time input consumed: the step it carries, the Sander visits due, the waiting frame writes, the frames they release,
Trowel's credit (R61, R62, R231, R324). -/
def Side.timeInput (v : Variant) (c : Commons) (d : Side) (lt step : Nat) (acq rebase : Bool) : Side :=
  let d1 := if step = 0 then d else
    -- R61, R62, R70
    let d0 := d.copiesShift step
    if acq && rebase then d0.rebase step else (d0.passWaits lt (d.now - step) d.now).passSwaps (d.now - step) d.now
  let d2 := ({ d1 with tick := d.now }.sweepDue lt).applyWrites
  let d3 := Side.releaseHeld v c lt d2.node.held [] [] d2
  let d4 := d3.trowelTick c
  d4.askSymbols (decide (c.ibe.phase = 2)) 15

/-- A table command of a strand (R242). -/
def tableCmd (s : State) (x : SideId) (strand code unit : Nat)
    (f : Side → List Byte → Nat × List Byte × Side) : State :=
  if sideRun s x then s.upd x fun d => d.runCommand s.c.lt strand code unit Pg.NODE Reg.NODE_CMD_OK Reg.NODE_CMD_FAIL f else s

/-- A CAM command waits while entry moves run (R249). -/
def camCmd (s : State) (x : SideId) (strand code : Nat) (f : Side → List Byte → Nat × List Byte × Side) : State :=
  if (s.side x).node.camOld.isSome then s
  else tableCmd s x strand code Pg.PCAM f

end Sys2Proof.Machine
end

