-- ==== Sys2Proof/Machine/Images.lean ====
section
/-! DEFINITION. MRAM, the firmware slots and their commands, node images, and the image broadcast engine (chapter 11). -/

namespace Sys2Proof.Machine

open Sys2Proof

/-! ## MRAM regions (R354) -/

/-- Bytes of a firmware slot. -/
def slotBytes : Nat := 1572864

/-- Bytes of a node image. -/
def imageBytes : Nat := 1048576

/-- Bytes of a region. DESIGN CHOICE: a byte of MRAM that nothing has written reads 0. -/
def tabBytes (t : Tab Byte) (off n : Nat) : List Byte := (List.range n).map fun i => (t.find (off + i)).getD 0#8

/-- Bytes written into a region. -/
def putBytes (t : Tab Byte) (off : Nat) (bs : List Byte) : Tab Byte :=
  (bs.mapIdx fun i b => (off + i, b)).foldl (fun t e => t.put e.1 e.2) t

/-- A firmware slot. -/
def MramState.slot (m : MramState) (b : Bool) : Tab Byte := if b then m.fwB else m.fwA

/-- MRAM words written (WR_WORDS): a word is 8 bytes. -/
def Side.noteWords (d : Side) (n : Nat) : Side := { d with regs := bumpBy d.regs Pg.MRAM Reg.MRAM_WR_WORDS (ceilDiv n 8) }

/-! ## Part images (R355, R356) -/

/-- A field of the firmware header. -/
def hdrField (t : Tab Byte) (off n : Nat) : Nat := leNat (tabBytes t off n)

/-- The body length is within range. -/
def fwLenOk (t : Tab Byte) : Bool := decide (hdrField t 12 4 ≤ 1572608)

/-- The image: header and body. -/
def fwImage (t : Tab Byte) : List Byte := tabBytes t 0 (256 + hdrField t 12 4)

/-- SVN of an image. -/
def fwSvn (t : Tab Byte) : Nat := hdrField t 4 2

/-- The checks of R356 but for the SVN. -/
def fwSigOk (t : Tab Byte) : Bool :=
  decide (hdrField t 0 4 = 0x4B4C4657) && fwLenOk t &&
  (let img := fwImage t
   decide (sha256 (slice img 128 64) = Config.fwkHash) &&
   ecdsaOk (slice img 128 64) (slice img 192 64) (img.take 192 ++ img.drop 256))

/-- An image verifies on a side (R356). -/
def Side.fwVerifies (d : Side) (t : Tab Byte) : Bool := fwSigOk t && decide (d.mram.svnFloor ≤ fwSvn t)

/-- The status of FW_COMMIT for a slot: VERIFY, ROLLBACK if only the SVN check failed, else OK (R356, R359). What a slot that
nothing has written holds, and so whether it verifies, is the factory's. -/
def Side.commitStatus (d : Side) (n : Nat) (t : Tab Byte) : Nat :=
  if t.isEmpty then (if Config.factorySlot n then 0 else 3)
  else if !fwSigOk t then 3
  else if fwSvn t < d.mram.svnFloor then 4
  else 0

/-- The firmware state changed. -/
def Side.updFw (d : Side) (f : FwState → FwState) : Side := { d with fw := f d.fw }

/-- The OK bit of a slot set. -/
def FwState.setOk (k : FwState) (b ok : Bool) : FwState := if b then { k with okB := ok } else { k with okA := ok }

/-- The OK bit of a slot. -/
def FwState.ok (k : FwState) (b : Bool) : Bool := if b then k.okB else k.okA

/-- A slot is the one now running or the BOOT_SEL slot (R359). -/
def Side.slotBusy (d : Side) (n : Nat) : Bool := decide (d.fw.run = n) || decide (d.mram.bootSel = n)

/-- The slot that is not running. -/
def Side.otherSlot (d : Side) : Bool := decide (d.fw.run ≠ 1)

/-! ## Firmware commands (R359, R360, R361, R365) -/

/-- FW_WRITE: slot, offset, data (R359, R357). -/
def Side.cmdFwWrite (d : Side) (a : List Byte) : Nat × List Byte × Side :=
  let n := byteAt a 0
  let off := leAt a 1 4
  let bs := a.drop 5
  if 2 ≤ n ∨ bs.length < 8 ∨ 1024 < bs.length ∨ bs.length % 8 ≠ 0 ∨ slotBytes < off + bs.length then (1, [], d)
  else if d.slotBusy n then (2, [], d)
  else
    let b : Bool := decide (n = 1)
    let d1 := (d.updMram fun m =>
      if b then { m with fwB := putBytes m.fwB off bs } else { m with fwA := putBytes m.fwA off bs }).updFw fun k =>
        { k.setOk b false with verify := setNBit k.verify n false }
    (0, [], d1.noteWords bs.length)

/-- FW_COMMIT: slot (R359). -/
def Side.cmdFwCommit (d : Side) (a : List Byte) : Nat × List Byte × Side :=
  let n := byteAt a 0
  if 2 ≤ n then (1, [], d)
  else if d.slotBusy n then (2, [], d)
  else
    let st := d.commitStatus n (d.mram.slot (decide (n = 1)))
    (st, [], if st = 0 then d.updFw fun k => k.setOk (decide (n = 1)) true else d)

/-- FW_CONFIRM (R360). -/
def Side.cmdFwConfirm (d : Side) : Nat × List Byte × Side :=
  let t := d.mram.slot (decide (d.fw.run = 1))
  let d1 := if d.fw.run < 2 then
      d.updMram fun m => { m with
        bootSel := d.fw.run
        svnFloor := if hdrField t 20 4 % 2 = 1 then max m.svnFloor (fwSvn t) else m.svnFloor }
    else d
  (0, [], d1.updFw fun k => { k with trial := false })

/-- FW_UPDATE is refused with a status, or accepted (R361, R365). -/
def Side.fwRefusal (full singleNow : Bool) (d : Side) : Nat :=
  let run := d.mram.slot (decide (d.fw.run = 1))
  let new := d.mram.slot d.otherSlot
  if full && singleNow then 7
  else if !(decide (d.fw.phase = 0) || decide (d.fw.phase = 6) || decide (d.fw.phase = 7)) then 5
  else if !d.fw.ok d.otherSlot then 7
  else if full && (decide (hdrField run 8 2 < hdrField new 10 2) || decide (hdrField new 8 2 < hdrField run 8 2)) then 6
  else 0

/-- FW_UPDATE: LOAD (R361, R365). -/
def Side.cmdFwUpdate (full singleNow : Bool) (d : Side) : Nat × List Byte × Side :=
  let st := d.fwRefusal full singleNow
  if st ≠ 0 then (st, [], d)
  else (0, [], d.updFw fun k => { k with phase := 1, cause := 0, doneAt := none, expired := false })

/-- After the RESULT of an update that was accepted, the request that takes the shadow side out, or restarts side A (R361, R365). -/
def Side.asksUpdate (before d : Side) : Side := if d.fw.phase = 1 ∧ before.fw.phase ≠ 1 then d.emit .fwUpdate else d

/-! ## Node images (R366) -/

/-- A broadcast session uses an image. -/
def Side.imageInUse (d : Side) (n : Nat) : Bool := d.sess.active && decide (d.sess.image = n)

/-- An image is VALID. -/
def Side.imageValid (d : Side) (n : Nat) : Bool := (d.mram.imgMeta.find n).isSome

/-- Bytes of an image. -/
def Side.imageData (d : Side) (n off len : Nat) : List Byte := tabBytes d.mram.images (n * imageBytes + off) len

/-- IMG_WRITE: image, offset, data. -/
def Side.cmdImgWrite (d : Side) (a : List Byte) : Nat × List Byte × Side :=
  let n := byteAt a 0
  let off := leAt a 1 4
  let bs := a.drop 5
  if 8 ≤ n ∨ bs.length < 8 ∨ 1024 < bs.length ∨ imageBytes < off + bs.length then (1, [], d)
  else if d.imageInUse n then (5, [], d)
  else (0, [], (d.updMram fun m => { m with images := putBytes m.images (n * imageBytes + off) bs, imgMeta := m.imgMeta.del n }
    ).noteWords bs.length)

/-- IMG_COMMIT: image, LENGTH, TENANT, VERSION, SHA-256. -/
def Side.cmdImgCommit (d : Side) (a : List Byte) : Nat × List Byte × Side :=
  let n := byteAt a 0
  let len := leAt a 1 4
  let ten := leAt a 5 2
  if 8 ≤ n ∨ len = 0 ∨ imageBytes < len ∨ 1024 ≤ ten ∨ a.length < 41 then (1, [], d)
  else if d.imageInUse n then (5, [], d)
  else if sha256 (d.imageData n 0 len) ≠ slice a 9 32 then (9, [], d)
  else (0, [], d.updMram fun m => { m with imgMeta := m.imgMeta.put n (len, ten, leAt a 7 2) })

/-- IMG_ERASE: image. -/
def Side.cmdImgErase (d : Side) (a : List Byte) : Nat × List Byte × Side :=
  let n := byteAt a 0
  if 8 ≤ n then (1, [], d)
  else if d.imageInUse n then (5, [], d)
  else (0, [], d.updMram fun m => { m with imgMeta := m.imgMeta.del n })

/-- IMG_READ: image, offset, count. -/
def Side.cmdImgRead (d : Side) (a : List Byte) : Nat × List Byte × Side :=
  let n := byteAt a 0
  let off := leAt a 1 4
  let k := leAt a 5 2
  if 8 ≤ n ∨ k = 0 ∨ 1024 < k ∨ imageBytes < off + k then (1, [], d) else (0, d.imageData n off k, d)

/-! ## Broadcast sessions: the side's part (R367 to R372) -/

/-- K of a block: RFC 6330 section 4.4.1.2 partitions Kt source symbols into Z blocks. -/
def blockK (len t z b : Nat) : Nat :=
  let kt := ceilDiv len t
  let zl := kt - kt / z * z
  if b < zl then ceilDiv kt z else kt / z

/-- Source symbols before a block. -/
def blockBase (len t z b : Nat) : Nat := (List.range b).foldl (fun n i => n + blockK len t z i) 0

/-- The arguments of IBE_START, in the order of the table "Session arguments" (R380). -/
def sessArgs (a : List Byte) : SessState :=
  { active := true, image := byteAt a 0, session := byteAt a 1, service := byteAt a 2, group := byteAt a 3, ch := byteAt a 4,
    mode := byteAt a 5, phyOpt := byteAt a 6, txLevel := byteAt a 7, norel := decide (byteAt a 8 = 1), ttl := byteAt a 9,
    sel := byteAt a 10, reportSel := byteAt a 11, t := leAt a 12 2, z := leAt a 14 2, depth := byteAt a 31, tenant := 0,
    version := 0, len := 0, asked := 0 }

/-- An argument of IBE_START is out of range (R368). -/
def sessBad (a : List Byte) (len : Nat) : Bool :=
  let k := sessArgs a
  decide (a.length < 34) || decide (8 ≤ k.service) || decide (3 ≤ k.group) || decide (32 ≤ k.mode) || decide (64 ≤ k.txLevel) ||
  decide (2 ≤ byteAt a 8) || decide (16 ≤ k.ttl) || decide (64 ≤ k.sel) || decide (64 ≤ k.reportSel) || decide (k.t < 16) ||
  decide (1024 < k.t) || decide (k.t % 4 ≠ 0) || decide (k.z = 0) || decide (256 < k.z) || decide (1000 < leAt a 16 2) ||
  decide (2 ≤ byteAt a 18) || decide (262144 < leAt a 19 4) || decide (k.depth = 0) || decide (16 ≤ k.depth) ||
  decide (2 ≤ byteAt a 32) || decide (2 ≤ byteAt a 33) ||
  (List.range k.z).any (fun b => decide (56403 < blockK len k.t k.z b)) ||
  decide (3 * 1048576 < ((List.range k.z).map fun b => Config.interSymbols (blockK len k.t k.z b) * k.t).sum)

/-- The PSDU of a symbol frame (R367). -/
def Side.symbolPsdu (d : Side) (k : SessState) : Nat :=
  k.t + 50 + micLen (d.txLevelOf k.tenant) + fcsLen k.mode k.phyOpt

/-- IBE_START (R368). -/
def Side.cmdIbeStart (full : Bool) (phase : Nat) (d : Side) (a : List Byte) : Nat × List Byte × Side :=
  let n := byteAt a 0
  if !full then (8, [], d)
  else if d.sess.active ∨ phase = 1 ∨ phase = 2 then (5, [], d)
  else if 8 ≤ n then (1, [], d)
  else match d.mram.imgMeta.find n with
    | none => (7, [], d)
    | some (len, ten, ver) =>
      if sessBad a len then (1, [], d)
      else
        let k : SessState := { sessArgs a with tenant := ten, version := ver, len := len }
        if min (rf d.regs Pg.LOWPAN Reg.LOWPAN_TX_MAX_PSDU 10 0) (maxPsdu k.mode) < d.symbolPsdu k then (10, [], d)
        else
          let x : IbeArgs :=
            { session := k.session, image := n, tenant := ten, service := k.service, t := k.t, z := k.z, ovh := leAt a 16 2,
              carousel := decide (byteAt a 18 = 1), target := leAt a 19 4, stopLt := leAt a 23 8,
              interleave := decide (byteAt a 32 = 1), srcFirst := decide (byteAt a 33 = 1), data := d.imageData n 0 len }
          (0, [], ({ d with sess := k }).emit (.ibeStart x))

/-- The session's queued frames removed in queue order and completed ABORTED (R372). -/
def Side.flushSession (d : Side) (lt : Nat) : Side :=
  let gone := (d.trowel.queues.map fun e => e.2.filter fun f => f.session).flatten
  let keep (e : Nat × List Frame) : Option (Nat × List Frame) :=
    let l := e.2.filter fun f => !f.session
    if l.isEmpty then none else some (e.1, l)
  let d1 := d.updTrowel fun w => { w with queues := w.queues.filterMap keep }
  (gone.foldl (fun a f => a.outcome lt f 7) d1).deactivate

/-- IBE_STOP (R372). -/
def Side.cmdIbeStop (full : Bool) (lt : Nat) (d : Side) (a : List Byte) : Nat × List Byte × Side :=
  let fl := byteAt a 0
  if !full then (8, [], d)
  else if 2 ≤ fl then (1, [], d)
  else
    let d1 := if fl = 1 then d.flushSession lt else d
    (0, [], { d1 with sess := { d1.sess with active := false } }.emit .ibeStop)

/-- The payload of a symbol frame (table "Symbol payload"). -/
def symbolBody (k : SessState) (sbn esi : Nat) (data : List Byte) : List Byte :=
  [b8 k.session] ++ beBytes 2 k.version ++ beBytes 5 k.len ++ [0#8] ++ beBytes 2 k.t ++ [b8 k.z] ++ beBytes 2 1 ++ [4#8] ++
  [b8 sbn] ++ beBytes 3 esi ++ data

/-- A symbol reaches a side: its frame is built, protected and enqueued (R367, R369). -/
def Side.symbol (v : Variant) (c : Commons) (d : Side) (lt sbn esi : Nat) (data : Option (List Byte)) : Side :=
  let d1 := { d with sess := { d.sess with asked := d.sess.asked - 1 } }
  let k := d1.sess
  match data with
  | none => d1
  | some bs =>
    if d1.ownId = 0 ∨ d1.ownEui = 0 then d1.count Pg.DML Reg.DML_TX_NOID
    else
      let ttl := if k.ttl = 0 then rf d1.regs Pg.DML Reg.DML_TX_CFG 3 0 else k.ttl
      let dml : Dml := { ver := 1, ty := 2, lowpan := false, fack := false, norel := k.norel, ttl := ttl, hops := 0,
                         tenant := k.tenant, sel := k.sel, orig := d1.ownId, seq := d1.mesh.txSeq }
      let m := d1.nextMac
      match m.2.protectNet d.inputNo k.tenant m.1 [] (dmlOctets dml) (symbolBody k sbn esi bs) (fcsLen k.mode k.phyOpt) with
      | (.error _, d2) => d2
      | (.ok psdu, d2) =>
        let d3 := (d2.updMesh fun x => { x with txSeq := (x.txSeq + 1) % 65536 }).count Pg.DML Reg.DML_TX_ORIG
        let i := d3.newId
        i.2.enqueue v c lt { frameOf 0#256 none 0 k.tenant k.service k.group k.ch k.mode d.inputNo with
          id := i.1, psdu := psdu, macSeq := some m.1, phyOpt := k.phyOpt, txLevel := k.txLevel,
          profile := (Desc.feProfile Config.routedDesc), session := true }

/-! ## The broadcast engine (R368 to R372) -/

/-- The IBE changed. -/
def State.updIbe (s : State) (f : IbeState → IbeState) : State := s.updC fun c => { c with ibe := f c.ibe }

/-- A session passed to the IBE: LOADING (R368). -/
def ibeLoad (s : State) (a : IbeArgs) : State :=
  (s.updIbe fun _ => { phase := 1, ended := 0, args := a, turn := 0, sent := []
                       stopLt := if a.stopLt = 0 then none else some a.stopLt, reports := 0 }).updR
    fun t => bump t Pg.IBE Reg.IBE_SESSIONS

/-- A session ends with its cause: STOPPED after IBE_STOP, else DONE; IBE_END is raised and sequenced (R372). -/
def ibeFinish (s : State) (cause : Nat) : State :=
  if s.c.ibe.phase = 1 ∨ s.c.ibe.phase = 2 then
    ((s.updIbe fun k => { k with phase := if cause = 4 then 4 else 3, ended := cause }).event Pg.IBE 0).notice (.ibeEnd cause)
  else s

/-- The intermediate symbols are computed (R368). -/
def ibeLoaded (s : State) : State :=
  if s.c.ibe.phase = 1 then s.updIbe fun k => { k with phase := 2 } else s

/-- K of a block of the session. -/
def IbeState.kOf (k : IbeState) (b : Nat) : Nat := blockK k.args.data.length k.args.t k.args.z b

/-- A block's budget of symbols; none is unlimited (R370). -/
def IbeState.budget (k : IbeState) (b : Nat) : Option Nat :=
  if k.args.carousel then none else some (ceilDiv (k.kOf b * (100 + k.args.ovh)) 100)

/-- The ESI of a block's next symbol (R370). -/
def IbeState.esiOf (k : IbeState) (b : Nat) : Nat :=
  (if k.args.srcFirst then 0 else k.kOf b) + (k.sent.find b).getD 0

/-- A block still has symbols: its budget is not spent and its ESI lies below 2^24 - 1 (R370). -/
def IbeState.blockOpen (k : IbeState) (b : Nat) : Bool :=
  decide (k.kOf b ≠ 0) && decide (k.esiOf b < 2 ^ 24 - 1) && (match k.budget b with
    | some n => decide ((k.sent.find b).getD 0 < n)
    | none => true)

/-- The block whose symbol comes next: from the turn on in INTERLEAVE, else the first that is open (R370). -/
def IbeState.nextBlock (k : IbeState) : Option Nat :=
  let bs := List.range k.args.z
  let order := if k.args.interleave then bs.drop k.turn ++ bs.take k.turn else bs
  order.find? k.blockOpen

/-- An encoding symbol: source octets below K, a repair symbol of RFC 6330 above. -/
def IbeState.octets (k : IbeState) (b esi : Nat) : List Byte :=
  let t := k.args.t
  let kk := k.kOf b
  let base := blockBase k.args.data.length t k.args.z b
  let src := cellSlice k.args.data (base * t) (kk * t)
  if esi < kk then slice src (esi * t) t else cellSlice (Config.repairSymbol kk t esi src) 0 t

/-- LT reaches STOP_LT (R372). -/
def ibeStopDue (s : State) : State :=
  match s.c.ibe.stopLt with
  | some t => if t ≤ s.c.lt then ibeFinish s 2 else s
  | none => s

/-- A symbol request reaches the IBE: the next symbol goes to both sides, or none after the session's end, STOP_LT included (R369,
R370, R372). -/
def symServe (s0 : State) : State :=
  let s := ibeStopDue s0
  let k := s.c.ibe
  if k.phase = 2 then
    match k.nextBlock with
    | none => ibeFinish s 1
    | some b =>
      let esi := k.esiOf b
      let rep : Bool := decide (k.kOf b ≤ esi)
      let k1 : IbeState := { k with sent := k.sent.put b ((k.sent.find b).getD 0 + 1), turn := (b + 1) % max 1 k.args.z }
      let s1 := ((s.updIbe fun _ => k1).updR fun t => bump t Pg.IBE (if rep then Reg.IBE_SYM_REP else Reg.IBE_SYM_SRC)
        ).offer .units (.symbol b esi (some (k.octets b esi)))
      if k1.nextBlock.isNone then ibeFinish s1 1 else s1
  else if k.phase = 3 ∨ k.phase = 4 then
    (s.updR fun t => bump t Pg.IBE Reg.IBE_REQ_ENDED).offer .units (.symbol 0 0 none)
  else s

/-- A node report is added, REPORTS saturating; it may reach TARGET (R371 to R373). -/
def reportAdd (s : State) : State :=
  let s1 := (ibeStopDue s).updIbe fun k => { k with reports := min 0xFFFFFFFF (k.reports + 1) }
  let k := s1.c.ibe
  if k.args.target ≠ 0 ∧ k.args.target ≤ k.reports then ibeFinish s1 3 else s1

/-! ## Verification in the background and the trial (R357, R364) -/

/-- Slots in background verification take their results at the first time input 8 ms after the LEASE_GRANT (R357). -/
def Side.slotVerify (d : Side) : Side :=
  match d.fw.verifyAt with
  | none => d
  | some t =>
    if d.tick < t then d
    else
      let good (n : Nat) (t : Tab Byte) : Bool := if t.isEmpty then Config.factorySlot n else d.fwVerifies t
      let d1 := if nbit d.fw.verify 0 then d.updFw fun k => k.setOk false (good 0 d.mram.fwA) else d
      let d2 := if nbit d.fw.verify 1 then d1.updFw fun k => k.setOk true (good 1 d.mram.fwB) else d1
      d2.updFw fun k => { k with verifyAt := none, verify := 0 }

/-- TRIAL_TO has passed since DONE without FW_CONFIRM: TRIAL_EXPIRED once (R364). -/
def Side.trialEnd (d : Side) : Side :=
  if d.trialOver then { (d.updFw fun k => { k with expired := true }) with regs := setEvt d.regs Pg.MRAM 0 } else d

/-- An image command of a strand (R354, R358). -/
def imageCmd (s : State) (x : SideId) (strand code : Nat) (f : Side → List Byte → Nat × List Byte × Side) : State :=
  if sideRun s x then
    s.upd x fun d => d.runCommand s.c.lt strand code Pg.MRAM Pg.MRAM Reg.MRAM_CMD_OK Reg.MRAM_CMD_FAIL f
  else s

/-- The IBE acts: the units run and its variant has it (R368). -/
def ibeRun (s : State) : Bool := commonsUp s && s.variant.full && decide (s.c.pd.dom 20 = .on)

/-! ## Key commands of a strand (R279) -/

/-- A key command of a strand, counted in FILIG.CMD_OK or CMD_FAIL. -/
def keyCmd (s : State) (x : SideId) (strand code : Nat) (f : Side → List Byte → Nat × List Byte × Side) : State :=
  if sideRun s x then
    s.upd x fun d => d.runCommand s.c.lt strand code Pg.FILIG Pg.FILIG Reg.FILIG_CMD_OK Reg.FILIG_CMD_FAIL f
  else s

end Sys2Proof.Machine
end

