-- ==== Sys2Proof/Machine/Startup.lean ====
section
/-! DEFINITION. The start of a side, from its PUF to its ready report, the first grant, commons enable, and the ways a
side leaves service and is refilled (R253 to R258, R357, R358, R419, R432 to R434, R551 to R560). -/

namespace Sys2Proof.Machine

open Sys2Proof

/-! ## Tamper checks and the root -/

/-- The tamper sources active now (R306, R317): those that an event of this LT names, else those of the world. -/
def Commons.tamperActive (c : Commons) : Nat :=
  (if c.tamp.statusAt = c.lt then c.tamp.status else Config.tamperNow c.lt) % 128

/-- The tamper checks do not pass: an enabled source is active or TAMP.CAUSE is non-zero (R253, R308). -/
def tamperBlocks (c : Commons) : Bool :=
  decide (c.tamperActive &&& rf c.regs Pg.TAMP Reg.TAMP_SRC_EN 6 0 ≠ 0) || decide (rd c.regs Pg.TAMP Reg.TAMP_CAUSE ≠ 0)

/-- No root is loaded, the test root included: the tamper checks do not pass (R253, R308), or tamper has zeroized the keys since the
last PORST_N or WRST_N whose checks passed (R312). -/
def rootBlocked (c : Commons) : Bool := tamperBlocks c || c.tamp.zeroized

/-- Locket acts after a power-up from off: the test root while Loupe is open, otherwise the PUF. In both cases the region ends
filled with zeros (R253, R259, R308, R312). -/
def powerLocket (c : Commons) (x : SideId) (d : Side) : Side :=
  if c.tamp.opened.isSome && !rootBlocked c then
    (d.updKey fun k => { k with puf := none, pufDue := false }).takeRoot testRoot true
  else d.readPuf x (rootBlocked c)

/-! ## Steps 2 and 3 of a side -/

/-- Side SRAM, dispatcher and side pages as after reset; MRAM is kept (R551). -/
def Side.cleared (d : Side) : Side := { Side.reset with mram := d.mram }

/-- What Locket keeps over WRST_N: the root, the level 1 keys and how they came about (R551). -/
def KeyState.kept (k : KeyState) : KeyState :=
  { KeyState.reset with
    root := k.root, kek := k.kek, ids := k.ids, testRoot := k.testRoot, rootFail := k.rootFail, keyless := k.keyless,
    maxErr := k.maxErr, devGen := k.devGen, puf := k.puf, pufDue := k.pufDue }

/-- Step 3: slot images tagged above the counter are discarded, BOOTS advances, DL_FLOOR follows (R298, R303, R557). -/
def Side.hallmark (d : Side) : Side :=
  let ctr := d.mram.ring.foldl max 0
  (d.updMram fun m =>
    let kept := m.keyImages.filter fun e => decide (e.2.1 ≤ ctr)
    { m with keyImages := kept, boots := m.boots + 1
             testImages := m.testImages.filter fun n => kept.any fun e => decide (e.1 = n) }).floorCheck

/-- The system state changed. -/
def State.updSys (s : State) (f : SysState → SysState) : State := s.updC fun c => { c with sys := f c.sys }

/-- READY_x as Clasp knows it. -/
def ClaspState.setReady (k : ClaspState) (x : SideId) (r : Bool) : ClaspState :=
  match x with
  | .a => { k with readyA := r }
  | .b => { k with readyB := r }

/-- Clasp knows the side to be ready. -/
def ClaspState.ready (k : ClaspState) : SideId → Bool
  | .a => k.readyA
  | .b => k.readyB

/-- The last start-up step reached. -/
def State.reach (s : State) (n : Nat) : State := s.updSys fun y => { y with step := max y.step n }

/-- The outputs that a side offered and that did not pass are discarded (R430, R433). -/
def BezelState.dropHeld (z : BezelState) (x : SideId) : BezelState :=
  match x with
  | .a => { z with heldA := [] }
  | .b => { z with heldB := [] }

/-- A side restarts: SRAM, pages and dispatcher zeroed, LOCKET_x cycled through off unless the root is kept, steps 2 and
3 of the start-up sequence; it waits for its image (R551, R557). -/
def bootSide (s : State) (x : SideId) (keepRoot : Bool) : State :=
  let s1 := s.upd x fun d =>
    let d1 := if keepRoot then { d.cleared with key := d.key.kept } else powerLocket s.c x d.cleared.locketUp
    (d1.updKey fun k => { k with loupe := s.c.tamp.opened.isSome, testCtr := d.key.testCtr }).hallmark
  let s2 := (s1.updSys fun y => (y.setBoot x 0)).updK fun k => k.setReady x false
  s2.updZ fun z => (z.setSt x .boot).dropHeld x

/-! ## Step 4: the image (R356, R357, R556, R560, R561) -/

/-- The source of a side's firmware: BOOT_OVR.SRC while its EN is 1, else the strap; 2 is treated as 1 on the KL9620 (R555,
R556). -/
def bootSource (s : State) : Nat :=
  let o := rd s.c.regs Pg.RST Reg.RST_BOOT_OVR
  let n := if bitOf o 2 then fld o 1 0 else s.c.sys.straps % 4
  if n = 2 ∧ !s.variant.full then 1 else n

/-- The slot that a start from MRAM tries first: the one that the active side runs in a refill, the other one in an
update, else BOOT_SEL; and whether another may be tried after it (R357, R361, R433). -/
def firstSlot (s : State) (x : SideId) : Nat × Bool :=
  match s.c.bezel.refill with
  | some r =>
    let run := (s.side x.other).fw.run
    if r.side = x ∧ r.phase ≠ 0 ∧ run < 2 then (if r.fwu then 1 - run else run, false) else ((s.side x).mram.bootSel, true)
  | none => ((s.side x).mram.bootSel, true)

/-- A slot verifies. A slot that nothing has written holds what the part left the factory with, which the spec does not
give: whether it verifies is then the event's to say. -/
def Side.slotGood (d : Side) (n : Nat) (factory : Bool) : Bool :=
  let t := d.mram.slot (decide (n = 1))
  if t.isEmpty then factory else d.fwVerifies t

/-- The octets of the loaded image. -/
def loadedImage (s : State) (x : SideId) : List Byte :=
  let d := s.side x
  fwImage (if d.fw.run < 2 then d.mram.slot (decide (d.fw.run = 1)) else s.c.sys.hboot)

/-- The core program and data region with an image loaded: its body from the start of the region, zeros after it (R14, R355).
PRESUMED: the body lies at offset 0. -/
def coreImage (image : List Byte) : Tab Byte :=
  (((image.drop 256).zipIdx.map fun e => (e.2, e.1)).filter fun e => decide (e.2 ≠ 0))

/-- Step 5: core 0 runs; the counters are loaded; the side offers ROOT_CHECK, ROOT_OK and IMG_CHECK; Trowel's copies take
the commons' boundaries, and a start without state transfer reads the accounts (R258, R297, R344, R358, R397). -/
def Side.startRun (c : Commons) (readAcc : Bool) (image : List Byte) (d : Side) : Side :=
  let chans := [RPort.s, .m, .h].foldl (fun (t : Tab ChanDef) p =>
    (c.port p).chans.foldl (fun t e => t.put (p.num * 256 + e.1) e.2) t) []
  let d0 : Side :=
    { d with now := c.lt, tick := c.lt, seen := c.seen, draws := [{ use := .txSeq, got := [] }], token := c.clasp.token
             point := c.bezel.seq, chans := chans, cmem := coreImage image
             fw := { d.fw with entry := leNat (slice image 16 4) }
             air := c.regs.filter fun e => decide ((e.1 / 4096) % 128 = Pg.AIR) }
  let d1 := (d0.updKey fun k => { k with txfc := d0.mram.txfcMarks, remaskNext := d0.nextRemask c.lt }).updMesh fun m =>
    { m with sweepNext := 1000000000 * (c.lt / 1000000000 + 1) }
  let d2 := d1.updTrowel fun w =>
    { w with dutyIdx := c.duty.idx, dutyNext := c.duty.next
             dwellIdx := [(0, c.rfS.dwellIdx), (1, c.rfM.dwellIdx), (2, c.rfH.dwellIdx)]
             dwellNext := [(0, c.rfS.dwellNext), (1, c.rfM.dwellNext), (2, c.rfH.dwellNext)] }
  let d3 := if rb d2.regs Pg.SANDER Reg.SANDER_CFG 0 then d2.startPass else d2
  let d4 := d3.loadSlots
  let d5 := d4.reportRoot.emit (.regWrite Pg.BEZEL Reg.BEZEL_IMG_CHECK (w32 (low32 (sha256 image))) 15)
  if readAcc then
    (List.range 16).foldl (fun d n =>
      let off := Reg.DUTY_ACCT_USED + 16 * n
      { d.emit (.regRead Pg.DUTY off) with reads := d.reads ++ [(Pg.DUTY, off, true)] }) d5
  else d5

/-- A side has loaded an image and starts: step 5 (R557). -/
def startSide (s : State) (x : SideId) (run : Nat) : State :=
  let s1 := (s.upd x fun d => d.updFw fun k => { k with run := run, trial := decide (run ≠ d.mram.bootSel) }).updSys fun y =>
    y.setBoot x 1
  let s2 := s1.upd x fun d => d.startRun s1.c (!s1.variant.full || s1.c.sys.warmStart) (loadedImage s1 x)
  (s2.updZ fun z => z.setSt x .boot).reach 5

/-- A side that verified no image does not start (R560); in a refill this is the failure BOOT (R434). -/
def bootFails (s : State) (x : SideId) : State :=
  let s1 := (s.updSys fun y => y.setBoot x 2).bumpC Pg.RST Reg.RST_BOOT_FAILS
  match s1.c.bezel.refill with
  | some r => if r.side = x ∧ r.phase ≠ 0 then refillFail s1 2 else s1.updZ fun z => z.setSt x .off
  | none => s1.updZ fun z => z.setSt x .off

/-- On the KL9620 an update whose slot does not verify starts the BOOT_SEL slot and has failed (R365). -/
def Side.singleUpdateFails (d : Side) : Side :=
  if d.fw.phase = 2 then d.updFw fun k => { k with phase := 7, cause := 3 } else d

/-- A slot tried at step 4: loaded if it verifies, else the other one is next, or the start fails (R357). -/
def trySlot (s : State) (x : SideId) (factory : Bool) : State :=
  let first := firstSlot s x
  let d := s.side x
  let upd620 : Bool := !s.variant.full && decide (d.fw.phase = 2)
  let f := if upd620 then 1 - d.mram.bootSel else first.1
  let n := if nbit d.fw.tried f then 1 - f else f
  if nbit d.fw.tried n then s
  else
    let ok := d.slotGood n factory
    let s1 := s.upd x fun d => d.updFw fun k =>
      { (if ok then k.setOk (decide (n = 1)) true else k) with
        tried := setNBit k.tried n true, bootFail := if ok then k.bootFail else setNBit k.bootFail n true }
    if ok then startSide s1 x n
    else if (first.2 || upd620) && !nbit d.fw.tried (1 - n) then s1.upd x Side.singleUpdateFails
    else bootFails (s1.upd x Side.singleUpdateFails) x

/-- The image that a host or the chain port has written is verified (R357, R561). -/
def tryHostImage (s : State) (x : SideId) : State :=
  let waits := match x with
    | .a => s.c.sys.hbootA
    | .b => s.c.sys.hbootB
  if !waits then s
  else
    let s1 := s.updSys fun y => match x with
      | .a => { y with hbootA := false }
      | .b => { y with hbootB := false }
    if (s1.side x).fwVerifies s1.c.sys.hboot then startSide s1 x 2 else bootFails s1 x

/-- The side stands at step 4: it restarted and has started nothing, or its load from a host failed (R557, R561). -/
def atStep4 (s : State) (x : SideId) : Bool :=
  (s.variant.full || decide (x = .a)) && !s.c.sys.porstLow &&
  (decide (s.c.bezel.st x = .boot ∧ s.c.sys.boot x = 0) ||
   decide (s.c.bezel.st x = .off ∧ s.c.sys.boot x = 2 ∧ bootSource s ≠ 0))

/-! ## The first grant and commons enable (R113, R308, R419, R557 to R559) -/

/-- The side preferred for the first lease. -/
def preferred (s : State) : SideId := if s.variant.full && nbit s.c.sys.straps 5 then .b else .a

/-- Commons enable: the units act, and a port whose enables are set begins its calibration (R113, R557). -/
def commonsEnable (s : State) : State :=
  let cal (s : State) (p : RPort) : State := if portRun s p then s.updC fun c => calBegin c p else s
  if s.c.sys.commonsEn then s
  else
    let s1 := (s.updSys fun y => { y with commonsEn := true, step := 7, warmStart := false })
    cal (cal (cal s1 .s) .m) .h

/-- The first lease is granted: a side that is ready is in service, compared if both are (R419, R557, R559). -/
def firstGrant (s : State) (tgt : SideId) : State :=
  let both : Bool := s.c.clasp.readyA && s.c.clasp.readyB
  let s1 := s.updZ fun z =>
    if both then { z with stA := .compared, stB := .compared } else (z.setSt tgt .alone).dropHeld tgt.other
  let s2 := (grant (s1.reach 6) tgt false).updK fun k =>
    { k with drillNext := if k.drillNext.isSome then k.drillNext else nextDrill s1.c s1.c.lt }
  commonsEnable s2

/-- Clasp grants the first lease if it may: to the preferred side; to the other when the preferred one failed to boot or
GRANT_WAIT has passed (R419, R559). -/
def tryGrant (s : State) : State :=
  let p := preferred s
  if s.c.clasp.holder.isSome || s.c.bezel.dead then s
  else if s.c.clasp.ready p then firstGrant s p
  else if s.c.clasp.ready p.other && (s.c.clasp.waitPassed || decide (s.c.sys.boot p = 2)) then firstGrant s p.other
  else s

/-- IMAGE_VERIFY_DONE's effect: a slot or the host's image is tried; a side that fails leaves the first lease to the other, if it
is ready (R559). -/
def verifyImage (s : State) (x : SideId) (factory : Bool) : State :=
  if atStep4 s x then
    let s1 := if bootSource s = 0 then trySlot (s.reach 4) x factory else tryHostImage (s.reach 4) x
    if s1.c.sys.boot x = 2 then tryGrant s1 else s1
  else s

/-! ## Leaving service and refill (R27, R432 to R434) -/

/-- A side leaves service: the other passes its outputs without comparison (R27). -/
def leave (s : State) (x : SideId) : State :=
  let s1 := (endDrill s).updZ fun z =>
    let z1 := (z.setSt x .off).dropHeld x
    match z1.st x.other with
    | .compared | .selfCheck => z1.setSt x.other .alone
    | _ => z1
  s1.upd x fun d => { d with inq := [], outq := [], reports := [] }

/-- A refill of a side from the other one begins: it restarts (R433 step 1). -/
def startRefill (s : State) (x : SideId) (tries : Nat) (fwu : Bool) : State :=
  if s.variant.full && decide (s.c.bezel.st x.other = .alone) && !s.c.bezel.refilling then
    let s1 := s.updZ fun z =>
      { z with refill := some { side := x, tries := tries, phase := 1, fwu := fwu, retryAt := none, copy := 0 } }
    bootSide s1 x false
  else s

/-- A side reports ready (R433, R434, R558, R559). -/
def sideReady (s : State) (x : SideId) : State :=
  if s.c.bezel.st x ≠ .boot ∨ s.c.sys.boot x ≠ 1 then s
  else
    let mine : Option Refill := s.c.bezel.refill.filter fun r => decide (r.side = x) && decide (r.phase = 1)
    match mine with
    | some r => s.updZ fun z => { z with refill := some { r with phase := 2 } }
    | none =>
      if s.c.clasp.holder.isNone then tryGrant (s.updK fun k => k.setReady x true)
      else if s.variant.full then
        if s.c.bezel.st x.other = .alone ∧ !s.c.bezel.refilling then
          s.updZ fun z =>
            { z with refill := some { side := x, tries := 0, phase := 2, fwu := false, retryAt := none, copy := 0 } }
        else s
      else
        let done : Bool := decide (s.a.fw.phase = 2)
        let s1 := s.updZ fun z => z.setSt x .alone
        if done then (s1.event Pg.BEZEL 6).notice .fwuDone else s1

/-! ## State transfer (R361, R433) -/

/-- The part of Locket and Filigree that a refilled side takes from the active one; its own root stays. -/
def KeyState.transferred (own other : KeyState) : KeyState :=
  { other with
    root := own.root, kek := own.kek, ids := own.ids, testRoot := own.testRoot, rootFail := own.rootFail
    loaded := own.loaded, keyless := own.keyless, maxErr := own.maxErr, puf := own.puf, pufDue := own.pufDue
    slots := if own.root.isSome then other.slots else [] }

/-- The registers that a refilled side takes: every side page but the side-local PMB page (R22, R433). -/
def transferRegs (own other : Tab Word) : Tab Word :=
  let local_ (e : Nat × Word) : Bool := decide ((e.1 / 4096) % 128 = Pg.SPMB)
  (own.filter local_).foldl (fun t e => t.put e.1 e.2) (other.filter fun e => !local_ e)

/-- The state of a refilled side: that of the active side at the TRANSFER marker (R433 step 3). -/
def Side.transferred (own other : Side) : Side :=
  { other with
    regs := transferRegs own.regs other.regs
    inq := own.inq, outq := [], reports := []
    key := own.key.transferred other.key
    mram := { other.mram with helper := own.mram.helper, pufUps := own.mram.pufUps }
    fw := { other.fw with run := own.fw.run }
    pmb := own.pmb }

/-- The TRANSFER marker in the active side: its key cache is cleared and a re-mask pass begins (R433 step 2). -/
def Side.transferMark (d : Side) : Side :=
  ({ d with key := { d.key with cache := [], flights := [] } }).ask .remask

/-- The active side consumes TRANSFER: the marker's effects, and the copy as it stands at the marker. -/
def applyTransfer (s : State) (y : SideId) : State :=
  match s.c.bezel.refill with
  | none => s
  | some r =>
    if r.side = y then s
    else
      let fill (d : Side) : Side := if r.fwu ∧ (d.fw.phase = 1 ∨ d.fw.phase = 2) then d.updFw fun k => { k with phase := 3 } else d
      let s1 := s.upd y fun d => fill d.transferMark
      s1.upd r.side fun d => d.transferred (s1.side y)

/-- TRANSFER_MARKER: the marker is sequenced once the refilled side is ready (R433 step 2). -/
def sequenceTransfer (s : State) : State :=
  match s.c.bezel.refill with
  | none => s
  | some r =>
    if r.phase = 2 ∧ s.c.bezel.hold.isNone then
      let n := s.c.bezel.seq
      (s.sequence (.marker (.transfer r.side))).updZ fun z =>
        { (z.setSt r.side .refill) with refill := some { r with phase := 3, copy := n } }
    else s

/-- REFILL_COPY_DONE: the copy, which began at the marker, has ended (R433 step 3). -/
def copyDone (s : State) : State :=
  match s.c.bezel.refill with
  | none => s
  | some r =>
    if r.phase = 3 ∧ r.copy < (s.side r.side.other).point then s.updZ fun z => { z with refill := some { r with phase := 4 } }
    else s

/-- JOIN is sequenced once the refilled side is within 20 µs of the active one (R433 step 5). -/
def sequenceJoin (s : State) : State :=
  match s.c.bezel.refill with
  | none => s
  | some r =>
    let x := s.side r.side
    let y := s.side r.side.other
    if r.phase = 4 ∧ !r.fwu ∧ s.c.bezel.hold.isNone ∧ y.now ≤ 20000 + x.now then
      let n := s.c.bezel.seq
      (s.sequence (.marker (.join r.side))).updZ fun z => { z with refill := some { r with phase := 5 }, joinPoint := n }
    else s

/-- Both sides have consumed JOIN: comparison resumes, outputs of the refilled side from before it are discarded (R433,
R361 step 6). -/
def joinBoth (s : State) : State :=
  match s.c.bezel.refill with
  | none => s
  | some r =>
    let n := s.c.bezel.joinPoint
    if r.phase = 5 ∧ n < s.a.point ∧ n < s.b.point then
      let done : Bool := decide ((s.side r.side.other).fw.phase = 5)
      let s1 := (s.updZ fun z => { z with refill := none, stA := .compared, stB := .compared }).upd r.side fun d =>
        { d with outq := d.outq.filter fun t => decide (n < t.point) }
      let s2 := ((s1.bumpC Pg.BEZEL Reg.BEZEL_REFILLS).event Pg.BEZEL 4).notice (.refillDone r.side)
      if done then (s2.event Pg.BEZEL 6).notice .fwuDone else s2
    else s

/-- FWU_SWAP: the new side has consumed every input that the active side has, and everything the old side offered has
passed: the lease moves at a swap marker, and the old side restarts on the new slot (R361 steps 4 and 5). -/
def updateSwap (s : State) : State :=
  match s.c.bezel.refill with
  | none => s
  | some r =>
    let y := r.side.other
    let held := match y with
      | .a => s.c.bezel.heldA
      | .b => s.c.bezel.heldB
    if r.fwu ∧ r.phase = 4 ∧ s.c.bezel.hold.isNone ∧ (s.side r.side).point = (s.side y).point ∧ (s.side y).outq = [] ∧
        held.isEmpty then
      let s1 := (s.updZ fun z => { (z.setSt r.side .alone) with refill := none }).upd r.side fun d =>
        { d with outq := [], fw := { d.fw with phase := 4, trial := decide (d.fw.run ≠ d.mram.bootSel) } }
      let s2 := leave s1 y
      startRefill (grant (s2.updZ fun z => z.setSt r.side .alone) r.side true) y 0 false
    else s

/-- REFILL_RETRY: RETRY seconds have passed since the attempt that failed (R434); it waits while a SIDE domain is not on
(R528). -/
def retryRefill (s : State) : State :=
  match s.c.bezel.refill with
  | none => s
  | some r => match r.retryAt with
    | some t =>
      if r.phase = 0 ∧ t ≤ s.c.lt ∧ s.c.bezel.st r.side = .off ∧ s.c.pd.dom 1 = .on ∧ s.c.pd.dom 2 = .on then
        startRefill (s.updZ fun z => { z with refill := none }) r.side r.tries false
      else s
    | none => s

/-- FW_UPDATE passed its checks in both sides: the shadow side leaves service and restarts on the other slot (R361); on
the KL9620 side A restarts from step 4 on the other slot (R365). -/
def startUpdate (s : State) : State :=
  if s.variant.full then
    match s.c.clasp.holder with
    | some y => if s.c.bezel.compares then startRefill (leave s y.other) y.other 0 true else failUpdates s 12
    | none => s
  else
    let s1 := s.upd .a fun d => { d.cleared with key := d.key.kept, fw := { FwState.reset with phase := 2 } }
    (s1.updSys fun y => { y with bootA := 0 }).updZ fun z => z.setSt .a .boot

end Sys2Proof.Machine
end

