-- ==== Sys2Proof/Machine/Debug.lean ====
section
/-! DEFINITION. Tamper and Loupe (R306 to R316). -/

namespace Sys2Proof.Machine

open Sys2Proof

/-! ## Tamper (R306 to R312) -/

/-- Tamper and Loupe changed. -/
def State.updTamp (s : State) (f : TampState → TampState) : State := s.updC fun c => { c with tamp := f c.tamp }

/-- LOCKET_x of a side (table "Domains"). -/
def locketDomain : SideId → Nat
  | .a => 3
  | .b => 4

/-- A side's Locket is in retention. -/
def locketSleeps (s : State) (x : SideId) : Bool := decide (s.c.pd.dom (locketDomain x) = .ret)

/-- Domain of the bank of a side's key cache (R514). -/
def cacheDomain : SideId → Nat
  | .a => 52
  | .b => 84

/-- The retained domains of a side's Locket and key cache, zeroized, are treated as off (R309). -/
def sleepersOff (s : State) (x : SideId) : State :=
  let off (p : PdState) (n : Nat) : PdState := if p.dom n = .ret then { p with doms := p.doms.put n .off } else p
  let s1 := if locketSleeps s x then s.upd x Side.locketOff else s
  s1.updC fun c => { c with pd := off (off c.pd (locketDomain x)) (cacheDomain x) }

/-- A key operation is in flight. -/
def keyBusy (s : State) : Bool := !s.a.key.flights.isEmpty || !s.b.key.flights.isEmpty

/-- CAUSE_LT takes the coarse LT of a trip that finds CAUSE zero (R63, R307). -/
def Commons.firstTrip (c : Commons) : Commons :=
  if rd c.regs Pg.TAMP Reg.TAMP_CAUSE = 0 then c.updR fun t => wr t Pg.TAMP Reg.TAMP_CAUSE_LT (w32 (coarseLt c.lt)) else c

/-- The trip as AON records it (R307): bit n, the phase, CAUSE_LT with the first, COUNT. CAUSE_LT is the AON domain's LT, whose
resolution is 30.518 µs (R63). -/
def recordTrip (s : State) (n phase : Nat) : State :=
  s.updC fun c =>
    (c.firstTrip.hwSet Pg.TAMP Reg.TAMP_CAUSE (bitMask n ||| bitMask phase)).count Pg.TAMP Reg.TAMP_COUNT

/-- While Bezel compares, a trip takes the shadow out of service at the moment of the cut; its restart follows when it
consumes the TAMPER event (R311). -/
def dropShadow (s : State) : State :=
  match s.c.clasp.holder with
  | some y =>
    if s.c.bezel.compares then
      (leave s y.other).updZ fun z =>
        { z with refill := some { side := y.other, tries := 0, phase := 0, fwu := false, retryAt := none, copy := 0 } }
    else s
  | none => s

/-- TAMPER_TRIP: an enabled source trips (R306, R307, R309 to R311, R362, R434). -/
def tamperTrip (s : State) (n : Nat) : State :=
  if 7 ≤ n ∨ s.c.sys.porstLow then s
  else
    let s0 := s.updC fun c => { c with tamp := { c.tamp with status := setNBit c.tamperActive n true, statusAt := c.lt } }
    if !rb s.c.regs Pg.TAMP Reg.TAMP_SRC_EN n then s0
    else
      let sleep : Bool := locketSleeps s .a || locketSleeps s .b
      -- DURING_SLEEP in retention, else DURING_OP when an operation was in flight
      let s1 := if sleep then recordTrip s0 n 9 else if keyBusy s then recordTrip s0 n 8 else recordTrip s0 n n
      let s2 := ((s1.updTamp fun k => { k with zeroized := true }).upd .a fun d => d.cutKeys s.c.lt).upd .b fun d => d.cutKeys s.c.lt
      let s3 := if sleep then sleepersOff (sleepersOff s2 .a) .b else s2
      let s4 := if s3.c.bezel.refilling then refillFail s3 4 else s3
      let s5 := dropShadow (failUpdates s4 12)
      (s5.event Pg.TAMP 0).notice .tamper

/-! ## Loupe (R313 to R316) -/

/-- Four TRNG words become the nonce, once they are there; its time runs from the CHALLENGE write (R314 step 1). -/
def takeNonce (c : Commons) : Commons :=
  let k := c.tamp
  match k.asked with
  | none => c
  | some at_ =>
    if 4 ≤ k.trng.length then
      { c with tamp := { k with
        asked := none, trng := k.trng.drop 4
        nonce := some (((k.trng.take 4).map fun w => beBytes 8 w.toNat).flatten, at_) } }
    else c

/-- A TRNG word that was sequenced, as Loupe sees it. -/
def noteTrng (c : Commons) (w : Word64) : Commons :=
  let l := c.tamp.trng ++ [w]
  takeNonce { c with tamp := { c.tamp with trng := l.drop (l.length - 4) } }

/-- CMD.CHALLENGE (R314, R315). -/
def loupeChallenge (c : Commons) : Commons :=
  match c.tamp.lockEnd with
  | some t => if c.lt < t then { c with tamp := { c.tamp with result := 6 } }
              else takeNonce { c with tamp := { c.tamp with asked := some c.lt } }
  | none => takeNonce { c with tamp := { c.tamp with asked := some c.lt } }

/-- Octets of a block of registers, the first octet of each most significant. -/
def regOctets (t : Tab Word) (page off n : Nat) : List Byte :=
  ((List.range n).map fun j => beBytes 4 (rd t page (off + 4 * j)).toNat).flatten

/-- The result of an unlock attempt (R314 step 3). -/
def loupeVerdict (c : Commons) : Nat :=
  let t := c.regs
  let sel := rd t Pg.LOUPE Reg.LOUPE_RESP_SEL
  let key := regOctets t Pg.LOUPE Reg.LOUPE_RESP_KEY 16
  let sig := regOctets t Pg.LOUPE Reg.LOUPE_RESP_SIG 16
  let hash := Config.dbgHash (fld sel 8 8)
  let ttl := 1000000000 * (clampNat 1 255 (rf t Pg.LOUPE Reg.LOUPE_NONCE_TTL 7 0))
  match c.tamp.nonce with
  | none => 1
  | some (nonce, at_) =>
    if at_ + ttl ≤ c.lt then 2
    else if hash = List.replicate 32 0#8 then 3
    else if sha256 key ≠ hash then 4
    else if !ecdsaOk key sig (nonce ++ beBytes 8 (Config.serial 1) ++ [b8 (fld sel 3 0), b8 (fld sel 8 8)]) then 5
    else 0

/-- CMD.OPEN: the checks in order, the nonce consumed; on success Loupe is open and LOUPE_OPEN is sequenced (R314, R315). -/
def loupeOpen (s : State) : State :=
  let r := loupeVerdict s.c
  let sel := rd s.c.regs Pg.LOUPE Reg.LOUPE_RESP_SEL
  let s1 := s.updTamp fun k => { k with nonce := none, result := r }
  if r = 0 then
    let s2 := s1.updTamp fun k => { k with opened := some (fld sel 3 0, bitOf sel 8), fails := 0, lockEnd := none }
    (s2.event Pg.LOUPE 0).notice .loupeOpen
  else
    s1.updTamp fun k =>
      let n := min 0xFFFF (k.fails + 1)
      { k with fails := n
               lockEnd := if 3 ≤ n then some (s.c.lt + 1000000000 * (min 65536 (2 ^ (min 20 (n - 3))))) else k.lockEnd }

/-- CMD.CLOSE: LOUPE_CLOSE is sequenced (R316). -/
def loupeClose (s : State) : State :=
  if s.c.tamp.opened.isSome then
    ((s.updTamp fun k => { k with opened := none }).event Pg.LOUPE 1).notice .loupeClose
  else s

/-- A write to LOUPE.CMD. -/
def writeLoupeCmd (s : State) (v : Word) : State :=
  let s1 := if bitOf v 0 then s.updC loupeChallenge else s
  let s2 := if bitOf v 1 then loupeOpen s1 else s1
  if bitOf v 2 then loupeClose s2 else s2

/-- The lockout ends (R315). -/
def lockoutEnd (s : State) : State :=
  s.updTamp fun k => match k.lockEnd with
    | some t => if t ≤ s.c.lt then { k with lockEnd := none } else k
    | none => k

/-! ## The sides at these events -/

/-- A side consumes LOUPE_OPEN: zeroized, the test counter at 0, and the test root taken unless tamper forbids any root (R259,
R305, R312, R316). -/
def Side.loupeOpens (d : Side) (blocked : Bool) : Side :=
  let d1 := d.zeroize.updKey fun k => { k with loupe := true, testCtr := 0 }
  if blocked then d1 else (d1.takeRoot testRoot true).loadSlots

/-- A side consumes LOUPE_CLOSE: zeroized, LOCKET_x cycled through off, the production root regenerated and reported (R253, R258,
R261, R316). -/
def Side.loupeCloses (d : Side) (x : SideId) (blocked : Bool) : Side :=
  let d1 := (d.zeroize.updKey fun k => { k with loupe := false }).locketOff.locketUp
  ((d1.readPuf x blocked).loadSlots).reportRoot

/-- The shadow that a trip took out of service restarts (R311). -/
def shadowRestarts (s : State) (x : SideId) : State :=
  match s.c.bezel.refill with
  | some r => if r.side = x ∧ r.phase = 0 ∧ r.retryAt = none then
      startRefill (s.updZ fun z => { z with refill := none }) x 0 false else s
  | none => s

end Sys2Proof.Machine
end

