-- ==== Sys2Proof/Machine/Errors.lean ====
section
/-! DEFINITION. Memory errors, loss markers, units disabled with work in flight, the stall monitor (chapter 15). -/

namespace Sys2Proof.Machine

open Sys2Proof

/-! ## Memory errors (R450, R453) -/

/-- The bank of ECC_BANK_x that a place lies in: 24 banks of 1 MiB over the regions of R14 in their order. PRESUMED. -/
def memBank : MemLoc → Nat
  | .nodeEntry n => n / 32768
  | .poolFrame n => 8 + Config.memBank n % 8
  | .cell n => 16 + Config.memBank n % 2
  | .skimEntry n => 18 + n / 65536
  | .keyEntry _ => 20
  | .other b => b
  | .rxBuffer _ => 0

/-- ERR.CFG.LOSS_STRAND. -/
def lossStrand (c : Commons) : Nat := rf c.regs Pg.ERR Reg.ERR_CFG 5 0

/-- The cells that an item holds for a cell number. -/
def TrowelState.itemOf (w : TrowelState) (cell : Nat) : Option (Nat × Origin) :=
  w.items.find? fun e => e.2.cells.contains cell

/-- The frames of an item leave every queue and the pool; a released one ends without a completion. -/
def Side.dropItem (d : Side) (i : Nat) : Side :=
  let gone (f : Frame) : Bool := decide (f.item = some i)
  let keep (e : Nat × List Frame) : Option (Nat × List Frame) :=
    let l := e.2.filter fun f => !gone f
    if l.isEmpty then none else some (e.1, l)
  let d1 := d.updTrowel fun w => { w with queues := w.queues.filterMap keep, items := w.items.del i }
  (d1.updPend fun p => { p with pool := p.pool.filter fun e => !gone e.f }).deactivate

/-- The number of the input that carried an item's frames. -/
def Side.itemSeq (d : Side) (i : Nat) : Nat :=
  let fs := (d.trowel.queues.map fun e => e.2).flatten ++ (d.pend.pool.map fun e => e.f) ++
    d.trowel.released.map fun r => r.f
  match fs.find? fun f => decide (f.item = some i) with
  | some f => f.seq
  | none => 0

/-- A host item destroyed: its marker takes the place of its completion (R453). -/
def Side.loseItem (d : Side) (code i : Nat) (o : Origin) (clear : Option Nat) : Side :=
  let m : LossMark := { strand := d.strandResp o.strand, flow := o.node + 2 ^ 32, clear := clear
                        d := lossDesc code o.tenant o.service o.group o.tag o.node (d.itemSeq i) }
  (d.dropItem i).markDue m

/-- A frame that no host item owns is destroyed: its marker goes to LOSS_STRAND. DEDUCED: R453 names the RESP strand, which
such a frame does not have. -/
def Side.loseFrame (c : Commons) (d : Side) (code : Nat) (f : Frame) (clear : Option Nat) : Side :=
  let keep (e : Nat × List Frame) : Option (Nat × List Frame) :=
    let l := e.2.filter fun g => !decide (g.id = f.id)
    if l.isEmpty then none else some (e.1, l)
  let d1 := d.updTrowel fun w => { w with queues := w.queues.filterMap keep }
  let d2 := d1.updPend fun p => { p with pool := p.pool.filter fun e => decide (e.f.id ≠ f.id) }
  d2.deactivate.markDue { strand := lossStrand c, flow := (if f.node = 0 then 2 ^ 33 + f.id else f.node + 2 ^ 32), clear := clear
                          d := lossDesc code f.tenant f.service f.group 0 f.node f.seq }

/-- The cell is withdrawn from the pool until the side's next reset (R450). -/
def Side.withdraw (d : Side) (n : Nat) : Side :=
  d.updStrand fun k => { k with used := delNat n k.used, gone := insNat n k.gone, data := k.data.del n }

/-- A descriptor of a HOST_OUT ring whose cell is damaged becomes the marker of its frame in place (R453). -/
def loseSlot (n : Nat) (bs : List Byte) (s : Slot) : Slot :=
  if s.cell = some n then
    { s with cell := none, d := lossDesc 1 s.d.tenant s.d.service s.d.group 0 (s.d.key % 2 ^ 32) (leAt bs 32 8) }
  else s

/-- The HOST_OUT ring in which a damaged cell holds a frame that is one item. -/
def Side.ringOfCell (d : Side) (n : Nat) : Option Nat :=
  (d.strand.rings.find? fun e => decide (d.strandDir e.1 = 2) && e.2.slots.any fun s =>
    decide (s.cell = some n) && s.d.first && s.d.last && decide (s.d.ty = tyFrame)).map fun e => e.1

/-- A cell of a side that is alone is damaged: the side after it, or none where the place holds no frame of a flow. -/
def Side.cellLost (c : Commons) (d : Side) (n : Nat) : Option Side :=
  let frames := (d.trowel.queues.map fun e => e.2).flatten
  match d.trowel.itemOf n with
  | some (i, o) => some (((d.withdraw n).freeCellsOf (o.cells.filter fun k => decide (k ≠ n))).loseItem 1 i o none)
  | none => match frames.find? fun f => decide (f.cell = some n) with
    | some f => some (Side.loseFrame c (d.withdraw n) 1 f none)
    | none => match d.mesh.reasm.find? fun r => decide (r.cell = some n) with
      | some r => some ((((d.withdraw n).updMesh fun k =>
          { k with reasm := k.reasm.filter fun x => !x.is r.orig r.tag r.size }).markDue
            { strand := lossStrand c, flow := r.orig, clear := none, d := lossDesc 1 0 0 0 0 r.orig r.seq }))
      | none => match d.ringOfCell n with
        | some k =>
          let bs := d.strand.cellData n
          let d1 := (d.withdraw n).updRing k fun r => { r with slots := r.slots.map (loseSlot n bs) }
          some { d1 with reports := d1.reports ++ [Report.lossMarker] }
        | none => none

/-- An uncorrectable error in a side that is alone (table "Uncorrectable memory errors"): the side after it, none where the
side stops. -/
def Side.lost (c : Commons) (d : Side) : MemLoc → Option Side
  | .cell n => d.cellLost c n
  | .nodeEntry n => some (d.removeNode n)
  | .skimEntry n => some { d with mesh := { d.mesh with skim := d.mesh.skim.del n } }
  | .keyEntry n => some { d with key := { d.key with cache := d.key.cache.del n } }
  | .poolFrame n => match d.pend.pool[n]? with
    | some e =>
      let last := (d.pend.pool.filter fun p => decide (p.f.node = e.f.node)).length = 1
      let clear := if last then some e.f.node else none
      match e.f.item with
      | some i => match d.trowel.items.find i with
        | some o => some ((d.freeCellsOf o.cells).loseItem 2 i o clear)
        | none => some (d.loseFrame c 2 e.f clear)
      | none => some (d.loseFrame c 2 e.f clear)
    | none => none
  | .other _ | .rxBuffer _ => none

/-- The counters and the bank of a side's memory error (R450). -/
def countMem (s : State) (x : SideId) (loc : MemLoc) (correctable : Bool) : State :=
  let a := decide (x = .a)
  if correctable then s.bumpC Pg.ERR (if a then Reg.ERR_ECC_CORR_A else Reg.ERR_ECC_CORR_B)
  else
    let off := if a then Reg.ERR_ECC_BANK_A else Reg.ERR_ECC_BANK_B
    let s1 := s.bumpC Pg.ERR (if a then Reg.ERR_ECC_UNC_A else Reg.ERR_ECC_UNC_B)
    let s2 := s1.updC fun c => c.hwSet Pg.ERR off (bitMask (memBank loc % 24))
    s2.updC fun c => c.err Pg.ERR (if a then 0 else 1)

/-- A frame cell that is free. -/
def Side.cellFree (d : Side) (n : Nat) : Bool := d.strand.freeCells.contains n

/-- The frames of a side whose PSDU lies in a cell: those of the item that holds it, or the one that holds it itself. -/
def Side.cellFlights (d : Side) (n : Nat) : List Nat :=
  let item := (d.trowel.itemOf n).map (·.1)
  (d.trowel.released.filter fun r => decide (r.f.cell = some n) || (item.isSome && decide (r.f.item = item))).map fun r => r.f.id

/-- Launches that have passed and not started, whose frame cell was lost, complete ABORTED (R97). -/
def launchesLost (s : State) (ids : List Nat) : State :=
  let hit (l : Launch) : Bool := ids.contains l.id
  let lost (k : Carrier) : List Launch :=
    k.arrivals.filter hit ++ (k.queue.map (·.1)).filter hit ++ (k.held.map (·.launch)).filter hit ++
    ((k.bursts.filter fun b => !b.phase.started && !b.isAck).map (·.launch)).filter hit
  let port (s : State) (p : RPort) : State :=
    let gone := ((s.c.port p).carriers.map lost).toList.flatten
    let s1 := s.updC fun c => c.updPort p fun q => { q with carriers := q.carriers.map fun k =>
      { arrivals := k.arrivals.filter fun l => !hit l, queue := k.queue.filter fun e => !hit e.1
        held := k.held.filter fun e => !hit e.launch
        bursts := k.bursts.filter fun b => b.isAck || b.phase.started || !hit b.launch } }
    gone.foldl (fun a l => completeLaunch a l stAborted l.lt 0) s1
  port (port (port s .s) .m) .h

/-- The frames now being received, by port and lane: they follow the waiting ones in the commons receive buffer. -/
def Commons.receiving (c : Commons) : List (RPort × Nat) :=
  (c.rfS.lanes.map fun l => (.s, l.no)) ++ (c.rfM.lanes.map fun l => (.m, l.no)) ++ c.rfH.lanes.map fun l => (.h, l.no)

/-- A damaged cell of the commons receive buffer (R450): a frame that waits there is dropped for both sides and counted by the
air-access unit (R20, DEDUCED: in RX_OVERRUN, its count of frames it drops for want of a cell); a frame still being received is
lost with its lane, which closes ABORTED (R145). -/
def rxCellLost (c : Commons) (n : Nat) : Commons :=
  if n < c.air.rxbuf.length then
    ({ c with air := { c.air with rxbuf := c.air.rxbuf.eraseIdx n } } : Commons).count Pg.AIR Reg.AIR_RX_OVERRUN
  else match c.receiving[n - c.air.rxbuf.length]? with
    | some (p, no) => closeLane c p no p.facetPage Reg.FACET_ABORTED
    | none => c

/-- A memory error (R450): counted, then handled by its location. -/
def memoryError (s : State) (x : SideId) (loc : MemLoc) (correctable : Bool) : State :=
  match loc with
  | .rxBuffer n => if correctable then s else s.updC fun c => rxCellLost c n
  | _ =>
    if s.c.bezel.quiet x then s
    else
      let s1 := countMem s x loc correctable
      if correctable then s1
      else match loc with
        | .cell n =>
          if (s.side x).cellFree n then s1.upd x fun d => d.withdraw n
          else if s.c.bezel.st x = .alone then match (s1.side x).lost (s1.side x).view loc with
            | some d => launchesLost (s1.upd x fun _ => d) ((s1.side x).cellFlights n)
            | none => sideError s1 x
          else sideError s1 x
        | _ =>
          if s.c.bezel.st x = .alone then match (s1.side x).lost (s1.side x).view loc with
            | some d => s1.upd x fun _ => d
            | none => sideError s1 x
          else sideError s1 x

/-- LOSS_MARKER_PUSH: the oldest due marker with a place is pushed, its flow is released, and a CLEAR that was to come follows
it (R454, R455). -/
def Side.lossPush (d : Side) (lt : Nat) : Side :=
  let e := d.pushMark lt
  match e.1 with
  | some m => match m.clear with
    | some mesh => if e.2.hasParked mesh then e.2 else e.2.unannounce mesh
    | none => e.2
  | none => e.2

/-! ## CTRL (R457 to R460, table "CTRL fields") -/

/-- Pages whose ENABLE is fixed (R474). -/
def fixedPages : List Nat :=
  [Pg.LATH, Pg.PLUMB, Pg.TAMP, Pg.LOUPE, Pg.SEM, Pg.CLASP, Pg.BEZEL, Pg.CEVT, Pg.HOSTA, Pg.HOSTB, Pg.PD, Pg.PMB, Pg.CLK, Pg.RST,
   Pg.ERR, Pg.DISP, Pg.STRAND, Pg.SEVT, Pg.LOCKET, Pg.HALL, Pg.MRAM, Pg.SPMB]

/-- What a CTRL write does to a unit: nothing, stop it, start it. -/
inductive CtrlAct where
  | none_ | stop | start
  deriving DecidableEq, Repr

/-- The registers after a CTRL write: EXPERT unless EXP_LOCK holds it; ENABLE with DISABLE_PENDING and the held enable
(R457, R460, R471). -/
def ctrlWrite (t : Tab Word) (page : Nat) (v : Word) : CtrlAct × Tab Word :=
  let was := rd t page Reg.HDR_CTRL
  let expert := if rb t page Reg.HDR_LOCK 1 then bitOf was 1 else bitOf v 1
  let set (en : Bool) : Tab Word := wr t page Reg.HDR_CTRL (w32 (b2n en + 2 * b2n expert))
  let stat := rd t page Reg.HDR_STAT
  if fixedPages.contains page then (.none_, set true)
  else if bitOf stat 2 then (.none_, set (bitOf v 0))
  else if bitOf stat 0 && !bitOf v 0 then (.stop, wr (set false) page Reg.HDR_STAT (setBit stat 2 true))
  else if !bitOf stat 0 && bitOf v 0 then (.start, wr (set true) page Reg.HDR_STAT (setBit stat 0 true))
  else (.none_, set (bitOf v 0))

/-- An RF port is disabled: launches not started complete ABORTED, bound frames close ABORTED (table "Disable outcomes"). An
acknowledgement that is prepared is still sent (R167). -/
def disablePort (s : State) (p : RPort) : State :=
  let dead (k : Carrier) : List Launch :=
    k.arrivals ++ k.queue.map (·.1) ++ k.held.map (·.launch) ++
    (k.bursts.filter fun b => !b.phase.started && !b.isAck).map (·.launch)
  let gone := ((s.c.port p).carriers.map dead).toList.flatten
  let s1 := s.updC fun c => c.updPort p fun q => { q with carriers := q.carriers.map fun k =>
    { arrivals := [], queue := [], held := [], bursts := k.bursts.filter fun b => b.phase.started || b.isAck } }
  let s2 := gone.foldl (fun a l => completeLaunch a l stAborted l.lt 0) s1
  s2.updC fun c => closeLanes c p (fun _ => true) p.facetPage Reg.FACET_ABORTED

/-- Trowel is disabled: the queued frames complete ABORTED in queue order. -/
def Side.disableTrowel (d : Side) (lt : Nat) : Side :=
  let gone := (d.trowel.queues.map fun e => e.2).flatten
  (gone.foldl (fun a f => a.outcome lt f (underDisable 7)) (d.updTrowel fun w => { w with queues := [] })).deactivate

/-- PEND is disabled: the parked frames complete ABORTED, each node's CLEAR after its last frame. -/
def Side.disablePend (d : Side) (lt : Nat) : Side :=
  (d.pend.pool.filter fun p => !p.inFlight).foldl (fun a p => (a.takeParked p.f).outcome lt p.f (underDisable 7)) d

/-- The work in flight of a commons unit whose ENABLE is cleared (table "Disable outcomes"). -/
def commonsStops (s : State) (page : Nat) : State :=
  if page = Pg.RFS then disablePort s .s
  else if page = Pg.RFM then disablePort s .m
  else if page = Pg.RFH then disablePort s .h
  else if page = Pg.IBE ∧ (s.c.ibe.phase = 1 ∨ s.c.ibe.phase = 2) then ibeFinish s 4
  else s

/-- The work in flight of a side unit whose ENABLE is cleared. -/
def Side.stops (d : Side) (lt page : Nat) : Side :=
  if page = Pg.TROWEL then d.disableTrowel lt else if page = Pg.PEND then d.disablePend lt else d

/-- CTRL of a commons page written. -/
def writeCtrlC (s : State) (page : Nat) (v : Word) : State :=
  let e := ctrlWrite s.c.regs page v
  let s1 := s.updR fun _ => e.2
  match e.1 with
  | .stop => commonsStops s1 page
  | _ => s1

/-- CTRL of a side page written. -/
def Side.writeCtrl (d : Side) (lt page : Nat) (v : Word) : Side :=
  let e := ctrlWrite d.regs page v
  let d1 : Side := { d with regs := e.2 }
  match e.1 with
  | .stop => d1.stops lt page
  | _ => d1

/-- A port holds no bound frame and no burst that has started (R459). -/
def portDrained (c : Commons) (p : RPort) : Bool :=
  (c.port p).lanes.isEmpty && (c.port p).carriers.all fun k => k.bursts.all fun b => decide (b.phase = .ended)

/-- A commons unit holds no accepted work (R470). -/
def commonsIdle (c : Commons) (page : Nat) : Bool :=
  if page = Pg.RFS then portDrained c .s
  else if page = Pg.RFM then portDrained c .m
  else if page = Pg.RFH then portDrained c .h
  else if page = Pg.FACET then c.rfS.lanes.isEmpty
  else if page = Pg.FACET + 1 then c.rfM.lanes.isEmpty
  else if page = Pg.FACET + 2 then c.rfH.lanes.isEmpty
  else if page = Pg.IBE then decide (c.ibe.phase ≠ 1 ∧ c.ibe.phase ≠ 2)
  else if page = Pg.ETH0 then c.eth0.tx.isEmpty
  else if page = Pg.ETH1 then c.eth1.tx.isEmpty
  else if page = Pg.AIR then c.air.updates.isEmpty && decide (c.air.cellsUsed = 0)
  else true

/-- A side unit holds no accepted work (R470). -/
def Side.unitIdle (d : Side) (page : Nat) : Bool :=
  if page = Pg.TROWEL then d.trowel.released.isEmpty && d.trowel.queues.isEmpty
  else if page = Pg.PEND then d.pend.pool.isEmpty
  else if page = Pg.NODE then d.node.held.isEmpty && d.node.writes.isEmpty
  else if page = Pg.SKIM then d.mesh.relays.isEmpty
  else if page = Pg.PCAM then d.node.camOld.isNone
  else if page = Pg.FILIG then d.key.flights.isEmpty
  else true

/-- The unit's draining ends: it is disabled, or enabled where an enable is held (R457, R460). -/
def drainEnds (t : Tab Word) (page : Nat) : Tab Word :=
  if rb t page Reg.HDR_STAT 2 then wr t page Reg.HDR_STAT (w32 (b2n (rb t page Reg.HDR_CTRL 0))) else t

/-- The unit of a page index has nothing left in flight, so its draining ends (R457, R459). Side B pages are 96 and up. -/
def disableDone (s : State) (page : Nat) : State :=
  if page < 64 then if commonsIdle s.c page then s.updR fun t => drainEnds t page else s
  else
    let x := if page < 96 then SideId.a else SideId.b
    let pg := 64 + page % 32
    s.upd x fun d => if d.unitIdle pg then d.updR fun t => drainEnds t pg else d

/-! ## The stall monitor (R465) -/

/-- STALL_TO in ns; a value of 0 is stored as 1. -/
def stallNs (c : Commons) : Nat := 1000000 * (max 1 (rf c.regs Pg.ERR Reg.ERR_CFG 15 8))

/-- The first stalled push of a strand for which the stall has lasted too long and is not recorded yet. -/
def Side.longStall (d : Side) (c : Commons) (n : Nat) : Bool :=
  (d.ring n).stalled.any fun p => !p.raised && decide (p.since + stallNs c < d.now)

/-- The stall of a strand recorded once: the ERR page takes it from the active side (R450, R465). -/
def stallSeen (s : State) (x : SideId) (n : Nat) : State :=
  if (s.side x).longStall (s.side x).view n then
    let lim := stallNs (s.side x).view
    let note (now : Nat) (p : Push) : Push := if p.since + lim < now then { p with raised := true } else p
    let s1 := s.upd x fun d => d.updRing n fun r => { r with stalled := r.stalled.map (note d.now) }
    if activeSide s = x then
      (s1.bumpC Pg.ERR Reg.ERR_STALLS).updC fun c =>
        let c1 := (c.err Pg.ERR 4).updR fun t => wr t Pg.ERR Reg.ERR_STALL_STRAND (w32 (n % 64 + (if x = .a then 0 else 256)))
        c1.errEvent 1
    else s1
  else s

end Sys2Proof.Machine
end

