-- ==== Sys2Proof/Machine/Hosts.lean ====
section
/-! DEFINITION. Host ports, the management chain's frames and the Ethernet MACs (chapter 17), with the message timing of the
commons EVT page (chapter 16). -/

namespace Sys2Proof.Machine

open Sys2Proof

/-! ## Messages (R485, R494) -/

/-- The MOD table of a port. -/
def EvtState.mod (e : EvtState) (second : Bool) : Tab (Nat × Bool) := if second then e.modB else e.modA

/-- The MOD table of a port replaced. -/
def EvtState.setMod (e : EvtState) (second : Bool) (t : Tab (Nat × Bool)) : EvtState :=
  if second then { e with modB := t } else { e with modA := t }

/-- The MOD interval of a vector ends: a message that waited goes out once and opens the next interval (R485). -/
def modEnd (c : Commons) (second : Bool) (vec : Nat) : Commons :=
  match (c.evt.mod second).find vec with
  | none => c
  | some (until_, waits) =>
    if c.lt < until_ then c
    else
      let c1 : Commons := { c with evt := c.evt.setMod second ((c.evt.mod second).del vec) }
      if waits then c1.messageDue second vec else c1

/-- The pending bits of a port whose vectors are not held any more go out (R494). -/
def Commons.flushPba (c : Commons) (second : Bool) : Commons :=
  ((c.host second).pba.filter fun v => !(c.host second).holds v).foldl (fun a v =>
    (a.updHost second fun h => { h with pba := h.pba.filter fun p => decide (p ≠ v) }).message second v) c

/-- A condition that holds messages ends (R494): the mask of one vector, or with a number past the 64 vectors the conditions
of the whole port, which the host ends in its configuration space. -/
def unmask (c : Commons) (second : Bool) (vec : Nat) : Commons :=
  let c1 := c.updHost second fun h =>
    if vec < 64 then { h with masked := delNat vec h.masked }
    else { h with funcMask := false, msixEn := true, bme := true }
  c1.flushPba second

/-! ## Resets of a port (R496) -/

/-- The counters of a HOSTx page. -/
def hostCounters : List Nat :=
  [Reg.HOST_WR_TLP, Reg.HOST_RD_TLP, Reg.HOST_UR, Reg.HOST_RD_FAIL, Reg.HOST_LINK_DOWN, Reg.HOST_FLR, Reg.HOST_ITEM_DISCARD]

/-- The requester of a host port. -/
def portOf (second : Bool) : Requester := if second then .hostB else .hostA

/-- A host port is reset: the counters and status of its page, its MSI-X table, pending bits and ARMED bits; its sides' part
is sequenced behind the writes it has accepted. DEDUCED: the event's own counter counts it after the reset. -/
def hostPortReset (s : State) (second : Bool) (kind : PortReset) : State :=
  let page := hostPage second
  let own := match kind with
    | .flr => [Reg.HOST_FLR]
    | .linkLoss => [Reg.HOST_LINK_DOWN]
    | .perst => []
  let s1 := s.updR fun t =>
    own.foldl (fun t o => bump t page o) (hostCounters.foldl (fun t o => wr t page o 0) t)
  let s2 := s1.updC fun c =>
    let c1 := c.updHost second fun h =>
      { h with up := (match kind with
                 | .flr => h.up
                 | _ => false)
               speed := (match kind with
                 | .flr => h.speed
                 | _ => 0)
               width := (match kind with
                 | .flr => h.width
                 | _ => 0)
               bme := false, msixEn := false, funcMask := false, masked := List.range 64, pba := [], addrs := [], datas := [] }
    { c1 with evt := if second then { c1.evt with disarmedB := [] } else { c1.evt with disarmedA := [] } }
  s2.offer (portOf second).source (.portReset (portOf second))

/-- The descriptors of a ring after its last complete item, stalled ones included: how many stored and how many stalled ones
belong to the open item. -/
def Ring.openPart (r : Ring) : Nat × Nat :=
  let back := (r.stalled.reverse.takeWhile fun p => !p.d.last).length
  if r.stalled.any fun p => p.d.last then (0, back) else (r.openLen, r.stalled.length)

/-- Who began the open item of a ring. -/
def Ring.opener (r : Ring) : Option Requester :=
  match (r.slots.drop (r.slots.length - r.openPart.1)).head? with
  | some s => s.by_
  | none => match (r.stalled.drop (r.stalled.length - r.openPart.2)).head? with
    | some p => p.by_
    | none => none

/-- A port's open item leaves a ring whole, with FLUSH_PARTIAL set (R390, R496). -/
def Ring.discardOpen (r : Ring) (depth : Nat) : Ring :=
  let k := r.openPart
  { r with slots := r.slots.take (r.slots.length - k.1), stalled := r.stalled.take (r.stalled.length - k.2)
           wpt := (r.wpt + depth - k.1) % (max 1 depth), flushPartial := true }

/-- What a port's reset does in a side: its staging is discarded, and each item that it left open (R496). -/
def Side.portReset (d : Side) (r : Requester) : Side :=
  let d1 := d.updStrand fun k => { k with stage := k.stage.filter fun e => !decide (e.1 / 8 = stageOf r) }
  let mine := d1.strand.rings.filter fun e =>
    decide (d1.strandDir e.1 = 1) && decide (0 < e.2.openPart.1 + e.2.openPart.2) && decide (e.2.opener = some r)
  mine.foldl (fun a e =>
    let a1 := a.updRing e.1 fun q => q.discardOpen (a.strandDepth e.1)
    { a1 with reports := a1.reports ++ [Report.itemDiscard (decide (r = .hostB))] }) d1

/-! ## Chain frames (R499 to R503) -/

/-- ADDR and OP of a chain frame's first byte. -/
def chainAddr (fr : List Byte) : Nat := byteAt fr 0 / 4

/-- OP of a chain frame. -/
def chainOp (fr : List Byte) : Nat := byteAt fr 0 % 4

/-- The length of a frame by its OP, and how many of its bytes its CRC covers. -/
def chainLen (op : Nat) : Nat := if op = 0 then 9 else if op = 1 then 5 else if op = 2 then 7 else 3

/-- The BAR0 offset that a WRITE or READ carries. -/
def chainOff (fr : List Byte) : Nat := beNat (slice fr 1 3)

/-- A frame is addressed to this unit: its address, a broadcast, or for SET_ADDRESS an unaddressed unit whose CHN_ENI is
high (R500, R502). -/
def chainMine (c : Commons) (fr : List Byte) : Bool :=
  if chainOp fr = 3 then decide (chainAddr fr = 0) && decide (c.chain.addr = 0) && c.chain.eni
  else (decide (c.chain.addr ≠ 0) && decide (chainAddr fr = c.chain.addr)) || decide (chainAddr fr = 63)

/-- Why a frame is ignored (R500): none, its CRC, or its form. DEDUCED: what is neither a length nor a CRC counts in LEN_ERR. -/
def chainBad (fr : List Byte) : Option Nat :=
  let op := chainOp fr
  let n := chainLen op
  if fr.length ≠ n then some Reg.CHAIN_LEN_ERR
  else if op ≠ 2 ∧ crc8 (fr.take (n - 1)) ≠ byteAt fr (n - 1) then some Reg.CHAIN_CRC_ERR
  else if op < 2 ∧ (chainOff fr % 4 ≠ 0 ∨ 0x9FFFF < chainOff fr) then some Reg.CHAIN_LEN_ERR
  else if chainAddr fr = 63 ∧ op ≠ 0 then some Reg.CHAIN_LEN_ERR
  else none

/-- A frame taken or refused: counted, with CRC_ERR of the next FETCH (table "FETCH STATUS bits"). -/
def chainTake (s : State) (op : Nat) (fr : List Byte) (f : State → State) : State :=
  if chainOp fr ≠ op ∨ !chainMine s.c fr ∨ !unitOn s.c.regs Pg.CHAIN then s
  else match chainBad fr with
    | some off => (s.bumpC Pg.CHAIN off).updC fun c => { c with chain := { c.chain with crcErr := true } }
    | none => f (s.bumpC Pg.CHAIN Reg.CHAIN_FRAMES)

/-- A FETCH: STATUS, the data of the completed READ, and the CRC are driven; a completed read ends (R501). -/
def chainFetch (s : State) : State :=
  let h := s.c.chain
  let done : Option Word := match h.rd with
    | some (_, v) => v
    | none => none
  let status := b2n done.isSome + 2 * b2n h.crcErr + 4 * h.addr
  let body := b8 status :: beBytes 4 ((done.getD 0).toNat)
  s.updC fun c => { c with chain := { c.chain with
    crcErr := false, rd := (if done.isSome then none else h.rd), out := body ++ [b8 (crc8 body)] } }

/-- SET_ADDRESS: the unit takes its address and raises CHN_ENO (R502). -/
def setAddress (s : State) (frame : List Byte) : State :=
  let a := byteAt frame 1 % 64
  if a = 0 ∨ a = 63 then s else s.updC fun c => { c with chain := { c.chain with addr := a, eno := true } }

/-- CMD.CLR_ADDR: the address returns to 0 and CHN_ENO falls (R503). -/
def clrAddr (c : Commons) : Commons := { c with chain := { c.chain with addr := 0, eno := false } }

/-! ## Ethernet receive (R505, R506, R509) -/

/-- The MAC address of a page's pair of registers. -/
def ethMac (c : Commons) (second : Bool) (lo hi : Nat) : Nat :=
  (rd c.regs (ethPage second) lo).toNat + rf c.regs (ethPage second) hi 15 0 * 2 ^ 32

/-- The EtherType of a frame, after a tag. -/
def etherType (bs : List Byte) : Nat := if beNat (slice bs 12 2) = 0x8100 then beNat (slice bs 16 2) else beNat (slice bs 12 2)

/-- The VID of a frame, 0 when untagged. -/
def vidOf (bs : List Byte) : Nat := if beNat (slice bs 12 2) = 0x8100 then beNat (slice bs 14 2) % 4096 else 0

/-- Multicast addresses of PTP. PRESUMED: those of IEEE 1588-2019. -/
def ptpMulticast : List Nat :=
  [0x011B19000000, 0x0180C200000E, 0x01005E000181, 0x01005E00006B, 0x333300000181, 0x33330000006B]

/-- The PTP message that a frame carries, with its transport: 0 Ethernet, 1 UDP over IPv4, 2 UDP over IPv6. -/
def ptpOf (bs : List Byte) : Option (Nat × List Byte) :=
  let p := ethPayload bs
  let ports (udp : List Byte) : Bool := decide (beNat (slice udp 2 2) = 319 ∨ beNat (slice udp 2 2) = 320)
  if etherType bs = 0x88F7 then some (0, p)
  else if etherType bs = 0x0800 ∧ byteAt p 9 = 17 ∧ ports (p.drop (byteAt p 0 % 16 * 4)) then
    some (1, p.drop (byteAt p 0 % 16 * 4 + 8))
  else if etherType bs = 0x86DD ∧ byteAt p 6 = 17 ∧ ports (p.drop 40) then some (2, p.drop 48)
  else none

/-- A PTP event message: message types 0 to 3. PRESUMED: those of IEEE 1588-2019. -/
def ptpEvent (m : List Byte) : Bool := decide (byteAt m 0 % 16 < 4)

/-- Step 1 of the receive steps: the destination is accepted. -/
def ethDest (c : Commons) (second : Bool) (bs : List Byte) : Bool :=
  let dst := beNat (slice bs 0 6)
  let page := ethPage second
  decide (dst = ethMac c second Reg.ETH_MAC_LO Reg.ETH_MAC_HI) || decide (dst = 0xFFFFFFFFFFFF) ||
  ((List.range 16).any fun i =>
    bitOf (rdI c.regs page Reg.ETH_MC_HI i) 31 &&
    decide (dst = (rdI c.regs page Reg.ETH_MC_LO i).toNat + fld (rdI c.regs page Reg.ETH_MC_HI i) 15 0 * 2 ^ 32)) ||
  (rb c.regs page Reg.ETH_PTP_CFG 0 && ptpMulticast.contains dst)

/-- The tenant for which a VID is enabled. -/
def vidTenant (c : Commons) (second : Bool) (vid : Nat) : Option Nat :=
  ((bankEntries c.regs (ethPage second) Reg.ETH_VID_MAP).find? fun e => bitOf e.2 15 && decide (fld e.2 11 0 = vid)).map (·.1)

/-- Step 2: the tenant of a frame. -/
def ethTenant (c : Commons) (second : Bool) (bs : List Byte) : Option Nat :=
  let vid := vidOf bs
  if vid ≠ 0 then vidTenant c second vid
  else if rb c.regs (ethPage second) Reg.ETH_CLASS 24 then some (rf c.regs (ethPage second) Reg.ETH_DEF_TENANT 9 0) else none

/-- Steps 3 to 5: the class of a frame, or the register in which its drop counts. -/
def ethClass (c : Commons) (second : Bool) (bs : List Byte) : Except Nat Nat :=
  let cfg := rd c.regs (ethPage second) Reg.ETH_PTP_CFG
  let other : Except Nat Nat := if etherType bs = 0x86DD then .ok 1
    else if rb c.regs (ethPage second) Reg.ETH_CLASS 0 then .ok 2 else .error Reg.ETH_RX_OTHER
  if bitOf cfg 0 then match ptpOf bs with
    | some (tr, m) => if bitOf cfg (1 + tr) ∧ byteAt m 4 = fld cfg 15 8 then .ok 0 else .error Reg.ETH_PTP_DOMAIN
    | none => other
  else other

/-- The input source of a MAC. -/
def ethSource (second : Bool) : InputSource := if second then .eth1 else .eth0

/-- Octets of a MAC's receive buffer in use: its frames that wait at the sequencer (R21, R506). -/
def ethWaiting (s : State) (second : Bool) : Nat :=
  (s.c.bezel.waiting.map fun w => if w.1 = ethSource second then match w.2 with
    | .ethFrame f => f.bytes.length
    | _ => 0 else 0).sum

/-- An MTU as used: from 1,298 to 9,216. -/
def ethMtu (c : Commons) (second : Bool) : Nat := clampNat 1298 9216 (rf c.regs (ethPage second) Reg.ETH_MTU 13 0)

/-- A MAC exists, is enabled and its link is up. -/
def ethRuns (s : State) (second : Bool) : Bool :=
  (!second || s.variant.full) && commonsUp s && (s.c.eth second).up

/-- The registers of the MACs in force for a frame whose reception ends now: a write takes effect for the frames whose reception
ends in a later cycle (chapter 17). -/
def ethInForce (c : Commons) : Tab Word := if c.writes.lt = c.lt then c.writes.eth else c.regs

/-- A MAC receives a frame, given with its FCS: it is dropped with a count, or sequenced with its class, its tenant and, for a
PTP event message, its timestamp (R505, R506, R509). -/
def ethRx (s : State) (second : Bool) (frame : List Byte) (fcsOk : Bool) (ts : Nat) : State :=
  let page := ethPage second
  let drop (off : Nat) : State := s.bumpC page off
  let bs := frame.take (frame.length - 4)
  let k : Commons := { s.c with regs := ethInForce s.c }
  if !ethRuns s second ∨ !unitOn k.regs page ∨ !rb k.regs page Reg.ETH_MODE 4 then s
  else if !fcsOk ∨ ethMtu k second < frame.length then drop Reg.ETH_RX_BAD
  else if !ethDest k second bs then drop Reg.ETH_RX_FILT
  else match ethTenant k second bs with
    | none => drop Reg.ETH_RX_VID
    | some t => match ethClass k second bs with
      | .error off => drop off
      | .ok cls =>
        if 65536 < ethWaiting s second + bs.length then drop Reg.ETH_RX_OVERRUN
        else
          let event : Bool := match ptpOf bs with
            | some m => decide (cls = 0) && ptpEvent m.2
            | none => false
          let trim := signed 16 (rf k.regs page Reg.ETH_RX_TRIM 15 0)
          let stamp := if event then ((ts : Int) + trim).toNat else 0
          let s1 := s.bumpC page Reg.ETH_RX_OK
          (if event then s1.bumpC page Reg.ETH_PTP_TS else s1).offer (ethSource second)
            (.ethFrame { second := second, cls := cls, tenant := t, ts := stamp, bytes := bs })

/-! ## Ethernet transmit (R507 to R509) -/

/-- An IPv6 packet framed for the wire: to GW_MAC, from the MAC address, with the tag of its tenant's VID where one is
enabled (R507). -/
def ethFramed (c : Commons) (second : Bool) (tenant : Nat) (p : List Byte) : List Byte :=
  let m := rdI c.regs (ethPage second) Reg.ETH_VID_MAP tenant
  beBytes 6 (ethMac c second Reg.ETH_GW_MAC_LO Reg.ETH_GW_MAC_HI) ++ beBytes 6 (ethMac c second Reg.ETH_MAC_LO Reg.ETH_MAC_HI) ++
  (if bitOf m 15 then beBytes 2 0x8100 ++ beBytes 2 (fld m 11 0) else []) ++ beBytes 2 0x86DD ++ p

/-- The completion of a frame released to a MAC, sequenced to both sides. -/
def ethFinish (s : State) (second : Bool) (id status ts : Nat) : State := s.offer .units (.ethDone second id status ts)

/-- A frame released to a MAC: queued for the wire, or ABORTED with the link down (R508). -/
def ethSend (s : State) (second : Bool) (id tenant : Nat) (p : List Byte) : State :=
  if (s.c.eth second).up ∧ unitOn s.c.regs (ethPage second) then
    s.updC fun c => c.updEth second fun e => { e with tx := e.tx ++ [(id, ethFramed c second tenant p)] }
  else if (s.c.eth second).up then ethFinish s second id 7 0
  else ethFinish (s.bumpC (ethPage second) Reg.ETH_TX_LINKDOWN) second id 7 0

/-- A MAC has sent its oldest frame: counted, and completed with the transmit timestamp of a PTP event message (R509). -/
def ethSent (s : State) (second : Bool) (ts : Nat) : State :=
  let page := ethPage second
  if !ethRuns s second ∨ !rb s.c.regs page Reg.ETH_MODE 3 then s
  else match (s.c.eth second).tx with
    | [] => s
    | (id, bs) :: rest =>
      let event : Bool := match ptpOf bs with
        | some m => ptpEvent m.2
        | none => false
      let trim := signed 16 (rf s.c.regs page Reg.ETH_TX_TRIM 15 0)
      let s1 := (s.updC fun c => c.updEth second fun e => { e with tx := rest }).bumpC page Reg.ETH_TX_OK
      if event then ethFinish (s1.bumpC page Reg.ETH_PTP_TS) second id 0 ((ts : Int) + trim).toNat
      else ethFinish s1 second id 0 0

/-- A MAC's link changes: LINK follows, and going down it completes the frames it holds ABORTED (R508). DEDUCED for frames
released before. -/
def ethLink (s : State) (second up : Bool) (speed : Nat) : State :=
  let s1 := s.updC fun c => c.updEth second fun e => { e with up := up, speed := if up then speed % 4 else 0 }
  if up then s1
  else
    let held := (s.c.eth second).tx
    held.foldl (fun a f => ethFinish (a.bumpC (ethPage second) Reg.ETH_TX_LINKDOWN) second f.1 7 0)
      (s1.updC fun c => c.updEth second fun e => { e with tx := [] })

/-- A write to VID_MAP of the selected tenant, or VID_DUP (R507). -/
def writeVidMap (c : Commons) (second : Bool) (v : Word) : Commons :=
  let page := ethPage second
  let t := rf c.regs page Reg.ETH_VID_IDX 9 0
  let vid := fld v 11 0
  let dup : Bool := match vidTenant c second vid with
    | some o => decide (o ≠ t)
    | none => false
  if bitOf v 15 ∧ (dup ∨ vid = 0 ∨ vid = 4095) then c.err page 0
  else c.updR fun r => wrI r page Reg.ETH_VID_MAP t (w32 (vid + (if bitOf v 15 then 0x8000 else 0)))

end Sys2Proof.Machine
end

