-- ==== Sys2Proof/Machine/Power.lean ====
section
/-! DEFINITION. Power domains, retained memory, wakes, the wake I2C target and the PMBus ports (chapter 18). -/

namespace Sys2Proof.Machine

open Sys2Proof

/-! ## Domains (R512 to R517) -/

/-- The PD page changed. -/
def State.updPd (s : State) (f : PdState → PdState) : State := s.updC fun c => { c with pd := f c.pd }

/-- The domain exists on the variant (R1, R512). -/
def domPresent (v : Variant) (n : Nat) : Bool :=
  if n = 7 ∨ n = 10 then v.hasPort .s
  else if n = 8 ∨ (11 ≤ n ∧ n ≤ 13) then v.hasPort .m
  else if n = 9 ∨ n = 14 ∨ n = 15 then v.hasPort .h
  else if n = 2 ∨ n = 4 ∨ n = 6 ∨ n = 17 ∨ n = 19 ∨ n = 20 ∨ (64 ≤ n ∧ n < 88) then v.full
  else decide (n ≤ 20 ∨ (32 ≤ n ∧ n < 56))

/-- The state of a domain; those of absent units are off. -/
def domState (s : State) (n : Nat) : DomSt := if domPresent s.variant n then s.c.pd.dom n else .off

/-- The order on > retention > off (R513). -/
def DomSt.rank : DomSt → Nat
  | .on => 2
  | .ret => 1
  | .off => 0

/-- The state of a TARGET code. -/
def DomSt.ofCode (n : Nat) : DomSt := if n = 0 then .on else if n = 1 then .ret else .off

/-- A domain is a MEM bank. -/
def isBank (n : Nat) : Bool := decide ((32 ≤ n ∧ n < 56) ∨ (64 ≤ n ∧ n < 88))

/-- The states that a domain supports (table "Domains"). -/
def domSupports (n : Nat) : DomSt → Bool
  | .on => true
  | .ret => decide (1 ≤ n ∧ n ≤ 4) || isBank n
  | .off => decide (n ≠ 0)

/-- The same domain of the other side. -/
def domTwin (n : Nat) : Nat :=
  match domSide n with
  | some .a => if n < 32 then n + 1 else n + 32
  | some .b => if n < 32 then n - 1 else n - 32
  | none => n

/-- The domains of a mask. -/
def domsOf (mask : Nat) : List Nat := bitsBelow mask 96

/-- A mask of a side request: it names its side domains in both sides (R516). -/
def mirrored (v : Variant) (mask : Nat) : Nat :=
  (domsOf mask).foldl (fun m n => if domPresent v (domTwin n) then setNBit m (domTwin n) true else m) mask

/-- OWNER of a domain (R515). -/
def domOwner (c : Commons) (n : Nat) : Nat := fld (rdI c.regs Pg.PD Reg.PD_DOM_CFG n) 1 0

/-- The final states keep R513 for one domain. -/
def domFits (g : Nat → DomSt) (n : Nat) : Bool :=
  let side (k : Nat) : Bool := match g k with
    | .on => decide (g n = .on)
    | .ret => if n = 5 ∨ n = 6 then true
        else if isBank n then decide (g n = .ret) ||
          (decide (18 ≤ (n - 32) % 32 ∧ (n - 32) % 32 ≤ 20) && decide (g n = .off))
        else decide (g n ≠ .on)
    | .off => decide (g n = .off)
  if 10 ≤ n ∧ n ≤ 15 then
    decide ((g n).rank ≤ (g (if n = 10 then 7 else if n ≤ 13 then 8 else 9)).rank)
  else match domSide n with
    | some .a => n = 1 || side 1
    | some .b => n = 2 || side 2
    | none => true

/-- A request's check (R519): the result and the domain that fails first, or none. -/
def pdCheck (s : State) (q : PdReq) : Option (Nat × Nat) :=
  let ns := domsOf q.mask
  let t := DomSt.ofCode q.target
  let g (n : Nat) : DomSt := if nbit q.mask n then t else domState s n
  let st := ns.find? fun n => decide (q.target = 3) || !domPresent s.variant n || !domSupports n t
  let flt := ns.find? fun n => s.c.pd.faults.contains n
  let own := ns.find? fun n =>
    let o := domOwner s.c n
    decide (o = 3) || (q.byHost && decide (o = 2)) || (!q.byHost && decide (o = 1))
  let cmp := ns.find? fun n => q.byHost && decide (domState s n ≠ t) && (match domSide n with
    | some x => decide (s.c.bezel.st x = .compared) && !nbit q.mask (domTwin n)
    | none => false)
  let dep := (List.range 96).find? fun n => domPresent s.variant n && !domFits g n
  match st with
  | some n => some (4, n)
  | none => match flt with
    | some n => some (Config.faultReason, n)
    | none => match own with
      | some n => some (1, n)
      | none => match cmp with
        | some n => some (3, n)
        | none => dep.map fun n => (2, n)

/-! ## Rails (R539, R540) -/

/-- The owner of a side's PMBus port: 1 side A, 2 side B, 0 the commons. -/
def railOwner (n : Nat) : Nat := match domSide n with
  | some .a => 1
  | some .b => 2
  | none => 0

/-- The rails of a domain, as owner * 4 + entry (table "Rail rules"). -/
def domRails (n : Nat) : List Nat :=
  if 7 ≤ n ∧ n ≤ 9 then [0, 1]
  else if 16 ≤ n ∧ n ≤ 19 then [2]
  else if n = 5 ∨ n = 6 then [3]
  else if 1 ≤ n ∧ n ≤ 4 then [railOwner n * 4]
  else if isBank n then [railOwner n * 4 + 1]
  else []

/-- The domains that a rail feeds. -/
def railDoms (r : Nat) : List Nat := ((List.range 96).filter fun n => (domRails n).contains r)

/-- The level at which a rail stands for the states of its domains: 0 VON, 1 VRET, 2 off. -/
def railLevel (g : Nat → DomSt) (r : Nat) : Nat :=
  let ds := (railDoms r).map g
  if ds.all fun d => decide (d = .off) then 2
  else if r % 4 = 1 ∧ 4 ≤ r ∧ ds.all fun d => decide (d ≠ .on) then 1
  else 0

/-- RAIL_CFG of a rail. -/
def railCfg (s : State) (r : Nat) : Word :=
  if r < 4 then rdI s.c.regs Pg.PMB Reg.PMB_RAIL_CFG r
  else rdI (s.side (if r < 8 then .a else .b)).regs Pg.SPMB Reg.PMB_RAIL_CFG (r % 4)

/-- The level that a rail has now. -/
def PdState.rail (p : PdState) (r : Nat) : Nat := (p.rails.find r).getD 0

/-- A rail's level recorded. -/
def PdState.setRail (p : PdState) (r lvl : Nat) : PdState :=
  { p with rails := if lvl = 0 then p.rails.del r else p.rails.put r lvl }

/-- The PMBus port of a rail changed. -/
def State.updPmb (s : State) (owner : Nat) (f : PmbState → PmbState) : State :=
  if owner = 0 then s.updC fun c => { c with pmb := f c.pmb }
  else s.upd (if owner = 1 then .a else .b) fun d => { d with pmb := f d.pmb }

/-- A PMBus port. -/
def State.pmbOf (s : State) (owner : Nat) : PmbState :=
  if owner = 0 then s.c.pmb else if owner = 1 then s.a.pmb else s.b.pmb

/-- The registers of a PMBus port's page changed. -/
def State.updPmbRegs (s : State) (owner : Nat) (f : Tab Word → Nat → Tab Word) : State :=
  if owner = 0 then s.updR fun t => f t Pg.PMB
  else s.upd (if owner = 1 then .a else .b) fun d => d.updR fun t => f t Pg.SPMB

/-- A register of a PMBus port's page. -/
def State.pmbReg (s : State) (owner off : Nat) : Word :=
  if owner = 0 then rd s.c.regs Pg.PMB off else rd (s.side (if owner = 1 then .a else .b)).regs Pg.SPMB off

/-- The rail changes of a domain that takes a state: of enabled entries whose level has to change
(R539, R540). DEDUCED: before step 5 of the start no rail is asked, so a domain waits for none (R546). -/
def railsFor (s : State) (n : Nat) (st : DomSt) : List (Nat × Nat) :=
  if s.c.sys.step < 5 then [] else
  let g (k : Nat) : DomSt := if k = n then st else domState s k
  (domRails n).filterMap fun r =>
    let want := if (domState s n).rank < st.rank then 0 else railLevel g r
    if bitOf (railCfg s r) 31 ∧ want ≠ s.c.pd.rail r then some (r, want) else none

/-- A rail request goes out on its port (R541). -/
def railAsk (s : State) (r : Nat) : State :=
  let s1 := s.updPmb (r / 4) fun p => { p with rail := some (r % 4) }
  s1.updPmbRegs (r / 4) fun t pg => bump t pg Reg.PMB_REQUESTS

/-! ## What a domain's change does (R514, R526, R531, R532) -/

/-- A register keeps its value while its domain is off: configuration fields do (R526). -/
def keptField (page off : Nat) : Bool :=
  if off < 0x40 then off = Reg.HDR_CTRL || off = Reg.HDR_STAT || off = Reg.HDR_ERR_MASK || off = Reg.HDR_EVT_EN || off = Reg.HDR_LOCK
  else match regRow page off with
    | some r => r.fields.any fun f => decide (f.acc = .rw ∨ f.acc = .rwl)
    | none => false

/-- The counters and status of a page at their reset values. -/
def resetStatus (t : Tab Word) (page : Nat) : Tab Word :=
  t.filter fun e => !decide ((e.1 / 4096) % 128 = page) || keptField page (e.1 % 4096)

/-- The commons pages of a domain (R526). -/
def domPages (n : Nat) : List Nat :=
  if 7 ≤ n ∧ n ≤ 9 then [Pg.RFS + (n - 7), Pg.CHZ + (n - 7), Pg.FACET + (n - 7)]
  else if n = 16 then [Pg.ETH0] else if n = 17 then [Pg.ETH1]
  else if n = 18 then [Pg.HOSTA] else if n = 19 then [Pg.HOSTB]
  else if n = 20 then [Pg.IBE] else []

/-- The domain of a commons page. -/
def pageDom (page : Nat) : Option Nat := [7, 8, 9, 16, 17, 18, 19, 20].find? fun n => (domPages n).contains page

/-- The contents of a bank that can be dropped are gone (table "Side SRAM banks"). -/
def Side.dropBank (d : Side) (b : Nat) : Side :=
  if b = 18 ∨ b = 19 then
    { d with mesh := { d.mesh with skim := d.mesh.skim.filter fun e => !decide (18 + e.1 / 65536 = b) } }
  else if b = 20 then { d with key := { d.key with cache := [], flights := [] } }
  else d

/-- A side whose SIDE domain is off: it is out of service and its SRAM is as after a reset; its PMBus port, on AON, keeps its
page. DEDUCED for a side that was in service. -/
def sideOff (s : State) (x : SideId) : State :=
  let s1 := match s.c.bezel.st x with
    | .off => s
    | _ => leave s x
  s1.upd x fun d => { d.cleared with
    pmb := d.pmb, regs := d.regs.filter fun e => decide ((e.1 / 4096) % 128 = Pg.SPMB), point := d.point, now := d.now }

/-- The FE_CTL lines of a port whose domain goes off take their inactive level (R526). -/
def feIsolate (s : State) (p : RPort) : State :=
  (List.range 24).foldl (fun s n =>
    if fePort (feCfg s.c n) = some p then s.updSys fun y => { y with feOut := setNBit y.feOut n (feLevel s.c (feCfg s.c n)) } else s) s

/-- What entering a state lower than before does. -/
def domLowered (s : State) (n : Nat) (st : DomSt) : State :=
  if st ≠ .off then s
  else if 7 ≤ n ∧ n ≤ 9 then match RPort.ofNum (n - 7) with
    | some p => feIsolate (disablePort s p) p
    | none => s
  else if n = 16 ∨ n = 17 then ethLink s (decide (n = 17)) false 0
  else if n = 18 ∨ n = 19 then hostPortReset s (decide (n = 19)) .linkLoss
  else if n = 20 then s.updIbe fun k => { k with phase := 0 }
  else match domSide n with
    | some x => if n = 1 ∨ n = 2 then sideOff s x
        else if n = 3 ∨ n = 4 then s.upd x Side.locketOff
        else if isBank n then s.upd x fun d => d.dropBank ((n - 32) % 32) else s
    | none => s

/-- LOCKET_x is on again after it was off: its PUF is read, or the test root taken, the slots are loaded, and a side in service
reports its root (R253, R258, R259, R267). -/
def locketReturns (s : State) (x : SideId) : State :=
  s.upd x fun d =>
    let d1 := (powerLocket s.c x d).loadSlots
    match s.c.bezel.st x with
    | .compared | .alone | .selfCheck => d1.reportRoot
    | _ => d1

/-- A commons domain returns from off: its counters, status and held work take their reset values, and a port calibrates
(R113, R526). -/
def commonsRaised (s : State) (n : Nat) : State :=
  let s1 := (domPages n).foldl (fun s pg => s.updR fun t => resetStatus t pg) s
  if 7 ≤ n ∧ n ≤ 9 then match RPort.ofNum (n - 7) with
    | some p =>
      let s2 := s1.updC fun c => c.updPort p fun q =>
        { RfPort.reset q.lo with chans := q.chans, dwell := q.dwell, dwellIdx := q.dwellIdx, dwellNext := q.dwellNext }
      if commonsUp s2 then s2.updC fun c => calBegin c p else s2
    | none => s1
  else if n = 20 then s1.updIbe fun _ => IbeState.reset
  else s1

/-- A Locket domain rises: from off its contents are gone, and once it is on a PUF read that is due is made (R253, R532). -/
def locketRaised (s : State) (x : SideId) (was st : DomSt) : State :=
  let s1 := if was = .off then s.upd x Side.locketUp else s
  if st = .on ∧ (s1.side x).key.pufDue then locketReturns s1 x else s1

/-- What was retained and is on again is to be scanned: a bank, or a Locket whose PUF need not be read (R530, R532). -/
def scanAsked (s : State) (n : Nat) (was st : DomSt) : State :=
  if was = .ret ∧ st = .on ∧ (isBank n ∨ ((n = 3 ∨ n = 4) ∧ (domSide n).any fun x => !(s.side x).key.pufDue)) then
    s.updPd fun p => { p with scan := p.scan ++ [n] }
  else s

/-- A SIDE domain is on again: what fell due while it slept is handled by its late policy, and Clasp restarts EXPIRY of the
holder (R528, R529). -/
def sideRaised (s : State) (x : SideId) (was : DomSt) : State :=
  let s1 := if was = .ret then s.upd x fun d => (d.passWaits s.c.lt d.now s.c.lt).passSwaps d.now s.c.lt else s
  if s1.c.clasp.holder = some x then
    s1.updK fun k => match k.vote with
      | some r => k.write { r with expiry := s1.c.lt + leaseNs s1.c }
      | none => k
  else s1

/-- What a domain's return towards on does (R526, R528 to R530, R532). -/
def domRaised (s : State) (n : Nat) (was st : DomSt) : State :=
  match domSide n with
  | none => if was = .off then commonsRaised s n else s
  | some x =>
    let s1 := scanAsked s n was st
    if n = 3 ∨ n = 4 then locketRaised s1 x was st
    else if (n = 1 ∨ n = 2) ∧ st = .on then sideRaised s1 x was
    else s1

/-- A domain takes a state. -/
def setDom (s : State) (n : Nat) (st : DomSt) : State :=
  let was := domState s n
  let s1 := s.updPd fun p => { p with doms := if st = .on then p.doms.del n else p.doms.put n st }
  if was.rank < st.rank then domRaised s1 n was st else if st.rank < was.rank then domLowered s1 n st else s1

/-! ## Performing requests (R518 to R525) -/

/-- The sides that waited after PD_START resume where their SIDE domain is on (R527). -/
def resumeSides (s : State) : State :=
  s.updPd fun p => { p with paused := p.paused.filter fun n => decide (p.dom n ≠ .on) }

/-- A request ends with its result: the counts, the PD_DONE notice, and a wake's STAT (R521, R538). -/
def pdEnd (s : State) (q : PdReq) (result : Nat) : State :=
  let s1 := (resumeSides s).updPd fun p => { p with run := none, result := result }
  let s2 := (s1.bumpC Pg.PD (if result = 0 then Reg.PD_REQ_OK else Reg.PD_REQ_REFUSED)).event Pg.PD 0
  let s3 := match q.wake with
    | none => s2
    | some n =>
      let s3 := s2.updC fun c => c.hwSet Pg.WAKE Reg.WAKE_STAT (bitMask (if result = 0 then 0 else 1))
      if n = 8 then s3.updPd fun p => { p with i2cResult := result } else s3
  s3.notice (.pdDone result)

/-- The domains of a request that change, in the order of R520. -/
def pdOrder (s : State) (q : PdReq) : List (Nat × DomSt) :=
  let t := DomSt.ofCode q.target
  let ns := (domsOf q.mask).filter fun n => decide (domState s n ≠ t)
  ((ns.filter fun n => decide (t.rank < (domState s n).rank)).reverse ++
    ns.filter fun n => decide ((domState s n).rank < t.rank)).map fun n => (n, t)

/-- The request refused because of a domain, with its reason (R519, R524). -/
def noteRefuse (s : State) (n reason : Nat) : State := s.updPd fun p => { p with refuse := some (n, reason) }

/-- The request in progress changed. -/
def State.updRun (s : State) (f : PdRun → PdRun) : State := s.updPd fun p => { p with run := p.run.map f }

/-- A domain of a lowering starts to quiesce (R522). -/
def quiesceBegin (s : State) (n : Nat) : State :=
  if 7 ≤ n ∧ n ≤ 9 then match RPort.ofNum (n - 7) with
    | some p => disablePort s p
    | none => s
  else if n = 20 ∧ (s.c.ibe.phase = 1 ∨ s.c.ibe.phase = 2) then ibeFinish s 4
  else s

/-- The request goes on: domains without a rail to wait for are raised, a domain to lower begins to quiesce, and the request
ends after its last domain and the scans. The fuel bounds the domains taken in one step. -/
def pdGo : Nat → State → State
  | 0, s => s
  | fuel + 1, s =>
    match s.c.pd.run with
    | none => match s.c.pd.susp, s.c.pd.queue with
      | _, q :: rest =>
        if q.wake.isNone && s.c.pd.susp.isSome then pdGo fuel (s.updPd fun p => { p with run := p.susp, susp := none })
        else
          let s1 := s.updPd fun p => { p with queue := rest }
          match pdCheck s1 q with
          | some (r, n) => pdGo fuel (pdEnd (noteRefuse s1 n r) q r)
          | none =>
            let todo := pdOrder s1 q
            let run : PdRun := { req := q, todo := todo, done := [], step := 0, rails := [], since := s1.c.lt, undo := none,
                                 woken := false, restoring := false }
            let s2 := s1.updPd fun p => { p with run := some run }
            let sleeps : Bool := todo.any fun e => decide (e.1 = 1 ∨ e.1 = 2) && decide (e.2.rank < (domState s1 e.1).rank)
            pdGo fuel (if sleeps then s2.sequence (.marker .pdStart) else s2)
      | some _, [] => pdGo fuel (s.updPd fun p => { p with run := p.susp, susp := none })
      | none, [] => s
    | some r =>
      let wakes : Bool := match s.c.pd.queue with
        | q :: _ => q.wake.isSome
        | [] => false
      if r.step ≠ 0 then s
      else if wakes && r.undo.isNone && r.req.wake.isNone && s.c.pd.susp.isNone then
        pdGo fuel (s.updPd fun p => { p with susp := some r, run := none })
      else match r.todo with
        | [] =>
          if s.c.pd.scan.isEmpty then
            pdGo fuel (pdEnd s r.req (r.undo.getD (if r.woken then 8 else 0)))
          else s
        | (n, st) :: rest =>
          let was := domState s n
          if st.rank < was.rank then
            (quiesceBegin s n).updRun fun r => { r with step := 1, since := s.c.lt }
          else if was.rank < st.rank then match railsFor s n st with
            | [] => pdGo fuel ((setDom s n st).updRun fun r => { r with todo := rest })
            | (k, l) :: ks => railAsk (s.updRun fun r => { r with step := 7, rails := (k, l) :: ks, since := s.c.lt }) k
          else pdGo fuel (s.updRun fun r => { r with todo := rest })

/-- Domains that a request can name and steps that it can take at once. -/
def pdFuel : Nat := 512

/-- The domain in hand reaches its state; the request goes on. -/
def domArrives (s : State) (r : PdRun) (n : Nat) (st : DomSt) : State :=
  let was := domState s n
  let s1 := setDom s n st
  let keep := if st.rank < was.rank then (n, was) :: r.done else r.done
  pdGo pdFuel (s1.updRun fun r => { r with todo := r.todo.drop 1, done := keep, step := 0, rails := [], restoring := false })

/-- The domain in hand refuses: what the request had lowered is raised back in the reverse order (R524). -/
def domRefuses (s : State) (n reason : Nat) : State :=
  pdGo pdFuel ((noteRefuse s n reason).updRun fun r =>
    { r with todo := if r.undo.isSome then r.todo.drop 1 else r.done, done := [], step := 0, rails := [], restoring := false
             undo := some (r.undo.getD reason) })

/-- The units of a domain have finished what they hold. -/
def quiesced (s : State) (n : Nat) : Bool :=
  if 7 ≤ n ∧ n ≤ 9 then match RPort.ofNum (n - 7) with
    | some p => portDrained s.c p
    | none => true
  else if 10 ≤ n ∧ n ≤ 15 then
    [RPort.s, RPort.m, RPort.h].all fun p => (s.c.port p).lanes.all fun l => decide (laneDomain l.no ≠ n)
  else if n = 16 then s.c.eth0.tx.isEmpty
  else if n = 17 then s.c.eth1.tx.isEmpty
  else if n = 20 then decide (s.c.ibe.phase ≠ 1 ∧ s.c.ibe.phase ≠ 2)
  else match domSide n with
    | some x => !s.c.bezel.consumes x || s.c.pd.paused.contains x.num || decide (s.c.pd.dom x.num ≠ .on)
    | none => true

/-- QUIESCE_DONE: the entry passes steps 2 to 5; a rail that must change is requested, otherwise the domain is in its new
state (table "Entry sequence"). -/
def quiesceDone (s : State) : State :=
  match s.c.pd.run with
  | none => s
  | some r => match r.todo with
    | [] => s
    | (n, st) :: _ =>
      if r.step ≠ 1 ∨ !quiesced s n then s
      else match railsFor s n st with
        | [] => domArrives s r n st
        | (k, l) :: ks => railAsk (s.updRun fun r => { r with step := 5, rails := (k, l) :: ks, since := s.c.lt }) k

/-- QUIESCE_TIMEOUT: the domain in hand has not quiesced within QUIESCE_TO and refuses with BUSY (R522). -/
def quiesceTimeout (s : State) : State :=
  match s.c.pd.run with
  | none => s
  | some r => match r.todo with
    | [] => s
    | (n, _) :: _ =>
      let limit := 1000000 * (clampNat 1 255 (rf s.c.regs Pg.PD Reg.PD_QUIESCE_TO 7 0))
      if r.step = 1 ∧ r.since + limit ≤ s.c.lt then domRefuses s n 5 else s

/-- The rail request in progress is over on its port. -/
def railOver (s : State) (r : Nat) : State := s.updPmb (r / 4) fun p => { p with rail := none }

/-- A STATUS_WORD acknowledges a rail's level (R541). -/
def railAcked (lvl status : Nat) : Bool := if lvl = 2 then nbit status 6 else !nbit status 11

/-- PMB_ACK: a poll of STATUS_WORD. Acknowledged, the rail has its level and the next one is requested, or the transition
completes; after a timeout the former level stands again and the domain has refused (R541). -/
def pmbAck (s : State) (status : Nat) : State :=
  match s.c.pd.run with
  | none => s
  | some r => match r.todo, r.rails with
    | (n, st) :: _, (k, l) :: ks =>
      if (r.step ≠ 5 ∧ r.step ≠ 7) ∨ (s.pmbOf (k / 4)).raw.isSome then s
      else
        let s1 := s.updPmb (k / 4) fun p => { p with status := p.status.put (k % 4) (status % 65536) }
        let lvl := if r.restoring then s1.c.pd.rail k else l
        if !railAcked (if r.restoring then 0 else lvl) status then s1
        else
          let s2 := railOver s1 k
          if r.restoring then domRefuses s2 n 6
          else
            let s3 := s2.updPd fun p => p.setRail k l
            match ks with
            | [] => domArrives s3 r n st
            | (j, m) :: t => railAsk (s3.updRun fun r => { r with rails := (j, m) :: t, since := s.c.lt }) j
    | _, _ => s

/-- PMB_TIMEOUT: TIMEOUT passes without acknowledgement. The first time OPERATION 0x80 and the former voltage are written and
awaited; if that also fails, FAULT is set and the domain stays in the lower state (R541). -/
def pmbTimeout (s : State) : State :=
  match s.c.pd.run with
  | none => s
  | some r => match r.todo, r.rails with
    | (n, st) :: _, (k, _) :: _ =>
      let limit := 1000 * (clampNat 100 50000 (fld (s.pmbReg (k / 4) Reg.PMB_TIMEOUT) 15 0))
      if (r.step ≠ 5 ∧ r.step ≠ 7) ∨ s.c.lt < r.since + limit then s
      else if r.restoring then
        let low := if st.rank < (domState s n).rank then st else domState s n
        let s1 := ((railOver s k).updC fun c => c.err Pg.PD 2).updPd fun p => { p with faults := insNat n p.faults }
        domRefuses (setDom s1 n low) n 6
      else
        let s1 := (s.updPmbRegs (k / 4) fun t pg => bump t pg Reg.PMB_TIMEOUTS).updC fun c => c.err Pg.PD 1
        s1.updRun fun r => { r with restoring := true, since := s.c.lt }
    | _, _ => s

/-- A request offered to the queue of eight (R518); a wake goes ahead of every queued request; among wakes of one cycle
the lowest source is first, the I2C command last (R533). -/
def pdOffer (s : State) (q : PdReq) : State :=
  if q.wake.isSome then
    let ws := s.c.pd.queue.filter fun e => e.wake.isSome
    let os := s.c.pd.queue.filter fun e => e.wake.isNone
    let after (e : PdReq) : Bool := decide (e.lt = q.lt ∧ q.wake.getD 0 < e.wake.getD 0)
    pdGo pdFuel (s.updPd fun p => { p with queue := ws.filter (!after ·) ++ [q] ++ ws.filter after ++ os })
  else if 8 ≤ s.c.pd.queue.length then
    let s1 := ((s.updPd fun p => { p with result := 7 }).bumpC Pg.PD Reg.PD_REQ_REFUSED).event Pg.PD 0
    s1.notice (.pdDone 7)
  else pdGo pdFuel (s.updPd fun p => { p with queue := p.queue ++ [q] })

/-- A write of REQ_CMD by a host or a side (R516, R518). -/
def writeReqCmd (s : State) (r : Requester) (v : Word) : State :=
  let s1 := s.updR fun t => wr t Pg.PD Reg.PD_REQ_CMD (w32 (fld v 1 0))
  if !bitOf v 4 then s1
  else
    let t := s.c.regs
    let mask := (rd t Pg.PD Reg.PD_REQ_MASK0).toNat + (rd t Pg.PD Reg.PD_REQ_MASK1).toNat * 2 ^ 32 +
      (rd t Pg.PD Reg.PD_REQ_MASK2).toNat * 2 ^ 64
    let host : Bool := match r with
      | .core _ => false
      | _ => true
    pdOffer s1 { mask := if host then mask else mirrored s.variant mask, target := fld v 1 0, byHost := host, wake := none, lt := s.c.lt }

/-! ## Wakes (R533, R534, R535 to R538) -/

/-- A wake reaches the request in progress: a named domain before step 5 of its entry leaves at its abort point, and the
named domains not begun are left out (R523, R534). -/
def wakeInterrupts (s : State) (mask : Nat) : State :=
  match s.c.pd.run with
  | none => s
  | some r =>
    if r.undo.isSome then s
    else
      let cut (l : List (Nat × DomSt)) : List (Nat × DomSt) := l.filter fun e =>
        !nbit mask e.1 || decide ((domState s e.1).rank < e.2.rank)
      let leaves : Bool := decide (r.step = 1) && (match r.todo with
        | (n, _) :: _ => nbit mask n
        | [] => false)
      if leaves then
        ((s.bumpC Pg.PD Reg.PD_ABORTS).bumpC Pg.WAKE Reg.WAKE_WAKE_ABORTS).updRun fun r =>
          { r with todo := cut r.todo, step := 0, woken := true }
      else s.updRun fun r => { r with todo := r.todo.take (if r.step = 0 then 0 else 1) ++ cut (r.todo.drop (if r.step = 0 then 0 else 1)) }

/-- A wake for a profile (R533): counted, and performed as a host request ahead of the queue. -/
def wakeFor (s : State) (source profile : Nat) : State :=
  let m (j : Nat) : Nat := (rdI s.c.regs Pg.WAKE (Reg.WAKE_PROF_MASK + 4 * j) profile).toNat
  let mask := m 0 + m 1 * 2 ^ 32 + m 2 * 2 ^ 64
  let s1 := wakeInterrupts (s.bumpC Pg.WAKE Reg.WAKE_WAKES) mask
  pdOffer s1 { mask := mask, target := 0, byHost := true, wake := some source, lt := s.c.lt }

/-- The wake target answers on its bus. -/
def wakeI2c (c : Commons) : Bool := rb c.regs Pg.WAKE Reg.WAKE_CFG 0 && unitOn c.regs Pg.WAKE

/-- The target's address: 0x58 with the straps WAKE_A (R535). -/
def wakeAddr (c : Commons) : Nat := 0x58 + c.sys.straps / 4 % 8

/-- What a read of a register of the wake target answers (R537); a WO register and a pointer outside the table read 0. -/
def wakeRead (c : Commons) (ptr : Nat) : Nat :=
  if ptr = 0 then 0x96
  else if ptr = 1 then (rd c.regs Pg.WAKE Reg.WAKE_STAT).toNat % 8 + 8 * b2n c.pd.run.isSome
  else if ptr = 4 then c.pd.i2cResult
  else 0

/-! ## Retained memory (R530 to R532) -/

/-- A LOST bank of a side that is alone: each of its places is handled as an uncorrectable error (R450, R531); none where the
side stops. -/
def Side.bankLost (c : Commons) (d : Side) (b : Nat) : Option Side :=
  let all (l : List Nat) (loc : Nat → MemLoc) : Option Side :=
    l.foldl (fun a n => a.bind fun d => d.lost c (loc n)) (some d)
  let inBank (n : Nat) : Bool := decide (16 + Config.memBank n % 2 = b)
  if b < 8 then all ((d.node.nodes.map (·.1)).filter fun n => decide (n / 32768 = b)) MemLoc.nodeEntry
  else if b < 16 then
    all ((List.range d.pend.pool.length).filter fun n => decide (8 + Config.memBank n % 8 = b)).reverse MemLoc.poolFrame
  else if b < 18 then
    let free := d.strand.freeCells.filter inBank
    (all (d.strand.used.filter inBank) MemLoc.cell).map fun d1 => free.foldl Side.withdraw d1
  else if b < 20 then all ((d.mesh.skim.map (·.1)).filter fun n => decide (18 + n / 65536 = b)) MemLoc.skimEntry
  else if b = 20 then all (d.key.cache.map (·.1)) MemLoc.keyEntry
  else none

/-- A side's LOST banks handled while it is alone. -/
def banksAlone (s : State) (x : SideId) (mask : Nat) : State :=
  (bitsBelow mask 24).foldl (fun s b => match (s.side x).bankLost (s.side x).view b with
    | some d =>
      let cells := (s.side x).strand.used.filter fun n => decide (16 + Config.memBank n % 2 = b)
      launchesLost (s.upd x fun _ => d) (if b = 16 ∨ b = 17 then cells.flatMap (s.side x).cellFlights else [])
    | none => sideError s x) s

/-- A compared side leaves service and is refilled. -/
def refillAfterLoss (s : State) (x : SideId) : State := startRefill (leave s x) x 0 false

/-- What LOST banks lead to once the scans of both sides are known (R531). -/
def lossVerdict (s : State) : State :=
  let a := (s.c.pd.lost.find 1).getD 0
  let b := (s.c.pd.lost.find 2).getD 0
  let s0 := s.updPd fun p => { p with lost := [] }
  let both := decide (s.c.bezel.stA = .compared) && decide (s.c.bezel.stB = .compared)
  if both then
    if a ≠ 0 ∧ b ≠ 0 then
      let act := activeSide s
      let s1 := refillAfterLoss s0 act.other
      banksAlone s1 act (if act = .a then a else b)
    else if a ≠ 0 then refillAfterLoss s0 .a
    else if b ≠ 0 then refillAfterLoss s0 .b
    else s0
  else
    let one (s : State) (x : SideId) (m : Nat) : State :=
      if m ≠ 0 ∧ s.c.bezel.st x = .alone then banksAlone s x m else s
    one (one s0 .a a) .b b

/-- RETENTION_SCAN_DONE: the scan of a side's returning banks and Locket ends with the banks found LOST, whether its Locket
is LOST, and the errors corrected (R530 to R532). -/
def scanDone (s : State) (x : SideId) (lostBanks : Nat) (locketLost : Bool) (corrected : Nat) : State :=
  let mine := s.c.pd.scan.filter fun n => decide (domSide n = some x)
  if mine.isEmpty then s
  else
    let a := decide (x = .a)
    let lost := (bitsBelow lostBanks 24).filter fun b => mine.contains (b + (if a then 32 else 64))
    let mask := lost.foldl (fun m b => m + 2 ^ b) 0
    let off := if a then Reg.PD_LOST_A else Reg.PD_LOST_B
    let s1 := s.updR fun t => bumpBy t Pg.ERR (if a then Reg.ERR_ECC_CORR_A else Reg.ERR_ECC_CORR_B) corrected
    let s2 := s1.updPd fun p => { p with scan := p.scan.filter fun n => !decide (domSide n = some x)
                                         lost := if mask = 0 then p.lost else p.lost.put x.num mask }
    let s3 := if mask = 0 then s2 else
      let t1 := s2.updR fun t => bumpBy (wr t Pg.PD off (w32 ((rd t Pg.PD off).toNat ||| mask))) Pg.PD Reg.PD_RET_LOST_CNT lost.length
      let t2 := (t1.updC fun c => c.err Pg.PD 0).event Pg.PD 1
      let t3 := t2.updC fun c => c.hwSet Pg.WAKE Reg.WAKE_STAT (bitMask 2)
      t3.notice (.retLost x mask)
    let s4 := if locketLost && mine.contains (if a then 3 else 4) then
      locketReturns (s3.upd x fun d => d.locketOff.locketUp) x else s3
    pdGo pdFuel (if s4.c.pd.scan.isEmpty then lossVerdict s4 else s4)

/-! ## PMBus raw transactions and alerts (R542, R543) -/

/-- The PMBus port of a page index: the commons page, side A's and side B's. -/
def pmbOwner (v : Variant) (page : Nat) : Option Nat :=
  if page = Pg.PMB then some 0 else if page = Pg.SPMB then some 1
  else if page = Pg.SPMB + 32 ∧ v.full then some 2 else none

/-- RAIL_CFG of an entry of a PMBus port. -/
def State.railCfgOf (s : State) (owner entry : Nat) : Word := railCfg s (owner * 4 + entry)

/-- A raw command would change an enabled rail: a write of VOUT_COMMAND or OPERATION to the address of an enabled entry.
PRESUMED: the command codes of PMBus 1.3. -/
def rawDenied (s : State) (owner : Nat) (v : Word) : Bool :=
  let addr := fld (s.railCfgOf owner (fld v 13 12)) 6 0
  !bitOf v 10 && decide (fld v 7 0 = 0x21 ∨ fld v 7 0 = 0x01) &&
  (List.range 4).any fun e => bitOf (s.railCfgOf owner e) 31 && decide (fld (s.railCfgOf owner e) 6 0 = addr)

/-- A write of RAW_CMD (R542). DEDUCED: one that finds a raw transaction in progress starts nothing. -/
def writeRawCmd (s : State) (owner : Nat) (v : Word) : State :=
  let s1 := s.updPmbRegs owner fun t pg => wr t pg Reg.PMB_RAW_CMD (w32 (v.toNat % 0x8000 &&& 0x37FF))
  if !bitOf v 15 ∨ (s.pmbOf owner).raw.isSome then s1
  else if rawDenied s owner v then s1.updPmb owner fun p => { p with rawStat := 8 }
  else s1.updPmb owner fun p => { p with raw := some (v.toNat % 0x8000, bitOf v 10), rawStat := 0 }

/-- RAW_DONE: the raw transaction of a port ends, outside a rail request, and RAW_STAT takes its result (R542). -/
def rawDone (s : State) (owner : Nat) (nak pecErr : Bool) (data : Nat) : State :=
  match (s.pmbOf owner).raw with
  | none => s
  | some (w, read) =>
    if (s.pmbOf owner).rail.isSome then s
    else
      let s1 := s.updPmb owner fun p => { p with raw := none, rawStat := 1 + 2 * b2n nak + 4 * b2n pecErr }
      let n := fld (w32 w) 9 8
      let s2 := if nak then s1.updPmbRegs owner fun t pg => bump t pg Reg.PMB_NAKS else s1
      if read ∧ !nak then s2.updPmbRegs owner fun t pg => wr t pg Reg.PMB_RAW_DATA (w32 (data % 2 ^ (8 * min n 2))) else s2

end Sys2Proof.Machine
end

