-- ==== Sys2Proof/Machine/Jtag.lean ====
section
/-! DEFINITION. JTAG: the test access port of IEEE 1149.1, its instructions, the boundary-scan register, and the levels of the balls of
the IO18 and IO33 banks (R313, R314, R576, R580). PRESUMED: the controller, its registers and what its instructions do are those of
IEEE 1149.1, which R313 and R576 name. -/

namespace Sys2Proof.Machine

open Sys2Proof

/-! ## The controller -/

/-- The state that a rising edge of TCK leads to, by TMS. -/
def TapSt.next : TapSt → Bool → TapSt
  | .reset, m => if m then .reset else .idle
  | .idle, m => if m then .selectDr else .idle
  | .selectDr, m => if m then .selectIr else .captureDr
  | .captureDr, m => if m then .exit1Dr else .shiftDr
  | .shiftDr, m => if m then .exit1Dr else .shiftDr
  | .exit1Dr, m => if m then .updateDr else .pauseDr
  | .pauseDr, m => if m then .exit2Dr else .pauseDr
  | .exit2Dr, m => if m then .updateDr else .shiftDr
  | .updateDr, m => if m then .selectDr else .idle
  | .selectIr, m => if m then .reset else .captureIr
  | .captureIr, m => if m then .exit1Ir else .shiftIr
  | .shiftIr, m => if m then .exit1Ir else .shiftIr
  | .exit1Ir, m => if m then .updateIr else .pauseIr
  | .pauseIr, m => if m then .exit2Ir else .pauseIr
  | .exit2Ir, m => if m then .updateIr else .shiftIr
  | .updateIr, m => if m then .selectDr else .idle

/-- The instruction that a code stands for. DESIGN CHOICE: the spec names no instruction beside the four of R313, so that every other
code is BYPASS while Loupe is open as well. -/
def jtagInstr (code : Nat) : TapInstr :=
  if code = Config.jtagCode 1 then .idcode else if code = Config.jtagCode 2 then .sample
  else if code = Config.jtagCode 3 then .extest else .bypass

/-! ## The balls (tables of chapter 20, R576) -/

/-- How a ball is driven. -/
inductive BallKind where
  | input | output | tri | openDrain | bidir
  deriving DecidableEq, Repr

/-- The balls that the boundary-scan register covers, and how they are driven: every signal ball of the IO18 and IO33 banks but the
JTAG balls, TEST_EN and the DNC balls. DESIGN CHOICE: the order, which the boundary-scan description file gives. -/
def scanBalls : List (ScanBall × BallKind) :=
  ((List.range 24).map fun n => (.feCtl n, .output)) ++ [(.ref10In, .input), (.ppsIn, .input), (.porstN, .input), (.wrstN, .input)] ++
  ((List.range 4).map fun n => (.tamp n, .input)) ++ ((List.range 2).map fun n => (.bootSrc n, .input)) ++
  ((List.range 3).map fun n => (.wakeA n, .input)) ++ [(.sidePref, .input), (.chnSck, .input), (.chnSdi, .input), (.chnSdo, .tri),
    (.chnCsN, .input), (.chnEni, .input), (.chnEno, .output), (.wakeScl, .openDrain), (.wakeSda, .openDrain), (.wakeIntN, .openDrain)] ++
  ((List.range 3).map fun n => [(.pmbClk n, .openDrain), (.pmbDat n, .openDrain), (.pmbAlertN n, .input)]).flatten ++
  ((List.range 16).map fun n => (.gpio n, .bidir)) ++ ((List.range 4).map fun n => (.tpo n, .output)) ++
  [(.perstN 0, .input), (.perstN 1, .input)]

/-- The cells of a ball: its input, what it drives, whether it drives (DESIGN CHOICE: the description file gives the cells). -/
def ballCells : BallKind → List ScanCell
  | .input => [.input]
  | .output => [.data]
  | .tri => [.data, .enable]
  | .openDrain => [.data, .input]
  | .bidir => [.data, .enable, .input]

/-- The boundary-scan register: its cells in order. -/
def scanCells : List (ScanBall × ScanCell) := (scanBalls.map fun b => (ballCells b.2).map fun k => (b.1, k)).flatten

/-- What the part's own units drive on a ball; none where it is released or is an input (R72, R109, R502, R538, R577). The signals of
the chain port's data, the wake I2C and PMBus are the world's, as the ball levels say. -/
def unitDrive (c : Commons) : ScanBall → Option Bool
  | .feCtl n => some (nbit c.sys.feOut n)
  | .tpo n => some ((c.tpoAt n).active != rb c.regs Pg.TPO (tpoOff Reg.TPO_CTRL n) 1)
  | .chnEno => some c.chain.eno
  | .wakeIntN => if rd c.regs Pg.WAKE Reg.WAKE_STAT &&& rd c.regs Pg.WAKE Reg.WAKE_INT_EN = 0 then none else some false
  | .gpio n =>
    let out := nbit c.sys.gpioOut n
    if !nbit c.sys.gpioDir n then none
    else if rb c.regs Pg.TPO Reg.TPO_GPIO_OD n && out then none else some out
  | _ => none

/-- A latched cell of a ball, as EXTEST drives it. -/
def JtagState.latched (j : JtagState) (b : ScanBall) (k : ScanCell) : Bool :=
  ((scanCells.zip j.latch).find? fun e => decide (e.1 = (b, k))).any (·.2)

/-- What EXTEST drives on a ball: an open-drain ball drives low or releases (R576). -/
def JtagState.testDrive (j : JtagState) (b : ScanBall) : BallKind → Option Bool
  | .input => none
  | .output => some (j.latched b .data)
  | .tri | .bidir => if j.latched b .enable then some (j.latched b .data) else none
  | .openDrain => if j.latched b .data then none else some false

/-- EXTEST is in force. -/
def JtagState.testing (j : JtagState) : Bool := decide (j.instr = .extest)

/-- What the part drives on a ball. -/
def ballDrive (c : Commons) (b : ScanBall) : Option Bool :=
  match scanBalls.find? fun e => decide (e.1 = b) with
  | some e => if c.jtag.testing then c.jtag.testDrive b e.2 else unitDrive c b
  | none => none

/-- The level of a ball: what the part drives, else what the world does. -/
def ballLevel (c : Commons) (b : ScanBall) : Bool :=
  (ballDrive c b).getD (match b with
    | .gpio n => nbit (Config.ballLevels c.lt) n
    | _ => Config.scanLevel c.lt (scanBalls.findIdx fun e => decide (e.1 = b)))

/-- GPIO_IN: the levels of the balls, whatever GPIO_DIR holds (R580). -/
def gpioIn (c : Commons) : Nat := (List.range 16).foldl (fun x n => setNBit x n (ballLevel c (.gpio n))) 0

/-- What a cell captures: an input cell the ball's level, the others what the part's units drive. -/
def captureCell (c : Commons) (e : ScanBall × ScanCell) : Bool :=
  match e.2 with
  | .input => ballLevel c e.1
  | .data => (unitDrive c e.1).getD true
  | .enable => (unitDrive c e.1).isSome

/-! ## TCK -/

/-- The register between TDI and TDO, captured. -/
def captureDr (v : Variant) (c : Commons) : List Bool :=
  match c.jtag.instr with
  | .bypass => [false]
  | .idcode => (List.range 32).map (nbit (Config.jtagId (match v with
    | .kl9620 => 0
    | .kl9640 => 1
    | .kl9680 => 2)))
  | .sample | .extest => scanCells.map (captureCell c)

/-- A register shifted by one bit: the bit nearest TDO leaves. -/
def shiftIn (l : List Bool) (tdi : Bool) : List Bool := l.drop 1 ++ [tdi]

/-- A rising edge of TCK: what the state does, and the next state. -/
def tckRises (v : Variant) (c : Commons) (tms tdi : Bool) : JtagState :=
  let j := c.jtag
  let j1 : JtagState := match j.tap with
    | .captureDr => { j with shift := captureDr v c }
    | .captureIr => { j with shift := (List.range Config.jtagIrLen).map fun n => decide (n = 0) }
    | .shiftDr | .shiftIr => { j with shift := shiftIn j.shift tdi }
    | _ => j
  { j1 with tap := j.tap.next tms }

/-- The value that bits hold, the one nearest TDO least significant. -/
def bitsNat (l : List Bool) : Nat := l.foldr (fun b n => b2n b + 2 * n) 0

/-- A falling edge of TCK: an update takes effect, and TDO is driven in the two shift states only. -/
def tckFalls (j : JtagState) : JtagState :=
  let j1 : JtagState := match j.tap with
    | .updateDr => if j.instr = .sample ∨ j.instr = .extest then { j with latch := j.shift } else j
    | .updateIr => { j with instr := jtagInstr (bitsNat j.shift) }
    | .reset => { j with instr := .idcode }
    | _ => j
  { j1 with tdo := if j.tap = .shiftDr ∨ j.tap = .shiftIr then j.shift.head? else none }

/-- The JTAG balls as the world drives them at an LT: TCK, TMS, TDI, TRST_N in bits 0 to 3. TRST_N low resets the controller. -/
def jtagTick (v : Variant) (c : Commons) : Commons :=
  let p := Config.jtagPins c.lt
  let tck := p.getLsbD 0
  let j := c.jtag
  let j1 : JtagState :=
    if !p.getLsbD 3 then { j with tap := .reset, instr := .idcode, tdo := none }
    else if tck && !j.tck then tckRises v c (p.getLsbD 1) (p.getLsbD 2)
    else if !tck && j.tck then tckFalls j
    else j
  { c with jtag := { j1 with tck := tck } }

/-! ## Register access (R314) -/

/-- Loupe is open for JTAG (R314, R315). -/
def jtagOpen (c : Commons) : Bool := c.tamp.opened.any fun o => nbit o.1 2

/-- JTAG reaches a page: LOUPE always, for the unlock exchange; every page while Loupe grants register access to JTAG (SCOPE bit 2).
DESIGN CHOICE: by the addresses of BAR0; its writes to side pages wait at the chain port's place at the sequencer. -/
def jtagReaches (c : Commons) (page : Option Nat) : Bool :=
  decide (page = some Pg.LOUPE) || jtagOpen c

end Sys2Proof.Machine
end

