-- ==== Sys2Proof/Machine/Reset.lean ====
section
/-! DEFINITION. Resets, clock losses, host boot and the general-purpose balls (chapters 19 and 20). -/

namespace Sys2Proof.Machine

open Sys2Proof

/-! ## Start (R308, R552, R557) -/

/-- The tamper checks before step 2: active enabled sources are recorded, and if they or an earlier CAUSE block the start,
AT_START and KEYLESS_BOOT are set (R307, R308). -/
def tamperChecks (s : State) (status : Nat) : State :=
  let s1 := s.updC fun c => { c with tamp := { c.tamp with status := status % 128, statusAt := c.lt } }
  if tamperBlocks s1.c then
    let active := (bitsBelow (status % 128) 7).filter fun n => rb s1.c.regs Pg.TAMP Reg.TAMP_SRC_EN n
    let s2 := active.foldl (fun s n => recordTrip s n 10) s1
    let s3 := s2.updC fun c => c.hwSet Pg.TAMP Reg.TAMP_CAUSE (bitMask 10)
    s3.updTamp fun k => { k with keylessBoot := true }
  else s1.updTamp fun k => { k with keylessBoot := false, zeroized := false }

/-- Both sides start, side B where the variant has it; GRANT_WAIT runs (R419, R557). -/
def startSides (s : State) (keepA keepB : Bool) : State :=
  let s1 := bootSide s .a keepA
  let s2 := if s.variant.full then bootSide s1 .b keepB else s1
  (s2.updK fun k => { k with grantDue := some (s2.c.lt + grantWaitNs s2.c) }).reach 3

/-- PORST_N asserted: the whole part resets; MRAM keeps its contents (R551). PRESUMED: the test access port is reset by TRST_N alone, as
IEEE 1149.1 has it, not by PORST_N or WRST_N. -/
def porst (s : State) : State :=
  { State.reset with
    pending := s.pending, variant := s.variant
    c := { Commons.reset with sys := { SysState.reset with banksUp := s.c.sys.banksUp }, jtag := s.c.jtag }
    a := { Side.reset with mram := s.a.mram }
    b := { Side.reset with mram := s.b.mram } }

/-- PORST_N released: the straps are sampled, the clocks start, the tamper checks run and both sides start (R555, R557). -/
def porstRelease (s : State) (straps tamper : Nat) : State :=
  if !s.c.sys.porstLow then s
  else
    let s0 := s.updC fun c => { c with lt := 0, time := { c.time with unsync := true } }
    let s1 := s0.updSys fun y =>
      { y with porstLow := false, straps := straps % 64, pll := 31, xtalOk := true, x32Rc := true, pcieRef := true, sdsRef := true }
    startSides (tamperChecks s1 tamper) false false

/-- Registers after WRST_N: those of LATH, PLUMB, TAMP, LOUPE, CLK and RST stay, but for the error records, LOCK and BOOT_OVR
(R551, R556). -/
def warmRegs (t : Tab Word) : Tab Word :=
  let kept := t.filter fun e => [Pg.LATH, Pg.PLUMB, Pg.TAMP, Pg.LOUPE, Pg.CLK, Pg.RST].contains ((e.1 / 4096) % 128)
  let gone := [Reg.HDR_ERR_STICKY, Reg.HDR_ERR_FIRST, Reg.HDR_ERR_LT, Reg.HDR_LOCK]
  let t1 := kept.filter fun e => !(gone.contains (e.1 % 4096))
  wr t1 Pg.RST Reg.RST_BOOT_OVR 0

/-- A port after WRST_N: reset, its dwell windows kept (R120, R551). -/
def RfPort.warm (q : RfPort) (lo : Nat) : RfPort :=
  { RfPort.reset lo with dwell := q.dwell, dwellIdx := q.dwellIdx, dwellNext := q.dwellNext }

/-- The commons after WRST_N (table "Reset effects"). -/
def Commons.warm (c : Commons) : Commons :=
  { Commons.reset with
    lt := c.lt, regs := warmRegs c.regs, time := c.time, duty := c.duty, tamp := { c.tamp with trng := [], asked := none }
    rfS := c.rfS.warm 0x8E30, rfM := c.rfM.warm 0x11DF0, rfH := c.rfH.warm 0x5F61
    evt := { EvtState.reset with sent := c.evt.sent, slotPend := c.evt.slotPend }
    hostA := c.hostA, hostB := c.hostB
    bezel := { BezelState.reset with seq := c.bezel.seq }
    jtag := c.jtag
    sys := { SysState.reset with
      straps := c.sys.straps, porstLow := false, pll := 31, xtalOk := true, x32Rc := c.sys.x32Rc, pcieRef := c.sys.pcieRef
      sdsRef := c.sys.sdsRef, ref10 := c.sys.ref10, warmStart := true, banksUp := c.sys.banksUp } }

/-- WRST_N, or SIDE_CMD.WARM: the part restarts from the tamper check; a root is kept unless its side is keyless and the
checks pass, or its Locket was off (R551, R552). -/
def warmReset (s : State) (tamper : Nat) : State :=
  if s.c.sys.porstLow then s
  else
    let locketOff (x : SideId) : Bool := decide (s.c.pd.dom (locketDomain x) = .off)
    let keep (d : Side) (x : SideId) (pass : Bool) : Bool := pass && !d.key.keyless && !locketOff x
    let s1 := s.updC Commons.warm
    let s2 := s1.updC fun c => (c.hwSet Pg.RST Reg.RST_CAUSE (bitMask 1)).count Pg.RST Reg.RST_WARM_RESETS
    let s3 := tamperChecks s2 tamper
    let pass := !tamperBlocks s3.c
    startSides s3 (keep s.a .a pass) (keep s.b .b pass)

/-- A per-side reset of one side (R432, R551, R553, R554). -/
def sideReset (s : State) (x : SideId) : State :=
  let st := s.c.bezel.st x
  if !s.variant.full && decide (x = .b) then s
  else if s.c.clasp.holder = some x ∧ single s then s.updC fun c => c.err Pg.RST 0
  else
    let bit := if x = .a then 2 else 3
    let s1 := s.updC fun c => (c.hwSet Pg.RST Reg.RST_CAUSE (bitMask bit)).count Pg.RST Reg.RST_SIDE_RESETS
    if st = .compared ∨ st = .selfCheck then sideError s1 x
    else if st = .refill ∨ (st = .boot ∧ s.c.bezel.refilling) then refillFail s1 3
    else bootSide s1 x false

/-- A write to RST.SIDE_CMD: side writes are ignored; both resets, or WARM with any, is a warm reset (R553). -/
def writeSideCmd (s : State) (r : Requester) (v : Word) : State :=
  match r with
  | .core _ => s
  | _ =>
    if bitOf v 4 ∨ (bitOf v 0 ∧ bitOf v 1) then warmReset s s.c.tamperActive
    else if bitOf v 0 then sideReset s .a
    else if bitOf v 1 then sideReset s .b
    else s

/-! ## Clocks (R549, R550) -/

/-- A PLL loses lock. -/
def pllLost (s : State) (n : Nat) : State :=
  let s1 := s.updSys fun y => { y with pll := setNBit y.pll n false }
  (s1.bumpC Pg.CLK Reg.CLK_PLL_UNLOCK).updC fun c => c.err Pg.CLK 0

/-- The commons stop until WRST_N; AON carries LT (R63, R549). -/
def commonsStop (s : State) : State :=
  (s.updSys fun y => { y with commonsStopped := true }).updC fun c =>
    if c.sys.porstLow then c else { c with time := { c.time with coarse := true, lastFine := c.lt } }

/-- Both Ethernet links go down (R508, R549). -/
def ethLinksDown (s : State) : State := ethLink (ethLink s false false 0) true false 0

/-- CLOCK_LOSS (table "Clock loss"). -/
def clockLoss (s : State) : ClockId → State
  | .pllA => sideError (pllLost s 0) .a
  | .pllB => if s.variant.full then sideError (pllLost s 1) .b else s
  | .pllC => commonsStop (pllLost s 2)
  | .pllRf => commonsStop (pllLost s 3)
  | .pllSds => ethLinksDown (pllLost s 4)
  | .xtal => s.updC xtalStops
  | .sdsRef =>
    let s1 := (s.bumpC Pg.CLK Reg.CLK_REFCLK_LOSS).updC fun c => c.err Pg.CLK 3
    ethLinksDown (s1.updSys fun y => { y with sdsRef := false })
  | .pcieRef =>
    let s1 := (s.bumpC Pg.CLK Reg.CLK_REFCLK_LOSS).updC fun c => c.err Pg.CLK 2
    let s2 := hostPortReset (s1.updSys fun y => { y with pcieRef := false }) false .linkLoss
    if s.variant.full then hostPortReset s2 true .linkLoss else s2

/-! ## Host and chain boot (R561) -/

/-- The port of the boot source. -/
def bootPort (s : State) : Option Requester :=
  let n := bootSource s
  if n = 1 then some .hostA else if n = 2 then some .hostB else if n = 3 then some .chain else none

/-- A write to HBOOT_DATA: four bytes at HBOOT_ADDR, which advances; another port's is rejected (R561). -/
def writeHbootData (s : State) (r : Requester) (v : Word) : State :=
  if bootPort s ≠ some r then s.bumpC Pg.RST Reg.RST_HBOOT_REJ
  else
    let a := rf s.c.regs Pg.RST Reg.RST_HBOOT_ADDR 20 2 * 4
    let s1 := s.updSys fun y => { y with hboot := putBytes y.hboot a (leBytes 4 v.toNat) }
    s1.updR fun t => wr t Pg.RST Reg.RST_HBOOT_ADDR (w32 ((a + 4) % 2 ^ 21))

/-- A write of 1 to HBOOT_GO: each side that waits at step 4 verifies the image next (R561). -/
def writeHbootGo (s : State) (r : Requester) : State :=
  if bootPort s ≠ some r then s.bumpC Pg.RST Reg.RST_HBOOT_REJ
  else s.updSys fun y => { y with hbootA := y.hbootA || atStep4 s .a, hbootB := y.hbootB || atStep4 s .b }

/-! ## General-purpose balls (R577 to R580) -/

/-- A masked write to GPIO_OUT or GPIO_DIR: only the bits that the writer owns change, the others are noted in GPIO_IGN
(R578). -/
def writeGpio (c : Commons) (r : Requester) (dir : Bool) (v : Word) : Commons :=
  let own := rf c.regs Pg.TPO Reg.TPO_GPIO_OWN 15 0
  let mine (n : Nat) : Bool := nbit own n == r.isCore
  let asked := bitsBelow (fld v 31 16) 16
  let put (x : Nat) : Nat := (asked.filter mine).foldl (fun x n => setNBit x n (bitOf v n)) x
  let ign := (asked.filter fun n => !mine n).foldl (fun x n => setNBit x n true) c.sys.gpioIgn
  ({ c with sys := { c.sys with gpioIgn := ign, gpioOut := if dir then c.sys.gpioOut else put c.sys.gpioOut
                                gpioDir := if dir then put c.sys.gpioDir else c.sys.gpioDir } }).mark Pg.TPO Reg.TPO_GPIO_IGN
    (w32 ((asked.filter fun n => !mine n).foldl (fun x n => setNBit x n true) 0))

end Sys2Proof.Machine
end

