-- ==== Sys2Proof/Machine/Views.lean ====
section
/-! DEFINITION. What a register reads: the stored value, or for a status register the value that the state of its unit gives
at the moment of the read (R3, R467 to R475, R526 and the page tables). -/

namespace Sys2Proof.Machine

open Sys2Proof

/-! ## Registers selected through an index register -/

/-- The key of the bucket pair that SHP_IDX selects; LEVEL 3 is treated as 2. -/
def shpKey (t : Tab Word) : Nat :=
  bucketKey (min 2 (rf t Pg.TROWEL Reg.TROWEL_SHP_IDX 17 16)) (rf t Pg.TROWEL Reg.TROWEL_SHP_IDX 12 0)

/-- The index of a commons register that an index register selects; 0 for a register of its own. -/
def commonsIdx (t : Tab Word) (page off : Nat) : Nat :=
  if page = Pg.ETH0 ∨ page = Pg.ETH1 then
    if off = Reg.ETH_VID_MAP then rf t page Reg.ETH_VID_IDX 9 0
    else if off = Reg.ETH_MC_LO ∨ off = Reg.ETH_MC_HI then rf t page Reg.ETH_MC_IDX 3 0 else 0
  else if page = Pg.CEVT then if off = Reg.CEVT_SRC_ROUTE then rf t page Reg.CEVT_SRC_IDX 7 0 else 0
  else if Pg.FACET ≤ page ∧ page < Pg.FACET + 3 then
    if off = Reg.FACET_CH_LANES ∨ (Reg.FACET_CHSEL_DET ≤ off ∧ off ≤ Reg.FACET_CHSEL_FULL) then rf t page Reg.FACET_CH_SEL 7 0
    else 0
  else if page = Pg.PD then if off = Reg.PD_DOM_CFG then rf t page Reg.PD_DOM_IDX 6 0 else 0
  else if page = Pg.PMB then
    if Reg.PMB_RAIL_CFG ≤ off ∧ off ≤ Reg.PMB_RAIL_VRET then rf t page Reg.PMB_RAIL_IDX 1 0 else 0
  else if page = Pg.WAKE then
    if Reg.WAKE_PROF_MASK ≤ off ∧ off < Reg.WAKE_PROF_MASK + 12 then rf t page Reg.WAKE_PROF_IDX 2 0 else 0
  else 0

/-- The index of a side register that an index register selects. -/
def sideIdx (t : Tab Word) (page off : Nat) : Nat :=
  if page = Pg.STRAND then
    if off = Reg.STRAND_CFG ∨ (Reg.STRAND_PUSHED ≤ off ∧ off ≤ Reg.STRAND_BAD_DESC) then rf t page Reg.STRAND_SEL 5 0 else 0
  else if page = Pg.SEVT then if off = Reg.SEVT_SRC_ROUTE then rf t page Reg.SEVT_SRC_IDX 7 0 else 0
  else if page = Pg.NODE then if off = Reg.NODE_TEN_LIMIT then rf t page Reg.NODE_TEN_IDX 9 0 else 0
  else if page = Pg.FILIG then if off = Reg.FILIG_TEN_MAP then rf t page Reg.FILIG_TEN_IDX 9 0 else 0
  else if page = Pg.SEC then if off = Reg.SEC_TEN_CFG then rf t page Reg.SEC_TEN_IDX 9 0 else 0
  else if page = Pg.TROWEL then if Reg.TROWEL_SHP_CIR ≤ off ∧ off ≤ Reg.TROWEL_SHP_PBS then shpKey t else 0
  else if page = Pg.GATE then if off = Reg.GATE_SWAPS then rf t page Reg.GATE_CAR_IDX 3 0 else 0
  else if page = Pg.SPMB then
    if Reg.PMB_RAIL_CFG ≤ off ∧ off ≤ Reg.PMB_RAIL_VRET then rf t page Reg.PMB_RAIL_IDX 1 0 else 0
  else 0

/-! ## The common header -/

/-- Unit codes of commons pages 0 to 30 (table "Commons pages"). -/
def commonsUnits : List Nat :=
  [0x01, 0x02, 0x03, 0x04, 0x05, 0x06, 0x07, 0x07, 0x07, 0x08, 0x08, 0x08, 0x09, 0x0A, 0x0B, 0x0C, 0x0D, 0x0E, 0x0F, 0x10, 0x11,
   0x12, 0x13, 0x14, 0x15, 0x16, 0x17, 0x18, 0x19, 0x1A, 0x1B]

/-- Unit codes of side pages 0 to 17 (table "Side pages"). -/
def sideUnits : List Nat :=
  [0x20, 0x21, 0x11, 0x22, 0x23, 0x24, 0x25, 0x26, 0x27, 0x28, 0x29, 0x2A, 0x2B, 0x2C, 0x2D, 0x2E, 0x2F, 0x17]

/-- PAGE_ID: unit code, instance, version (R472). -/
def pageIdWord (unit inst : Nat) : Word := w32 (65536 * unit + inst * 256 + 1)

/-- PAGE_ID of a commons page. -/
def commonsPageId (page : Nat) : Word :=
  let inst := if Pg.CHZ ≤ page ∧ page < Pg.CHZ + 3 then page - Pg.CHZ
    else if Pg.FACET ≤ page ∧ page < Pg.FACET + 3 then page - Pg.FACET else 0
  pageIdWord (if page = Pg.ERR then 0x1C else commonsUnits.getD page 0) inst

/-- PAGE_ID of a side page. -/
def sidePageId (x : SideId) (page : Nat) : Word := pageIdWord (sideUnits.getD (page - 64) 0) (16 * x.num)

/-- CAP of every present page: the variant's units (R473). -/
def capWord : Variant → Word
  | .kl9680 => 0xFF#32
  | .kl9640 => 0xEF#32
  | .kl9620 => 0x09#32

/-- EVT_ROUTE from the two source numbers (table "EVT_ROUTE fields"). -/
def routeWord (evt err : Nat) : Word := w32 (evt + err * 256 + 3 * 65536)

/-- STAT: ENABLED, BUSY, DISABLE_PENDING; fixed pages read 1 or 3 (R470). -/
def statWord (t : Tab Word) (page : Nat) (idle : Bool) : Word :=
  let v := if fixedPages.contains page then 1#32 else rd t page Reg.HDR_STAT
  setBit v 1 (!idle)

/-- A header register of a commons page. -/
def commonsHdr (s : State) (page off : Nat) (v : Word) : Word :=
  if off = Reg.HDR_PAGE_ID then commonsPageId page
  else if off = Reg.HDR_CAP then capWord s.variant
  else if off = Reg.HDR_STAT then statWord s.c.regs page (commonsIdle s.c page)
  else if off = Reg.HDR_EVT_ROUTE then let n := if page = Pg.ERR then 31 else page
                                       routeWord n (n + 32)
  else if off = Reg.HDR_EVT_STAT ∧ page = Pg.ERR then w32 s.c.evt.errEvt
  else v

/-- A header register of a side page. -/
def sideHdr (vr : Variant) (x : SideId) (d : Side) (page off : Nat) (v : Word) : Word :=
  if off = Reg.HDR_PAGE_ID then sidePageId x page
  else if off = Reg.HDR_CAP then capWord vr
  else if off = Reg.HDR_STAT then statWord d.regs page (d.unitIdle page)
  else if off = Reg.HDR_EVT_ROUTE then routeWord (page + 128) (page + 160)
  else v

/-! ## Commons pages -/

/-- Bits from flags, bit 0 first. -/
def flagBits (l : List Bool) : Nat := l.foldr (fun b n => b2n b + 2 * n) 0

/-- The low or high word of a 64-bit value. -/
def halfWord (hi : Bool) (n : Nat) : Word := w32 (if hi then n / 2 ^ 32 else n)

/-- LATH. -/
def viewLath (c : Commons) (off : Nat) (v : Word) : Word :=
  let t := c.time
  if off = Reg.LATH_LT_LO then w32 c.lt
  else if off = Reg.LATH_LT_HI then w32 t.ltHi
  else if off = Reg.LATH_STAT then
    w32 (flagBits [t.unsync, t.holdover.isSome, t.slewing, t.coarse] + 16 * t.source + 128 * b2n t.pend.isSome)
  else v

/-- PLUMB. -/
def viewPlumb (vr : Variant) (c : Commons) (off : Nat) (v : Word) : Word :=
  let t := c.time
  let pend := unsignedOf 64 (t.pend.getD 0)
  if off = Reg.PLUMB_STAT then
    w32 (((List.range 5).map fun k => b2n (srcValid vr t (k + 1)) * 2 ^ (k + 1)).sum + 256 * b2n t.locked)
  else if off = Reg.PLUMB_OFFSET then w32 (satSigned 32 t.offset)
  else if off = Reg.PLUMB_FREQ_ADJ then w32 (satSigned 32 t.freqAdj)
  else if off = Reg.PLUMB_PEND_STEP_LO then halfWord false pend
  else if off = Reg.PLUMB_PEND_STEP_HI then halfWord true pend
  else v

/-- TPO and GPIO: the mask halves of GPIO_OUT and GPIO_DIR read zero. DEDUCED. -/
def viewTpo (c : Commons) (off : Nat) (v : Word) : Word :=
  if off = Reg.TPO_GPIO_OUT then w32 c.sys.gpioOut
  else if off = Reg.TPO_GPIO_DIR then w32 c.sys.gpioDir
  else if off = Reg.TPO_GPIO_IN then w32 (gpioIn c)
  else if off = Reg.TPO_GPIO_IGN then w32 c.sys.gpioIgn
  else if Reg.TPO_STAT ≤ off ∧ off < Reg.TPO_STAT + 128 ∧ (off - Reg.TPO_STAT) % 32 = 0 then
    setBit v 0 (c.tpoAt ((off - Reg.TPO_STAT) / 32)).next.isSome
  else v

/-- A burst window of a carrier is open. -/
def carrierBusy (c : Commons) (p : RPort) (n : Nat) : Bool := ((c.port p).carrier n).bursts.any fun b => winOpen c p b

/-- RFx. -/
def viewRf (c : Commons) (p : RPort) (off : Nat) (v : Word) : Word :=
  let q := c.port p
  if off = Reg.RF_PORT_STAT then
    w32 (flagBits [q.calDone, q.retuneEnd.isSome, q.gapEnd.isSome, halfDuplex c p, carrierBusy c p 0, carrierBusy c p 1,
                   carrierBusy c p 2, carrierBusy c p 3] + 256 * (agcGain c p % 64))
  else v

/-- The channels that a burst on a channel blanks, among the 32 from `lo` (R105, R107). DEDUCED: of the enabled ones. -/
def blankMap (c : Commons) (p : RPort) (ch lo : Nat) : Nat :=
  let q := c.port p
  match q.chans.find ch with
  | none => 0
  | some d => ((q.chans.filter fun e => decide (lo ≤ e.1 ∧ e.1 < lo + 32) && e.2.enabled && (halfDuplex c p ||
      decide (binDistance d.lowBin d.highBin e.2.lowBin e.2.highBin < rf c.regs p.rfPage Reg.RF_BLANK_DIST 8 0))).map
        fun e => 2 ^ (e.1 - lo)).sum

/-- CHZ. -/
def viewChz (c : Commons) (p : RPort) (off : Nat) (v : Word) : Word :=
  let q := c.port p
  let ch := rf c.regs p.chzPage Reg.CHZ_RSSI_IDX 7 0
  if off = Reg.CHZ_CTX_STAT then w32 ((q.chans.map fun e => e.2.uses).sum + 65536 * contexts p)
  else if off = Reg.CHZ_RSSI then
    let code (k : Nat) : Nat := rssiAdj c p (Config.rssiCode (p.num * 256 + ch) (2 * c.lt + k) % 512)
    w32 (code 0 + 65536 * code 1)
  else if Reg.CHZ_BLANK_MAP ≤ off ∧ off < Reg.CHZ_BLANK_MAP + 32 then
    w32 (blankMap c p (rf c.regs p.chzPage Reg.CHZ_BLANK_IDX 7 0) (8 * (off - Reg.CHZ_BLANK_MAP)))
  else v

/-- DUTY. -/
def viewDuty (c : Commons) (off : Nat) (v : Word) : Word :=
  if off = Reg.DUTY_BUCKET_IDX then w32 c.duty.idx
  else if Reg.DUTY_ACCT_USED ≤ off ∧ off < Reg.DUTY_ACCT_USED + 256 ∧ (off - Reg.DUTY_ACCT_USED) % 16 = 0 then
    w32 (ceilDiv (dutyUsed c.duty ((off - Reg.DUTY_ACCT_USED) / 16)) 1000)
  else v

/-- FACET. -/
def viewFacet (c : Commons) (p : RPort) (off : Nat) (v : Word) : Word :=
  let q := c.port p
  if off = Reg.FACET_LANE_STAT then setFld v 8 0 q.lanes.length
  else if off = Reg.FACET_RSV_STAT then
    let owedAll := (bankEntries c.regs p.facetPage Reg.FACET_CH_LANES).foldl (fun n e => n + owed q e.1 e.2) 0
    w32 (rsvSum c p % 512 + 65536 * (owedAll % 512))
  else v

/-- AIR. -/
def viewAir (c : Commons) (off : Nat) (v : Word) : Word :=
  let a := c.air
  if off = Reg.AIR_RXBUF_STAT then w32 (a.cellsUsed + 65536 * a.rxPeak)
  else if off = Reg.AIR_PL_STAT then w32 (a.list.length + 65536 * a.listPeak)
  else if off = Reg.AIR_PL_QRES then match a.qres with
    | some hit => w32 (1 + 2 * b2n hit)
    | none => 0
  else v

/-- TAMP. -/
def viewTamp (c : Commons) (off : Nat) (v : Word) : Word :=
  if off = Reg.TAMP_STAT then w32 (c.tamperActive + 256 * b2n c.tamp.keylessBoot + 512 * b2n c.tamp.zeroized) else v

/-- A word of a value held as octets, word 0 and its most significant octet first. DEDUCED. -/
def octetWord (bs : List Byte) (j : Nat) : Word := w32 (beNat (slice bs (4 * j) 4))

/-- The register of an array at an offset. -/
def within (base n off : Nat) : Bool := decide (base ≤ off) && decide (off < base + 4 * n)

/-- Seconds of the lockout that remain. -/
def lockoutLeft (c : Commons) : Nat := match c.tamp.lockEnd with
  | some t => ceilDiv (t - c.lt) 1000000000
  | none => 0

/-- LOUPE. -/
def viewLoupe (c : Commons) (off : Nat) (v : Word) : Word :=
  let k := c.tamp
  if off = Reg.LOUPE_STAT then
    let o := k.opened.getD (0, false)
    w32 (flagBits [k.opened.isSome, k.nonce.isSome, k.lockEnd.isSome] + 16 * (o.1 % 16) + 256 * b2n o.2 + 4096 * (k.result % 16))
  else if off = Reg.LOUPE_FAILS then w32 k.fails
  else if off = Reg.LOUPE_LOCKOUT_LEFT then w32 (lockoutLeft c)
  else if within Reg.LOUPE_NONCE 8 off then match k.nonce with
    | some n => octetWord n.1 ((off - Reg.LOUPE_NONCE) / 4)
    | none => 0
  else if within Reg.LOUPE_RESP_KEY 32 off then 0
  else if within Reg.LOUPE_DBG_OP_HASH 8 off then octetWord (Config.dbgHash 0) ((off - Reg.LOUPE_DBG_OP_HASH) / 4)
  else if within Reg.LOUPE_DBG_VEN_HASH 8 off then octetWord (Config.dbgHash 1) ((off - Reg.LOUPE_DBG_VEN_HASH) / 4)
  else v

/-- IBE. -/
def viewIbe (c : Commons) (off : Nat) (v : Word) : Word :=
  let k := c.ibe
  let a := k.args
  let blocks := List.range a.z
  if off = Reg.IBE_STAT then w32 (k.phase + 16 * k.ended + 256 * (a.session % 256) + 65536 * (a.image % 8))
  else if off = Reg.IBE_SESS_TEN then w32 (a.tenant % 1024 + 1024 * (a.service % 8))
  else if off = Reg.IBE_GEOM then w32 (a.t % 2048 + 65536 * (a.z % 512))
  else if off = Reg.IBE_K_TOTAL then w32 (if k.phase = 0 then 0 else (blocks.map k.kOf).sum)
  else if off = Reg.IBE_REPORTS then w32 k.reports
  else if off = Reg.IBE_MEM_USED then
    w32 (if k.phase = 1 ∨ k.phase = 2 then ceilDiv ((blocks.map fun b => Config.interSymbols (k.kOf b) * a.t).sum) 1024 else 0)
  else v

/-- SEM. -/
def viewSem (c : Commons) (off : Nat) (v : Word) : Word :=
  let held (lo : Nat) : Word :=
    w32 (((List.range 32).map fun n => if rf c.regs Pg.SEM (Reg.SEM_SEM + 4 * (lo + n)) 10 8 = 0 then 0 else 2 ^ n).sum)
  if off = Reg.SEM_HELD_LO then held 0 else if off = Reg.SEM_HELD_HI then held 32 else v

/-- CLASP; EXPIRY reads all ones on the KL9620 (R424). -/
def viewClasp (vr : Variant) (c : Commons) (off : Nat) (v : Word) : Word :=
  let k := c.clasp
  let h := match k.vote with
    | some r => r
    | none => ⟨0, 0, 0⟩
  let exp := if vr.full then h.expiry else 2 ^ 64 - 1
  if off = Reg.CLASP_STAT then w32 (h.holder + 4 * b2n k.drillHome.isSome + 65536 * h.token)
  else if off = Reg.CLASP_EXPIRY_LO then halfWord false exp
  else if off = Reg.CLASP_EXPIRY_HI then halfWord true exp
  else v

/-- The codes of the table "Side states". -/
def SideSt.code : SideSt → Nat
  | .off => 0
  | .boot => 1
  | .refill => 2
  | .compared => 3
  | .alone => 4
  | .selfCheck => 5
  | .stopped => 6

/-- BEZEL.STAT.SINGLE (R27, R28). -/
def singleBit (s : State) : Bool := !s.variant.full || decide (s.c.bezel.stA = .alone ∨ s.c.bezel.stB = .alone)

/-- BEZEL. -/
def viewBezel (s : State) (off : Nat) (v : Word) : Word :=
  let z := s.c.bezel
  if off = Reg.BEZEL_STAT then
    w32 (flagBits [singleBit s, z.hold.isSome || z.dead, z.pathBadA, z.pathBadB] + 16 * z.stA.code +
      256 * (if s.variant.full then z.stB.code else 0) + 4096 * z.lastCause)
  else if off = Reg.BEZEL_SEQ_LO then halfWord false z.seq
  else if off = Reg.BEZEL_SEQ_HI then halfWord true z.seq
  else if off = Reg.BEZEL_SKEW_NOW then w32 z.skewNow
  else if off = Reg.BEZEL_SKEW_MAX then w32 z.skewMax
  else if off = Reg.BEZEL_GAP_MAX then w32 (min 1023 z.gapMax)
  else if off = Reg.BEZEL_CATCHUP then w32 (min (catchBytes s) (2 ^ 23 - 1) + 2 ^ 31 * b2n (catchFull s))
  else if off = Reg.BEZEL_REFILL_CAUSE then w32 z.refillCause
  else if off = Reg.BEZEL_READ_DIFF_ADDR then w32 z.readDiff
  else if off = Reg.BEZEL_ROOT_CHECK then w32 z.rootCheck
  else if off = Reg.BEZEL_IMG_CHECK then w32 z.imgCheck
  else if off = Reg.BEZEL_MISMATCH_SEQ_LO then halfWord false z.misSeq
  else if off = Reg.BEZEL_MISMATCH_SEQ_HI then halfWord true z.misSeq
  else v

/-- 32 bits of a set of numbers from `lo`. -/
def setWord (l : List Nat) (lo : Nat) : Word :=
  w32 (((l.filter fun n => decide (lo ≤ n ∧ n < lo + 32)).map fun n => 2 ^ (n - lo)).sum)

/-- EVT, commons instance. -/
def viewCevt (c : Commons) (off : Nat) (v : Word) : Word :=
  let e := c.evt
  let pend := e.lastPend ++ e.sidePend
  let n := rf c.regs Pg.CEVT Reg.CEVT_SRC_IDX 7 0
  if off = Reg.CEVT_SRC_STAT then w32 (flagBits [pend.contains n, e.armed false n, e.armed true n])
  else if within Reg.CEVT_PEND 8 off then setWord pend (8 * (off - Reg.CEVT_PEND))
  else if off = Reg.CEVT_MSG_A then w32 e.msgA
  else if off = Reg.CEVT_MSG_B then w32 e.msgB
  else if off = Reg.CEVT_MOD_DEFER then w32 e.modDefer
  else v

/-- HOSTx. -/
def viewHost (c : Commons) (second : Bool) (off : Nat) (v : Word) : Word :=
  let h := c.host second
  if off = Reg.HOST_LINK_STAT then
    w32 (h.speed % 4 + 16 * (h.width % 4) + 256 * flagBits [h.up, h.bme, h.msixEn, h.funcMask])
  else v

/-- CHAIN. -/
def viewChain (c : Commons) (off : Nat) (v : Word) : Word :=
  if off = Reg.CHAIN_ADDR then w32 (c.chain.addr + 256 * b2n c.chain.eno + 512 * b2n c.chain.eni) else v

/-- ETHx. -/
def viewEth (c : Commons) (second : Bool) (off : Nat) (v : Word) : Word :=
  if off = Reg.ETH_LINK then w32 (b2n (c.eth second).up + 2 * (c.eth second).speed) else v

/-- The code of a domain's state. -/
def DomSt.code : DomSt → Nat
  | .on => 0
  | .ret => 1
  | .off => 2

/-- PD. -/
def viewPd (s : State) (off : Nat) (v : Word) : Word :=
  let p := s.c.pd
  let n := rf s.c.regs Pg.PD Reg.PD_DOM_IDX 6 0
  if off = Reg.PD_REQ_STAT then w32 (b2n p.run.isSome + 2 * min 8 p.queue.length + 256 * (p.result % 16))
  else if off = Reg.PD_PD_REFUSE then match p.refuse with
    | some (dom, why) => w32 (dom + 256 * (why % 16) + 2 ^ 31)
    | none => 0
  else if off = Reg.PD_DOM_STAT then
    let step := match p.run with
      | some r => if (r.todo.head?.map (·.1)) = some n then r.step % 8 else 0
      | none => 0
    w32 ((domState s n).code + 4 * step + 256 * b2n (p.faults.contains n))
  else if within Reg.PD_STATE 6 off then
    let lo := 4 * (off - Reg.PD_STATE)
    w32 (((List.range 16).map fun k => (domState s (lo + k)).code * 4 ^ k).sum)
  else v

/-- PMB of a controller port. -/
def viewPmb (p : PmbState) (entry off : Nat) (v : Word) : Word :=
  if off = Reg.PMB_RAIL_STAT then w32 ((p.status.find entry).getD 0 % 65536 + 65536 * b2n (decide (p.rail = some entry)))
  else if off = Reg.PMB_RAW_STAT then w32 p.rawStat
  else v

/-- CLK. -/
def viewClk (y : SysState) (off : Nat) (v : Word) : Word :=
  if off = Reg.CLK_STAT then
    w32 (flagBits [y.xtalOk, y.x32Rc] + 4 * (y.pll % 32) + 128 * flagBits [y.pcieRef, y.sdsRef, y.ref10])
  else v

/-- WAKE.CFG bits 14:8: the address that the straps give (R535). -/
def viewWake (c : Commons) (off : Nat) (v : Word) : Word := if off = Reg.WAKE_CFG then setFld v 14 8 (wakeAddr c) else v

/-- RST. -/
def viewRst (s : State) (off : Nat) (v : Word) : Word :=
  let y := s.c.sys
  let part := match s.variant with
    | .kl9680 => 0x9680
    | .kl9640 => 0x9640
    | .kl9620 => 0x9620
  if off = Reg.RST_REV then w32 (part + 0xA00000)
  else if off = Reg.RST_STRAPS then w32 (y.straps % 64)
  else if off = Reg.RST_STAT then w32 (y.step % 8 + 8 * b2n y.commonsEn + 16 * (y.bootA % 4) + 64 * (y.bootB % 4))
  else v

/-- Frames held under R454 in a side. -/
def Side.heldFrames (d : Side) : Nat :=
  let marked (f : Frame) : Bool := d.strand.marks.any fun m => decide (m.flow = f.node + 2 ^ 32)
  d.strand.held.length + (((d.trowel.queues.map fun e => e.2).flatten).filter marked).length +
    (d.pend.pool.filter fun p => marked p.f).length

/-- ERR. -/
def viewErr (s : State) (off : Nat) (v : Word) : Word :=
  if off = Reg.ERR_SUM_C_LO then setWord (summary s) 0
  else if off = Reg.ERR_SUM_C_HI then setWord (summary s) 32
  else if off = Reg.ERR_SUM_A then setWord (summary s) 64
  else if off = Reg.ERR_SUM_B then setWord (summary s) 96
  else if off = Reg.ERR_FIRST_PAGE then match s.c.evt.firstPage with
    | some n => w32 (n + 2 ^ 31)
    | none => 0
  else if off = Reg.ERR_FIRST_PLT then w32 s.c.evt.firstPlt
  else if off = Reg.ERR_HELD_NOW then w32 (s.side (activeSide s)).heldFrames
  else v

/-- A commons register below its header, by page. -/
def commonsBody (s : State) (page off : Nat) (v : Word) : Word :=
  let c := s.c
  match page with
  | 0 => viewLath c off v
  | 1 => viewPlumb s.variant c off v
  | 2 => viewTpo c off v
  | 3 => viewRf c .s off v
  | 4 => viewRf c .m off v
  | 5 => viewRf c .h off v
  | 6 => viewChz c .s off v
  | 7 => viewChz c .m off v
  | 8 => viewChz c .h off v
  | 9 => viewFacet c .s off v
  | 10 => viewFacet c .m off v
  | 11 => viewFacet c .h off v
  | 12 => viewAir c off v
  | 13 => viewDuty c off v
  | 14 => viewTamp c off v
  | 15 => viewLoupe c off v
  | 16 => viewIbe c off v
  | 17 => viewSem c off v
  | 18 => viewClasp s.variant c off v
  | 19 => viewBezel s off v
  | 20 => viewCevt c off v
  | 21 => viewHost c false off v
  | 22 => viewHost c true off v
  | 23 => viewChain c off v
  | 24 => viewWake c off v
  | 25 => viewPd s off v
  | 26 => viewPmb c.pmb (rf c.regs Pg.PMB Reg.PMB_RAIL_IDX 1 0) off v
  | 27 => viewClk c.sys off v
  | 28 => viewRst s off v
  | 29 => viewEth c false off v
  | 30 => viewEth c true off v
  | 63 => viewErr s off v
  | _ => v

/-- The domain of a commons page is not on (R526). -/
def pageDark (s : State) (page : Nat) : Bool := match pageDom page with
  | some n => decide (domState s n ≠ .on)
  | none => false

/-- What a commons register reads: zero in an absent page, at a reserved offset, and in a page whose domain is not on but for
PAGE_ID, CAP and STAT (R3, R469, R526). -/
def commonsRead (s : State) (page off : Nat) : Word :=
  if !pagePresent s.variant page then 0
  else match regRow page off with
    | none => 0
    | some _ =>
      if pageDark s page ∧ off ≠ Reg.HDR_PAGE_ID ∧ off ≠ Reg.HDR_CAP ∧ off ≠ Reg.HDR_STAT then 0
      else
        let v := rdI s.c.regs page off (commonsIdx s.c.regs page off)
        if off < 0x40 then commonsHdr s page off v else commonsBody s page off v

/-! ## Side pages -/

/-- EVT, side instance (R488). -/
def viewSevt (d : Side) (off : Nat) (v : Word) : Word :=
  let sides (n : Nat) : Bool := bitOf (rdI d.seen.regs Pg.CEVT Reg.CEVT_SRC_ROUTE n) 16
  let pend := d.evt.commonsPend.filter sides ++ d.evt.lastPend
  if off = Reg.SEVT_SRC_STAT then w32 (b2n (pend.contains (rf d.regs Pg.SEVT Reg.SEVT_SRC_IDX 7 0)))
  else if within Reg.SEVT_PEND 8 off then setWord pend (8 * (off - Reg.SEVT_PEND))
  else v

/-- The codes of the table "Thread states". -/
def ThSt.code : ThSt → Nat
  | .suspended => 1
  | .ready => 2
  | .running => 3
  | .waiting => 4
  | .cancelled => 5

/-- The running time of a core with the run it is in (R406, R417). -/
def coreLoad (d : Side) (n : Nat) : Nat :=
  let run := if (d.disp.core n).cur.isSome then stSince (d.disp.core n).since d.st else 0
  (d.disp.load.find n).getD 0 + run

/-- The high half that a read of a LO register of DISP latches, with the offset of its HI register (R417). -/
def dispHi (d : Side) (off : Nat) : Option (Nat × Nat) :=
  if off = Reg.DISP_WAIT_CUM_LO then
    some (Reg.DISP_WAIT_CUM_HI, (halfWord true (d.disp.stat (rf d.regs Pg.DISP Reg.DISP_OBS_PRIO 5 0)).cum).toNat)
  else if Reg.DISP_CORE_LOAD_LO ≤ off ∧ off < Reg.DISP_CORE_LOAD_LO + 64 ∧ off % 8 = Reg.DISP_CORE_LOAD_LO % 8 then
    some (off + 4, (halfWord true (coreLoad d ((off - Reg.DISP_CORE_LOAD_LO) / 8))).toNat)
  else none

/-- What a read of a side register does to the side: a LO register of DISP latches its HI register (R417). DEDUCED: a core's
read and a paired-window read latch, at their place in the side's order; a read through a side range changes nothing (R22). -/
def Side.latchHi (d : Side) (page off : Nat) : Side :=
  if page = Pg.DISP then match dispHi d off with
    | some e => d.updDisp fun k => { k with hi := k.hi.put e.1 e.2 }
    | none => d
  else d

/-- DISP: the state of the dispatcher as its registers show it; a HI register shows what it latched (R417). -/
def viewDisp (d : Side) (off : Nat) (v : Word) : Word :=
  let k := d.disp
  let p := rf d.regs Pg.DISP Reg.DISP_OBS_PRIO 5 0
  let st := k.stat p
  let th := rf d.regs Pg.DISP Reg.DISP_TH_IDX 9 0
  let ob := rf d.regs Pg.DISP Reg.DISP_OBJ_IDX 11 0
  if off = Reg.DISP_THREADS then w32 (k.threads.length + 65536 * k.ready.length)
  else if off = Reg.DISP_READY_DEPTH then w32 (k.depth p + 65536 * st.peak)
  else if off = Reg.DISP_WAIT_CUM_LO then halfWord false st.cum
  else if off = Reg.DISP_WAIT_CUM_HI then w32 ((k.hi.find off).getD 0)
  else if off = Reg.DISP_WAIT_MAX then w32 st.max
  else if off = Reg.DISP_DISPATCHES then w32 st.dispatches
  else if Reg.DISP_CORE_LOAD_LO ≤ off ∧ off < Reg.DISP_CORE_LOAD_LO + 64 then
    if off % 8 = Reg.DISP_CORE_LOAD_LO % 8 then halfWord false (coreLoad d ((off - Reg.DISP_CORE_LOAD_LO) / 8))
    else w32 ((k.hi.find off).getD 0)
  else if within Reg.DISP_CORE_CUR 8 off then match (k.core ((off - Reg.DISP_CORE_CUR) / 4)).cur with
    | some t => w32 (t + 65536 * k.prio t)
    | none => 0x8000#32
  else if off = Reg.DISP_TH_INFO then match k.threads.find th with
    | some t => w32 (t.st.code + 256 * t.prio + 65536 * t.aff)
    | none => 0
  else if off = Reg.DISP_TH_WAIT then match k.threads.find th with
    | some t => if t.st = .waiting then w32 (t.obj + 65536 * b2n t.deadline.isSome) else 0
    | none => 0
  else if off = Reg.DISP_OBJ_INFO then match k.obj ob with
    | some o =>
      let waits := (k.waiters.filter fun t => match k.threads.find t with
        | some x => decide (x.obj = ob)
        | none => false).length
      w32 (o.count + 65536 * b2n o.counting + 131072 + 262144 * waits)
    | none => 0
  else v

/-- A descriptor's word. -/
def Desc.word (d : Desc) (j : Nat) : Word := w32 (d.toNat / 2 ^ (32 * j))

/-- The descriptors of a strand that can be read: on HOST_OUT only those that have passed Bezel (R381, R385). -/
def Side.readable (d : Side) (n : Nat) : Nat :=
  let r := d.ring n
  let upTo := if d.strandDir n = 2 then min r.ended r.passed else r.ended
  upTo - r.rp

/-- STRAND, for the selected strand. -/
def viewStrand (d : Side) (off : Nat) (v : Word) : Word :=
  let n := rf d.regs Pg.STRAND Reg.STRAND_SEL 5 0
  let r := d.ring n
  let depth := max 1 (d.strandDepth n)
  let at_ (i : Nat) : Nat := ringPlace r depth i
  if off = Reg.STRAND_STAT then
    w32 (d.readable n + 65536 * r.slots.length +
      2 ^ 27 * flagBits [decide (r.ended < r.slots.length), r.mark.isSome, r.flushPartial])
  else if off = Reg.STRAND_PTRS then w32 (at_ r.rp + 65536 * r.wpt)
  else if off = Reg.STRAND_MARK_FREE then w32 (at_ (r.mark.getD 0) + 65536 * at_ 0)
  else if off = Reg.STRAND_CELLS_FREE then w32 d.strand.cellsFree
  else if within Reg.STRAND_PUSH 8 off then 0
  else if within Reg.STRAND_HEAD 8 off then
    if 0 < d.readable n then match r.slots[r.rp]? with
      | some q => q.d.word ((off - Reg.STRAND_HEAD) / 4)
      | none => 0
    else 0
  else v

/-- DML. -/
def viewDml (d : Side) (off : Nat) (v : Word) : Word := if off = Reg.DML_TX_SEQ then w32 d.mesh.txSeq else v

/-- SKIM. -/
def viewSkim (d : Side) (off : Nat) (v : Word) : Word :=
  if off = Reg.SKIM_PEND_NOW then w32 ((d.mesh.skim.filter fun e => e.2.pend).length) else v

/-- LOWPAN. -/
def viewLowpan (d : Side) (off : Nat) (v : Word) : Word :=
  if off = Reg.LOWPAN_REASM_STAT then w32 (d.mesh.reasm.length + 65536 * d.mesh.reasmPeak)
  else if off = Reg.LOWPAN_TX_TAG then w32 d.mesh.txTag
  else v

/-- NODE. -/
def viewNode (d : Side) (off : Nat) (v : Word) : Word :=
  if off = Reg.NODE_COUNT then w32 d.node.nodes.length
  else if off = Reg.NODE_LEARNED_CNT then w32 (d.learnedCount fun _ => true)
  else if Reg.NODE_PORT_CNT ≤ off ∧ off < Reg.NODE_PORT_CNT + 24 ∧ (off - Reg.NODE_PORT_CNT) % 8 = 0 then
    w32 (d.learnedCount fun e => decide (e.port = (off - Reg.NODE_PORT_CNT) / 8))
  else if off = Reg.NODE_TEN_CNT then
    let t := rf d.regs Pg.NODE Reg.NODE_TEN_IDX 9 0
    w32 (d.learnedCount fun e => decide (e.tenant = t))
  else if off = Reg.NODE_LOCK_STAT then w32 d.node.locks.length
  else v

/-- PCAM. -/
def viewPcam (d : Side) (off : Nat) (v : Word) : Word :=
  if off = Reg.PCAM_COUNT then w32 d.node.cam.length
  else if off = Reg.PCAM_MOVE_STAT then w32 (d.node.moves % 8192 + 65536 * b2n d.node.camOld.isSome)
  else v

/-- LOCKET. -/
def viewLocket (d : Side) (off : Nat) (v : Word) : Word :=
  let k := d.key
  let n := rf d.regs Pg.LOCKET Reg.LOCKET_SLOT_IDX 10 0
  if off = Reg.LOCKET_STAT then w32 (flagBits [k.root.isSome, k.rootFail, k.testRoot, k.loaded, k.keyless, d.waitsFor .remask])
  else if off = Reg.LOCKET_SLOTS_USED then w32 k.slots.length
  else if off = Reg.LOCKET_DEV_GEN then w32 k.devGen
  else if off = Reg.LOCKET_SLOT_INFO then match k.slots.find n with
    | some e => w32 (e.ty % 4 + 4 * b2n e.any + 256 * (e.attr % 256) + 65536 * (e.dattr % 256) + 2 ^ 24 * (e.tenant % 256))
    | none => 0
  else if off = Reg.LOCKET_SLOT_INFO_HI then match k.slots.find n with
    | some e => w32 (e.tenant / 256 % 4)
    | none => 0
  else if off = Reg.LOCKET_SLOT_GEN then w32 (d.slotGen n)
  else if off = Reg.LOCKET_PUF_STAT then w32 (k.maxErr % 32 + 65536 * b2n d.mram.helper.isSome)
  else v

/-- FILIG. -/
def viewFilig (d : Side) (off : Nat) (v : Word) : Word :=
  if off = Reg.FILIG_TEN_GEN then w32 (d.tenGen (rf d.regs Pg.FILIG Reg.FILIG_TEN_IDX 9 0))
  else if off = Reg.FILIG_OCC then w32 (d.key.cache.length + 65536 * d.key.cachePeak)
  else v

/-- HALL: HALL.ID takes its first octet as the most significant (R300). -/
def viewHall (x : SideId) (d : Side) (off : Nat) (v : Word) : Word :=
  if within Reg.HALL_ID 4 off then octetWord d.hallId (3 - (off - Reg.HALL_ID) / 4)
  else if off = Reg.HALL_SERIAL_LO then halfWord false (Config.serial x.num)
  else if off = Reg.HALL_SERIAL_HI then halfWord true (Config.serial x.num)
  else if off = Reg.HALL_CTR_LO then halfWord false d.hallCtr
  else if off = Reg.HALL_CTR_HI then halfWord true d.hallCtr
  else if off = Reg.HALL_BOOTS then w32 d.mram.boots
  else if off = Reg.HALL_LAST_STATUS then w32 (d.key.lastStatus % 16)
  else if within Reg.HALL_OPK_HASH 8 off then octetWord Config.opkHash ((off - Reg.HALL_OPK_HASH) / 4)
  else v

/-- SEC. -/
def viewSec (d : Side) (off : Nat) (v : Word) : Word :=
  if off = Reg.SEC_TEN_TXFC then w32 ((d.key.txfc.find (rf d.regs Pg.SEC Reg.SEC_TEN_IDX 9 0)).getD 0)
  else if off = Reg.SEC_DL_FLOOR then w32 d.dlFloor.1
  else if off = Reg.SEC_WIN_STAT then w32 (d.key.wins.length + 65536 * d.key.winPeak)
  else v

/-- PEND. -/
def viewPend (d : Side) (off : Nat) (v : Word) : Word :=
  let p := d.pend
  if off = Reg.PEND_POOL_STAT then w32 (p.used + 65536 * p.poolPeak)
  else if off = Reg.PEND_PARK_STAT then w32 (p.pool.length + 65536 * ((p.pool.map fun e => e.f.node).eraseDups.length))
  else if off = Reg.PEND_WIN_RESULT then w32 (p.winResult + 65536 * p.recs.length)
  else v

/-- TROWEL. -/
def viewTrowel (d : Side) (off : Nat) (v : Word) : Word :=
  let w := d.trowel
  if off = Reg.TROWEL_QSTAT then w32 (w.count + 65536 * w.peak)
  else if off = Reg.TROWEL_SHP_STAT then
    let lvl := min 2 (rf d.regs Pg.TROWEL Reg.TROWEL_SHP_IDX 17 16)
    let peak : Nat := match w.credits.find (shpKey d.regs) with
      | some c => if d.shp Reg.TROWEL_SHP_PIR (shpKey d.regs) = 0 then d.shp Reg.TROWEL_SHP_PBS (shpKey d.regs) else c.peak.toNat / onePacket
      | none => 0
    w32 (min 65535 (w.under lvl (rf d.regs Pg.TROWEL Reg.TROWEL_SHP_IDX 12 0)) + 65536 * min 65535 peak)
  else v

/-- A carrier that CAR_IDX may select: one of a port of the variant (R353). -/
def carrierPresent (v : Variant) (k : Nat) : Bool := match RPort.ofNum (k / 4) with
  | some p => v.hasPort p
  | none => false

/-- The carrier that CAR_IDX selects. -/
def Side.carIdx (d : Side) : Nat := rf d.regs Pg.GATE Reg.GATE_CAR_IDX 3 0

/-- GATE registers of the selected carrier. -/
def gateReg (d : Side) (k off : Nat) (v : Word) : Word :=
  let g := d.gate k
  let ent := rd d.regs Pg.GATE Reg.GATE_ENT_IDX
  if off = Reg.GATE_CTRL then w32 (flagBits [g.en, g.latePol])
  else if off = Reg.GATE_STAT then w32 (flagBits [g.bank, g.pend.isSome, g.late, g.missed, g.trunc])
  else if off = Reg.GATE_ADM_LEN then w32 g.adm.len
  else if off = Reg.GATE_ADM_BASE_LO then halfWord false g.adm.base
  else if off = Reg.GATE_ADM_BASE_HI then halfWord true g.adm.base
  else if off = Reg.GATE_ADM_CYCLE then w32 g.adm.cycle
  else if off = Reg.GATE_ENT_DATA then (((if bitOf ent 8 then g.oper else g.adm).ents.find (fld ent 7 0)).getD 0)
  else if off = Reg.GATE_OPER_BASE_LO then halfWord false g.oper.base
  else if off = Reg.GATE_OPER_BASE_HI then halfWord true g.oper.base
  else if off = Reg.GATE_OPER_CYCLE then w32 g.oper.cycle
  else if off = Reg.GATE_OPER_LEN then w32 g.oper.len
  else if off = Reg.GATE_SWAP_LT_LO then halfWord false g.swapLt
  else if off = Reg.GATE_SWAP_LT_HI then halfWord true g.swapLt
  else if within Reg.GATE_MAX_OPEN 8 off then match g.maxOpen ((off - Reg.GATE_MAX_OPEN) / 4) with
    | some ns => w32 (min (2 ^ 32 - 1) (ns / 1000))
    | none => 0xFFFFFFFF#32
  else v

/-- GATE: a selection that names no carrier of the variant reads zero (R353). -/
def viewGate (vr : Variant) (d : Side) (off : Nat) (v : Word) : Word :=
  if off = Reg.GATE_CAR_IDX ∨ off = Reg.GATE_ENT_IDX ∨ off = Reg.GATE_SWAP_LAT ∨ off = Reg.GATE_GUARD then v
  else if carrierPresent vr d.carIdx then gateReg d d.carIdx off v
  else 0

/-- MRAM. -/
def viewMram (d : Side) (off : Nat) (v : Word) : Word :=
  let f := d.fw
  let ver (t : Tab Byte) : Word := w32 (hdrField t 6 2 + 65536 * fwSvn t)
  let img := d.mram.imgMeta.find (rf d.regs Pg.MRAM Reg.MRAM_IMG_IDX 2 0)
  if off = Reg.MRAM_STAT then
    w32 (flagBits [decide (f.run = 1), f.trial, f.okA, f.okB, decide (d.mram.bootSel = 1)] + 256 * (f.phase % 8) +
      4096 * (f.cause % 16) + 65536 * (f.bootFail % 4))
  else if off = Reg.MRAM_SVN_FLOOR then w32 d.mram.svnFloor
  else if off = Reg.MRAM_SLOTA_VER then ver d.mram.fwA
  else if off = Reg.MRAM_SLOTB_VER then ver d.mram.fwB
  else if off = Reg.MRAM_IMG_LEN then match img with
    | some m => w32 (m.1 + 2 ^ 31)
    | none => 0
  else if off = Reg.MRAM_IMG_META then match img with
    | some m => w32 (m.2.2 % 65536 + 65536 * (m.2.1 % 1024))
    | none => 0
  else if within Reg.MRAM_FWK_HASH 8 off then octetWord Config.fwkHash ((off - Reg.MRAM_FWK_HASH) / 4)
  else v

/-- A side register below its header, by page. -/
def sideBody (vr : Variant) (x : SideId) (d : Side) (page off : Nat) (v : Word) : Word :=
  match page with
  | 64 => viewDisp d off v
  | 65 => viewStrand d off v
  | 66 => viewSevt d off v
  | 67 => viewDml d off v
  | 68 => viewSkim d off v
  | 69 => viewNode d off v
  | 70 => viewPcam d off v
  | 72 => viewLowpan d off v
  | 73 => viewLocket d off v
  | 74 => viewFilig d off v
  | 75 => viewHall x d off v
  | 76 => viewSec d off v
  | 77 => viewPend d off v
  | 78 => viewTrowel d off v
  | 79 => viewGate vr d off v
  | 80 => viewMram d off v
  | 81 => viewPmb d.pmb (rf d.regs Pg.SPMB Reg.PMB_RAIL_IDX 1 0) off v
  | _ => v

/-- What a register of a side reads. -/
def sideRead (vr : Variant) (x : SideId) (d : Side) (page off : Nat) : Word :=
  if x = .b ∧ !vr.full then 0
  else match regRow page off with
    | none => 0
    | some _ =>
      let v := rdI d.regs page off (sideIdx d.regs page off)
      if off < 0x40 then sideHdr vr x d page off v else sideBody vr x d page off v

/-! ## BAR0 places -/

/-- Where a BAR0 offset lies (R474, R475, R493). -/
inductive Bar0 where
  | commons (page off : Nat)
  | side (x : SideId) (page off : Nat)
  | paired (page off : Nat)
  | msix (off : Nat)
  | pba (off : Nat)
  | none_
  deriving DecidableEq, Repr

/-- The place of a BAR0 offset. -/
def bar0 (off : Nat) : Bar0 :=
  let page := off / 4096
  let at_ := off % 4096
  if 2 ^ 20 ≤ off then .none_
  else if page < 64 then .commons page at_
  else if page < 96 then .side .a page at_
  else if page < 128 then .side .b (page - 32) at_
  else if page < 160 then .paired (page - 64) at_
  else if 0xF0000 ≤ off ∧ off < 0xF0400 then .msix (off - 0xF0000)
  else if 0xF8000 ≤ off ∧ off < 0xF8008 then .pba (off - 0xF8000)
  else .none_

/-- The side that answers a paired-window read: the active one, or the one in service (R426). -/
def answerer (s : State) : SideId := activeSide s

end Sys2Proof.Machine
end

