-- ==== Sys2Proof/Machine/Lease.lean ====
section
/-! DEFINITION. The commands that hosts give Clasp and Bezel, the renewal of the lease, its expiry, marker swaps and
takeover drills (R418 to R424, R428, R432, R436, R440). -/

namespace Sys2Proof.Machine

open Sys2Proof

/-- PATH_BAD of a side (R425). -/
def BezelState.pathBad (z : BezelState) : SideId → Bool
  | .a => z.pathBadA
  | .b => z.pathBadB

/-- The holder can be moved by a marker to the other side: both sides are compared, nothing that R424 names is in progress,
and the other side is not barred by PATH_BAD (R424, R425). -/
def swapMay (s : State) : Bool :=
  s.variant.full && s.c.bezel.compares && s.c.bezel.hold.isNone && !s.c.bezel.refilling && !updating s &&
  s.c.clasp.drillHome.isNone && s.c.clasp.swapTo.isNone &&
  (match s.c.clasp.holder with
   | some x => !s.c.bezel.pathBad x.other
   | none => false)

/-- The number of the side that does not hold the lease, 0 without a holder. -/
def shadowNum (s : State) : Nat := match s.c.clasp.holder with
  | some x => x.other.num
  | none => 0

/-- A host write of CLASP.CMD (R423, R424). -/
def claspCmd (s : State) (v : Word) : State :=
  if !bitOf v 0 then s
  else if swapMay s then s.updK fun k => { k with swapTo := some (shadowNum s) }
  else s.updC fun c => c.err Pg.CLASP 1

/-- A CMD write of BEZEL that is refused or ignored (R432, R440). -/
def cmdBusy (s : State) : State := s.errCode Pg.BEZEL 5 9

/-- OUT_x: the side leaves service at once, or at a marker swap when it holds the lease (R432). -/
def takeOut (s : State) (x : SideId) : State :=
  if !s.c.bezel.compares || s.c.clasp.swapTo.isSome then cmdBusy s
  else if s.c.clasp.holder = some x then
    if s.c.bezel.pathBad x.other then cmdBusy s
    else s.updK fun k => { k with swapTo := some x.other.num, swapOut := some x }
  else leave s x

/-- IN_x: a refill of a side that is out of service begins (R432). -/
def bringIn (s : State) (x : SideId) : State :=
  if s.c.bezel.st x = .off ∧ s.c.bezel.st x.other = .alone ∧ s.c.pd.dom x.num = .on then
    startRefill (s.updZ fun z => { z with refill := none }) x 0 false
  else cmdBusy s

/-- A side restarts from step 5 of the start-up sequence on the image that it has loaded (R428). -/
def restartSide (s : State) (x : SideId) : State :=
  let run := (s.side x).fw.run
  startSide (bootSide s x true) x run

/-- RECOVER after a double failure: both sides restart from step 5 (R428). -/
def recoverBoth (s : State) : State :=
  if s.c.bezel.dead then
    let s1 := s.updZ fun z => { z with dead := false, hold := none, refill := none, gapFrom := none }
    let s2 := restartSide (restartSide s1 .a) .b
    let s3 := s2.updC fun c => c.hwSet Pg.RST Reg.RST_CAUSE (bitMask 4)
    s3.updK fun k => { k with grantDue := some (s3.c.lt + grantWaitNs s3.c), waitPassed := false }
  else s

/-- PATH_CLR (R425). -/
def clearPaths (s : State) : State := s.updZ fun z => { z with pathBadA := false, pathBadB := false }

/-- A host write of BEZEL.CMD (R425, R428, R432, R440). -/
def bezelCmd (s : State) (v : Word) : State :=
  let ops := bitsBelow (fld v 4 0) 5
  if fld v 5 0 = 0 then s
  else if !s.variant.full || decide (1 < ops.length) || s.c.bezel.hold.isSome || s.c.bezel.refilling || updating s then
    cmdBusy s
  else
    let s1 := if bitOf v 5 then clearPaths s else s
    match ops with
    | [0] => takeOut s1 .a
    | [1] => takeOut s1 .b
    | [2] => bringIn s1 .a
    | [3] => bringIn s1 .b
    | [4] => recoverBoth s1
    | _ => s1

/-- A write of TOKEN to CLASP.RENEW that has passed Bezel (R420). -/
def renewLease (s : State) (v : Word) : State :=
  match s.c.clasp.vote with
  | some r =>
    if r.holder ≠ 0 ∧ fld v 15 0 = r.token then s.updK fun k => k.write { r with expiry := s.c.lt + leaseNs s.c } else s
  | none => s

/-! ## The replicas and the expiry (R418, R421) -/

/-- Clasp's replicas: one that differs from the majority is rewritten; without a majority HOLDER becomes none and the
commons are held (R418). -/
def voteReplicas (s : State) : State :=
  let k := s.c.clasp
  match k.vote with
  | some r => if k.r0 = r ∧ k.r1 = r ∧ k.r2 = r then s
    else (s.updK fun k => k.write r).bumpC Pg.CLASP Reg.CLASP_VOTE_FIX
  | none => halt (s.updC fun c => c.err Pg.CLASP 0)

/-- A replica holds another value than the one written to it (R418). -/
def replicaUpset (s : State) (n : Nat) (r : Replica) : State :=
  voteReplicas (s.updK fun k => if n = 0 then { k with r0 := r } else if n = 1 then { k with r1 := r } else
    if n = 2 then { k with r2 := r } else k)

/-- The lease's EXPIRY is due by the AON domain's LT (R28, R40, R63, R418, R421, R528): a mismatch with cause STALL while Bezel compares, the loss of the
lease while SINGLE is 1. -/
def leaseExpire (s : State) : State :=
  match s.c.clasp.vote, s.c.clasp.holder with
  | some r, some x =>
    if !s.variant.full || s.c.bezel.hold.isSome || s.c.bezel.dead || decide (s.c.pd.dom x.num ≠ .on) || decide (coarseLt s.c.lt < r.expiry)
    then s
    else if s.c.bezel.compares then mismatch s 3 (s.side x).point none none none none
    else
      let s1 := (s.bumpC Pg.CLASP Reg.CLASP_EXPIRED).event Pg.CLASP 2
      failUpdates (halt s1) 12
  | _, _ => s

/-! ## Marker swaps and drills (R423, R436) -/

/-- What a marker swap means for a drill: the dwell begins, or the drill ends. -/
def drillSwapped (s : State) (h : Nat) : State :=
  match s.c.clasp.drillHome with
  | none => s
  | some home =>
    if h = home then endDrill s
    else s.updK fun k => { k with drillEnd := some (s.c.lt + 1000000 * (rf s.c.regs Pg.CLASP Reg.CLASP_DRILL_DWELL 15 0)) }

/-- The swap marker that was requested is sequenced and the lease moves at it; a side taken out leaves service then
(R423, R432, R436). -/
def swapMark (s : State) : State :=
  match s.c.clasp.swapTo.bind SideId.ofNum with
  | none => s
  | some x =>
    if !s.c.bezel.compares || s.c.bezel.hold.isSome then s
    else
      let out := s.c.clasp.swapOut
      let s1 := grant (s.updK fun k => { k with swapTo := none, swapOut := none }) x true
      let s2 := drillSwapped s1 x.num
      match out with
      | some y => leave s2 y
      | none => s2

/-- A drill is due: it begins, or waits with DRILL_SKIP counted once (R436, R528). -/
def drillBegin (s : State) : State :=
  let k := s.c.clasp
  let due : Bool := match k.drillNext with
    | some t => decide (t ≤ s.c.lt)
    | none => false
  if !due && !k.drillWait then s
  else
    let s1 := if due then s.updK fun k => { k with drillNext := nextDrill s.c s.c.lt } else s
    if swapMay s && decide (s.c.pd.dom 1 = .on ∧ s.c.pd.dom 2 = .on) then
      s1.updK fun k => { k with drillWait := false, drillHome := s.c.clasp.holder.map SideId.num, drillEnd := none,
                                swapTo := some (shadowNum s) }
    else if k.drillWait then s1
    else (s1.updK fun k => { k with drillWait := true }).bumpC Pg.CLASP Reg.CLASP_DRILL_SKIP

/-- DRILL_DWELL has passed: the swap back is requested (R436). -/
def drillBack (s : State) : State :=
  match s.c.clasp.drillHome, s.c.clasp.drillEnd with
  | some home, some t =>
    if t ≤ s.c.lt then s.updK fun k => { k with drillEnd := none, swapTo := some home } else s
  | _, _ => s

end Sys2Proof.Machine
end

