-- ==== Sys2Proof/Machine/Bus.lean ====
section
/-! DEFINITION. Register writes and reads as the pages take them, and the accesses of the host ports, the chain port and the
cores (R6 to R11, R19, R22, R468, R471, R474 to R477, R490 to R498, R504, R557). -/

namespace Sys2Proof.Machine

open Sys2Proof

/-! ## Clearing counters (R122 and its like) -/

/-- CNT_CLR of a commons page. DEDUCED: a peak is the highest value since CNT_CLR, so it starts again at the value now. -/
def cntClrC (s : State) (page : Nat) : State :=
  let s1 := s.updR fun t => clearCounters t page none
  if Pg.FACET ≤ page ∧ page < Pg.FACET + 3 then match RPort.ofNum (page - Pg.FACET) with
    | some p => s1.updR fun t => wr t page Reg.FACET_LANE_STAT (setFld (rd t page Reg.FACET_LANE_STAT) 24 16 (s.c.port p).lanes.length)
    | none => s1
  else if page = Pg.AIR then s1.updC fun c =>
    { c with air := { c.air with rxPeak := c.air.cellsUsed, listPeak := c.air.list.length } }
  else if page = Pg.BEZEL then s1.updZ fun z => { z with gapMax := 0, skewMax := 0 }
  else if page = Pg.CEVT then s1.updC fun c => { c with evt := { c.evt with msgA := 0, msgB := 0, modDefer := 0 } }
  else if page = Pg.ERR then s1.updR fun t => clearRange t Pg.ERR Reg.ERR_ECC_BANK_A Reg.ERR_ECC_BANK_B none
  else s1

/-- The times and peaks of the dispatcher cleared; a thread that runs has run for no time since (R417). -/
def DispState.clearTimes (k : DispState) (st : Nat) : DispState :=
  let load (t : Tab Nat) (n : Nat) : Tab Nat :=
    let c := k.core n
    let run := if c.cur.isSome then stSince c.since st else 0
    if run = 0 then t else t.put n (2 ^ 64 - run)
  let stat (t : Tab PrioStat) (p : Nat) : Tab PrioStat :=
    if k.depth p = 0 then t else t.put p { dispatches := 0, cum := 0, max := 0, peak := k.depth p }
  { k with load := (List.range 8).foldl load [], stats := (List.range 64).foldl stat [], hi := [] }

/-- CNT_CLR of a side page. -/
def Side.cntClr (d : Side) (page : Nat) : Side :=
  let only := if page = Pg.STRAND then some (rf d.regs Pg.STRAND Reg.STRAND_SEL 5 0) else none
  let d1 := d.updR fun t => clearCounters t page only
  if page = Pg.SANDER then d1.updR fun t => wr t Pg.SANDER Reg.SANDER_PASSES 0
  else if page = Pg.SKIM then d1.updR fun t => wr t Pg.SKIM Reg.SKIM_OCC_PEAK (rd t Pg.SKIM Reg.SKIM_OCC)
  else if page = Pg.LOWPAN then d1.updMesh fun k => { k with reasmPeak := k.reasm.length }
  else if page = Pg.FILIG then d1.updKey fun k => { k with cachePeak := k.cache.length }
  else if page = Pg.SEC then d1.updKey fun k => { k with winPeak := k.wins.length }
  else if page = Pg.PEND then d1.updPend fun p => { p with poolPeak := p.used }
  else if page = Pg.TROWEL then d1.updTrowel fun w => { w with peak := w.count }
  else if page = Pg.DISP then d1.updDisp fun k => k.clearTimes d.st
  else d1

/-! ## Semaphores (R411 to R416) -/

/-- A semaphore is released: SEM_FREE is raised if its NOTIFY is 1 (R415). -/
def semFreed (s : State) (n : Nat) : State :=
  let off := Reg.SEM_SEM + 4 * n
  let notify := rb s.c.regs Pg.SEM off 16
  let s1 := s.updR fun t => wr t Pg.SEM off (setFld (rd t Pg.SEM off) 10 8 0)
  if notify then (s1.event Pg.SEM 0).notice (.semFree n) else s1

/-- OWNER of a semaphore set. -/
def semOwn (s : State) (n id : Nat) : State :=
  s.updR fun t => wr t Pg.SEM (Reg.SEM_SEM + 4 * n) (setFld (rd t Pg.SEM (Reg.SEM_SEM + 4 * n)) 10 8 id)

/-- What this cycle has asked of a semaphore so far (R412, R413). -/
def semCycle (s : State) (n : Nat) : SemCycle :=
  match s.c.sys.semAt.find n with
  | some k => if k.lt = s.c.lt then k else ⟨s.c.lt, false, []⟩
  | none => ⟨s.c.lt, false, []⟩

/-- A cycle's record of a semaphore set. -/
def semNote (s : State) (n : Nat) (k : SemCycle) : State := s.updSys fun y => { y with semAt := y.semAt.put n k }

/-- ACQ (R411, R412): a free semaphore is taken; among the requests of the cycle in which it was, the lowest requester number
has it, and each of the others counts in CONTEND and ACQ_BUSY. -/
def semAcquire (s : State) (n id owner : Nat) : State :=
  let k := semCycle s n
  let asked := { k with asks := insNat id k.asks }
  if owner = 0 then semNote ((semOwn s n id).bumpC Pg.SEM Reg.SEM_ACQ_OK) n { asked with taken := true }
  else
    let s1 := semNote (s.bumpC Pg.SEM Reg.SEM_ACQ_BUSY) n asked
    if !k.taken || decide (owner = id) then s1
    else
      let s2 := s1.bumpC Pg.SEM Reg.SEM_CONTEND
      if id < owner then semOwn s2 n id else s2

/-- After a release, the requests of the same cycle that found the semaphore held are applied: the lowest requester number takes
it, and its ACQ_BUSY is taken back (R412, R413). -/
def semRetake (s : State) (n id : Nat) : State :=
  let k := semCycle s n
  match k.asks.filter (· ≠ id) with
  | [] => s
  | w :: rest =>
    let s1 := (semOwn s n w).bumpC Pg.SEM Reg.SEM_ACQ_OK
    let s2 := s1.updR fun t => wr t Pg.SEM Reg.SEM_ACQ_BUSY (rd t Pg.SEM Reg.SEM_ACQ_BUSY - 1)
    semNote (rest.foldl (fun a _ => a.bumpC Pg.SEM Reg.SEM_CONTEND) s2) n { k with taken := true }

/-- A write to SEMn (R411 to R413). DEDUCED: NOTIFY takes the value of the write before the write's release is judged. -/
def semWrite (s : State) (r : Requester) (n : Nat) (w : Word) : State :=
  let off := Reg.SEM_SEM + 4 * n
  match ownerId r with
  | none => s
  | some id =>
    if bitOf w 0 && bitOf w 1 then s.bumpC Pg.SEM Reg.SEM_NOT_OWNER
    else
      let s1 := s.updR fun t => wr t Pg.SEM off (setBit (rd t Pg.SEM off) 16 (bitOf w 16))
      let owner := rf s1.c.regs Pg.SEM off 10 8
      if bitOf w 1 then if owner = id then semRetake (semFreed s1 n) n id else s1.bumpC Pg.SEM Reg.SEM_NOT_OWNER
      else if bitOf w 0 then semAcquire s1 n id owner
      else s1

/-- A host write to FORCE (R416). -/
def semForce (s : State) (w : Word) : State :=
  let n := fld w 5 0
  let s1 := s.updR fun t => wr t Pg.SEM Reg.SEM_FORCE (w32 n)
  if bitOf w 8 then semRetake (semFreed s1 n) n (rf s.c.regs Pg.SEM (Reg.SEM_SEM + 4 * n) 10 8) else s1

/-! ## Writes to commons pages -/

/-- RX_EN and TX_EN keep reading 0 after a keyless boot (R308). -/
def keylessEn (c : Commons) (old w : Word) (a b : Nat) : Word :=
  if c.tamp.keylessBoot then setBit (setBit w a (bitOf old a)) b (bitOf old b) else w

/-- Writes to the header of a commons page. -/
def hdrWriteC (s : State) (page off : Nat) (w : Word) : Option State :=
  if off = Reg.HDR_CTRL then some (writeCtrlC s page w)
  else if off = Reg.HDR_ERR_STICKY then some (s.updC fun c => c.clearSticky page c.bezel.lastCause w)
  else if off = Reg.HDR_ERR_MASK then some (s.updR fun t => writeErrMask t page s.c.bezel.lastCause s.c.lt w)
  else if off = Reg.HDR_EVT_STAT ∧ page = Pg.ERR then
    some (s.updC fun c => { c with evt := { c.evt with
      errEvt := ((w32 c.evt.errEvt) &&& ~~~c.clears page off w).toNat } })
  else none

/-- Writes to Lath, Plumb and the pulse outputs with effects of their own. -/
def timeWrite (s : State) (r : Requester) (page off : Nat) (w : Word) : Option State :=
  let row (base n stride : Nat) : Option Nat := (List.range n).find? fun k => decide (off = base + stride * k)
  if page = Pg.LATH then
    if off = Reg.LATH_CMD then some (writeLathCmd s w)
    else (row Reg.LATH_TMR_CTRL 32 16).map fun n => writeTmrCtrl s n (s.c.clears page off (w &&& 12) ||| w &&& 3)
  else if page = Pg.PLUMB then
    if off = Reg.PLUMB_HOST_TIME_HI then some (writeHostTime s w)
    else if off = Reg.PLUMB_PTP_MEAS then some (if r.isCore then writePtpMeas s w else s)
    else none
  else if page = Pg.TPO then
    if off = Reg.TPO_GPIO_OUT then some (s.updC fun c => writeGpio c r false w)
    else if off = Reg.TPO_GPIO_DIR then some (s.updC fun c => writeGpio c r true w)
    else if off = Reg.TPO_GPIO_IGN then 
      some (s.updSys fun y => { y with gpioIgn := ((w32 y.gpioIgn) &&& ~~~s.c.clears page off w).toNat })
    else if (off = Reg.TPO_GPIO_OWN ∨ off = Reg.TPO_GPIO_PULL ∨ off = Reg.TPO_GPIO_OD) ∧ r.isCore then some s
    else match row Reg.TPO_CTRL 4 32 with
      | some n => some (s.updC fun c => writeTpoCtrl c n w)
      | none => match row Reg.TPO_STAT 4 32 with
        | some _ => some (s.updR fun t =>
            let w1 := s.c.clears page off (w &&& 0xE#32)
            let v := rd t Pg.TPO off &&& ~~~w1
            wr t Pg.TPO off (if bitOf w1 2 then setFld v 31 16 0 else v))
        | none =>
          let n := (off - Reg.TPO_CTRL) / 32
          if off < Reg.TPO_CTRL + 128 ∧ rb s.c.regs Pg.TPO (Reg.TPO_CTRL + 32 * n) 0 ∧ !tpoDueNow s.c n then some s else none
  else none

/-- Writes to the pages of a port with effects of their own. -/
def portWrite (s : State) (page off : Nat) (old w : Word) : Option State :=
  match RPort.ofNum (page - Pg.RFS) with
  | some p =>
    if Pg.RFS ≤ page then
      if off = Reg.RF_LO_FREQ then some (s.updC fun c => writeLoFreq c p w)
      else if off = Reg.RF_PORT_CFG then some (s.updC fun c => writePortCfg c p (portRun s p) (keylessEn c old w 0 1))
      else if off = Reg.RF_BLANK_DIST then some (s.updC fun c => writeBlankDist c p (rangeOf page off w))
      else if off = Reg.RF_CAL_CMD then
        some (if bitOf w 0 then s.updC fun c => c.updPort p fun q => { q with gapNow := true } else s)
      else if off = Reg.RF_CAL_CFG then
        let s1 := s.updR fun t => wr t page off w
        let due : Bool := match (s.c.port p).gapNext with
          | some t => decide (t ≤ s.c.lt)
          | none => false
        some (if (s.c.port p).calDone && !due then
          s1.updC fun c => c.updPort p fun q => { q with gapNext := nextGap s1.c p s.c.lt, noticed := q.noticed && decide (nextGap s1.c p s.c.lt = q.gapNext) } else s1)
      else none
    else none
  | none => match RPort.ofNum (page - Pg.CHZ) with
    | some p =>
      if Pg.CHZ ≤ page ∧ off = Reg.CHZ_CH_CMD then
        let s1 := if bitOf w 0 then s.updC fun c => chanRead c p else s
        some (if bitOf w 1 then chanWrite s1 p else s1)
      else none
    | none => match RPort.ofNum (page - Pg.FACET) with
      | some p =>
        if off = Reg.FACET_CH_LANES then some (s.updC fun c => writeChLanes c p w)
        else if off = Reg.FACET_PORT_LIMIT then some (s.updC fun c => writePortLimit c p w)
        else none
      | none => none

/-- Writes to Clasp, Bezel and the semaphores. Side writes to CMD have no effect: only host writes move the lease (R422,
R423, R432). -/
def leaseWrite (s : State) (r : Requester) (page off : Nat) (w : Word) : Option State :=
  if page = Pg.CLASP then
    if off = Reg.CLASP_RENEW then some (if r.isCore then renewLease s w else s)
    else if off = Reg.CLASP_CMD then some (if r.isCore then s else claspCmd s w)
    else if off = Reg.CLASP_DRILL_PER ∨ off = Reg.CLASP_DRILL_PHASE then
      let s1 := s.updR fun t => wr t page off w
      some (if s.c.clasp.grantPoint = 0 then s1 else s1.updK fun k => { k with drillNext := nextDrill s1.c s.c.lt })
    else none
  else if page = Pg.BEZEL then
    if off = Reg.BEZEL_CMD then some (if r.isCore then s else bezelCmd s w)
    else none
  else if page = Pg.SEM then
    if r = .chain then some s
    else if Reg.SEM_SEM ≤ off ∧ off < Reg.SEM_SEM + 256 then some (semWrite s r ((off - Reg.SEM_SEM) / 4) w)
    else if off = Reg.SEM_FORCE then some (if r.isCore then s else semForce s w)
    else none
  else none

/-- Values that sides report to Bezel, which are RO to hosts (R258, R358). -/
def checkWrite (s : State) (page off : Nat) (v : Word) : Option State :=
  if page = Pg.BEZEL ∧ off = Reg.BEZEL_ROOT_CHECK then some (s.updZ fun z => { z with rootCheck := v.toNat })
  else if page = Pg.BEZEL ∧ off = Reg.BEZEL_IMG_CHECK then some (s.updZ fun z => { z with imgCheck := v.toNat })
  else none

/-- Writes to the remaining commons pages with effects of their own. -/
def miscWrite (s : State) (r : Requester) (page off idx : Nat) (w : Word) : Option State :=
  if page = Pg.AIR ∧ off = Reg.AIR_PL_QCMD then some (s.updC fun c => plQuery c w)
  else if page = Pg.LOUPE ∧ off = Reg.LOUPE_CMD then some (writeLoupeCmd s w)
  else if page = Pg.LOUPE ∧ Reg.LOUPE_RESP_KEY ≤ off ∧ off < Reg.LOUPE_RESP_SEL then some (s.updR fun t => wr t page off w)
  else if page = Pg.IBE ∧ off = Reg.IBE_REPORT_ADD then some (reportAdd s)
  else if page = Pg.CEVT then
    if off = Reg.CEVT_SRC_ROUTE then
      let w1 := if s.variant.full then w else setBit w 14 false
      some (s.updR fun t => wrI t page off idx (if idx < 128 then w1 else setBit w1 16 false))
    else if off = Reg.CEVT_REARM_A then some (s.updC fun c => { c with evt := c.evt.rearm false (fld w 7 0) })
    else if off = Reg.CEVT_REARM_B then some (s.updC fun c => { c with evt := c.evt.rearm true (fld w 7 0) })
    else none
  else if page = Pg.CHAIN ∧ off = Reg.CHAIN_CMD then some (if bitOf w 0 then s.updC clrAddr else s)
  else if page = Pg.ETH0 ∨ page = Pg.ETH1 then
    if off = Reg.ETH_VID_MAP then some (s.updC fun c => writeVidMap c (decide (page = Pg.ETH1)) w)
    else if off = Reg.ETH_MODE then some (s.updR fun t => wr t page off (keylessEn s.c (rd t page off) w 3 4))
    else none
  else if page = Pg.PD ∧ off = Reg.PD_REQ_CMD then some (writeReqCmd s r w)
  else if page = Pg.PMB ∧ off = Reg.PMB_RAW_CMD then some (writeRawCmd s 0 w)
  else if page = Pg.RST then
    if off = Reg.RST_SIDE_CMD then some (writeSideCmd s r w)
    else if off = Reg.RST_HBOOT_DATA then some (writeHbootData s r w)
    else if off = Reg.RST_HBOOT_GO then some (if bitOf w 0 then writeHbootGo s r else s)
    else none
  else none

/-- CAUSE_LT when a W1C leaves nothing in CAUSE but what was set in the same cycle: that is the first trip now (R11, R307). -/
def causeLeft (c : Commons) : Commons :=
  let v := rd c.regs Pg.TAMP Reg.TAMP_CAUSE
  if v ≠ 0 ∧ v &&& ~~~c.freshBits Pg.TAMP Reg.TAMP_CAUSE = 0 then
    c.updR fun t => wr t Pg.TAMP Reg.TAMP_CAUSE_LT (w32 (coarseLt c.lt))
  else c

/-- START, PERIOD or WIDTH of an enabled output was written, which only the cycle of its edge lets through (R68, R77). -/
def tpoWritten (s : State) (off : Nat) : State :=
  let n := (off - Reg.TPO_CTRL) / 32
  if Reg.TPO_CTRL ≤ off ∧ off < Reg.TPO_CTRL + 128 ∧ rb s.c.regs Pg.TPO (Reg.TPO_CTRL + 32 * n) 0 then
    s.updC fun c => tpoRetarget c n off else s

/-- What a stored write brings with it: Plumb judges its sources against the new settings and order (R43, R604), TOD is taken
(R47), an armed slot's new target may be late (R65), an edge takes its new target (R68), the sides learn an AIR setting (R163). -/
def afterWrite (s : State) (page off : Nat) (v : Word) : State :=
  if page = Pg.PLUMB ∧ (off = Reg.PLUMB_LOSS_CFG ∨ off = Reg.PLUMB_PPS_WINDOW ∨ off = Reg.PLUMB_REF10_TOL ∨
    off = Reg.PLUMB_SRC_PRIO) then judgeSources s
  else if page = Pg.PLUMB ∧ (off = Reg.PLUMB_TOD_LO ∨ off = Reg.PLUMB_TOD_HI) then s.updC writeTod
  else if page = Pg.LATH ∧ Reg.LATH_TMR_TGT_LO ≤ off ∧ off < Reg.LATH_TMR_TGT_LO + 512 then
    slotLate s ((off - Reg.LATH_TMR_TGT_LO) / 16)
  else if page = Pg.TPO then tpoWritten s off
  else if page = Pg.TAMP ∧ off = Reg.TAMP_CAUSE then s.updC causeLeft
  else if page = Pg.AIR ∧ 0x40 ≤ off ∧ (off < Reg.AIR_RXBUF_STAT ∨ 0x100 ≤ off) then s.notice (.airWrite off v)
  else s

/-- The effective word as it is stored: a W1C bit that hardware sets in the same cycle is not cleared (R11). -/
def Commons.stored (c : Commons) (page off : Nat) (row : RegRow) (w : Word) : Word := w &&& ~~~(c.freshBits page off &&& row.w1c)

/-- The first write of a cycle to the commons finds the pages of the MACs as the cycle before left them (R477, chapter 17). -/
def Commons.openCycle (c : Commons) : Commons :=
  let macs := c.regs.filter fun e => decide (e.1 / 4096 % 128 = Pg.ETH0 ∨ e.1 / 4096 % 128 = Pg.ETH1)
  if c.writes.lt = c.lt then c else { c with writes := { lt := c.lt, regs := [], eth := macs } }

/-- The place of a requester in the order in which the accesses of one cycle take effect (R477). PRESUMED: JTAG, which the rule
does not name, comes last. -/
def accessPlace : Requester → Nat
  | .hostA => 0
  | .hostB => 1
  | .chain => 2
  | .core _ => 3
  | .jtag => 4

/-- The bits of the RW fields of a register, for which the order of two writes tells. -/
def RegRow.plain (row : RegRow) : Word :=
  row.fields.foldl (fun m f => if f.acc = .rw ∨ f.acc = .rwl then m ||| f.mask else m) 0

/-- The bits of a register that a requester of a later place has written in this cycle: of its RW fields only, since W1C and W1S
bits act whatever the order (R10, R477). -/
def laterBits (c : Commons) (r : Requester) (key : Nat) (row : RegRow) : Word :=
  if c.writes.lt ≠ c.lt then 0
  else (((c.writes.regs.find key).getD []).foldl (fun m e => if accessPlace r < e.1 then m ||| beMask e.2 else m) 0) &&& row.plain

/-- A write noted among those of its cycle (R477). -/
def noteWrite (c : Commons) (r : Requester) (key be : Nat) : Commons :=
  let k := c.openCycle.writes
  { c with writes := { k with regs := k.regs.put key ((k.regs.find key).getD [] ++ [(accessPlace r, be)]) } }

/-- A register of a commons page is stored; what a requester of a later place has written in the same cycle stands (R477). -/
def storeC (s : State) (r : Requester) (page off idx : Nat) (row : RegRow) (old w : Word) (be : Nat) : State :=
  let keep := laterBits s.c r (rkey page off idx) row
  let v := (rangeOf page off (row.after old (s.c.stored page off row w)) &&& ~~~keep) ||| (old &&& keep)
  let s1 := (s.updC fun c => noteWrite c r (rkey page off idx) be).updR fun t => wrI t page off idx v
  afterWrite s1 page off v


/-- IBE keeps host writes to its header and CNT_CLR (chapter 11). -/
def ibeRefuses (r : Requester) (page off : Nat) : Bool :=
  decide (page = Pg.IBE) && !r.isCore && !decide (off < 0x40) && !decide (off = Reg.IBE_CNT_CLR)

/-- What a write of an effective word to a register of a commons page does beside storing, if it has an effect of its own. -/
def commonsAct (s : State) (r : Requester) (page off idx : Nat) (old w : Word) : Option State :=
  if off < 0x40 then hdrWriteC s page off w
  else (timeWrite s r page off w).orElse fun _ => (portWrite s page off old w).orElse fun _ =>
    (leaseWrite s r page off w).orElse fun _ => miscWrite s r page off idx w

/-- A write reaches a commons page: an absent or reserved register, an expert register without EXPERT, a page whose domain is
not on and the RST page from a side ignore it (R3, R6, R469, R526, R553). -/
def commonsWrite (s : State) (r : Requester) (page off : Nat) (v : Word) (be : Nat) : State :=
  match regRow page off with
  | none => s
  | some row =>
    if !pagePresent s.variant page || pageDark s page || (row.expert && !rb s.c.regs page Reg.HDR_CTRL 1) ||
        (decide (page = Pg.RST) && r.isCore) then s
    else if ibeRefuses r page off then s.updC fun c => c.err Pg.IBE 0
    else
      let idx := commonsIdx s.c.regs page off
      let old := rdI s.c.regs page off idx
      let w := row.effect (rb s.c.regs page Reg.HDR_LOCK 0) old v be
      if r.isCore && (checkWrite s page off v).isSome then (checkWrite s page off v).getD s
      else if off ≥ 0x40 ∧ off = cntClrOff page then (if bitOf w 0 then cntClrC s page else s)
      else (commonsAct s r page off idx old w).getD (storeC s r page off idx row old w be)

/-! ## Writes to side pages -/

/-- Writes to the header of a side page. -/
def Side.hdrWrite (d : Side) (lt page off : Nat) (w : Word) : Option Side :=
  if off = Reg.HDR_CTRL then some (d.writeCtrl lt page w)
  else if off = Reg.HDR_ERR_STICKY then some (d.updR fun t => clearSticky t page w)
  else if off = Reg.HDR_ERR_MASK then some (d.updR fun t => writeErrMask t page 0 d.now w)
  else none

/-- Writes to the strands and the dispatcher. -/
def Side.kernelWrite (d : Side) (lt : Nat) (r : Requester) (page off idx : Nat) (w : Word) : Option Side :=
  let n := rf d.regs Pg.STRAND Reg.STRAND_SEL 5 0
  if page = Pg.STRAND then
    if off = Reg.STRAND_CFG then some (d.writeStrandCfg lt n w)
    else if off = Reg.STRAND_CMD then some (d.writeStrandCmd lt n w)
    else if off = Reg.STRAND_STAT then some (if bitOf w 29 then d.updRing n fun q => { q with flushPartial := false } else d)
    else if Reg.STRAND_PUSH ≤ off ∧ off < Reg.STRAND_PUSH + 32 then some (d.writePush lt n r ((off - Reg.STRAND_PUSH) / 4) w)
    else none
  else if page = Pg.DISP ∧ off = Reg.DISP_CORE_EN then some ((d.updR fun t => wr t page off (w32 (fld w 7 0))).coreEnWritten lt)
  else if page = Pg.SEVT ∧ off = Reg.SEVT_SRC_ROUTE ∧ 128 ≤ idx ∧ idx < 192 then some d
  else none

/-- CTX_CMD (R219): the selected context is loaded into the staging registers, or written from them. -/
def Side.ctxRead (d : Side) : Side :=
  let i := rf d.regs Pg.LOWPAN Reg.LOWPAN_CTX_IDX 3 0
  let c := (d.mesh.ctxs.find i).getD { prefix_ := 0, len := 0, en := false, comp := false }
  d.updR fun t =>
    let t1 := [0, 1, 2, 3].foldl (fun t j => wr t Pg.LOWPAN (Reg.LOWPAN_CTX_PFX + 4 * j) (w32 (c.prefix_ / 2 ^ (96 - 32 * j)))) t
    wr t1 Pg.LOWPAN Reg.LOWPAN_CTX_CFG (w32 (c.len + 256 * b2n c.en + 512 * b2n c.comp))

/-- A context is committed whole from the staging registers (R219). -/
def Side.ctxWrite (d : Side) : Side :=
  let t := d.regs
  let i := rf t Pg.LOWPAN Reg.LOWPAN_CTX_IDX 3 0
  let cfg := rd t Pg.LOWPAN Reg.LOWPAN_CTX_CFG
  let p := ([0, 1, 2, 3].map fun j => (rd t Pg.LOWPAN (Reg.LOWPAN_CTX_PFX + 4 * j)).toNat * 2 ^ (96 - 32 * j)).sum
  d.updMesh fun k =>
    { k with ctxs := k.ctxs.put i { prefix_ := p, len := fld cfg 7 0, en := bitOf cfg 8, comp := bitOf cfg 9 } }

/-- Enrolment by LOCKET.ENROL, once (R257). -/
def Side.writeEnrol (d : Side) (w : Word) : Side :=
  if !bitOf w 0 then d
  else if d.mram.helper.isSome || d.waitsFor .enrol then d.err Pg.LOCKET 0
  else d.ask .enrol

/-- Writes to the pipeline's pages with effects of their own. -/
def Side.pipeWrite (d : Side) (page off idx : Nat) (w : Word) : Option Side :=
  let put (d : Side) (v : Word) : Side := d.updR fun t => wrI t page off idx v
  if page = Pg.NODE ∧ off = Reg.NODE_HASH_SEED then
    some (if d.node.nodes.isEmpty then put d w else d.err Pg.NODE 0)
  else if page = Pg.SANDER ∧ off = Reg.SANDER_CFG then
    some (if bitOf w 0 && !rb d.regs Pg.SANDER off 0 then (put d w).startPass else put d w)
  else if page = Pg.SANDER ∧ off = Reg.SANDER_CMD then
    some (if bitOf w 0 then d.startPass else d)
  else if page = Pg.LOCKET ∧ off = Reg.LOCKET_ENROL then some (d.writeEnrol w)
  else if page = Pg.FILIG ∧ off = Reg.FILIG_TEN_MAP then some ((put d w).bumpTenGen idx)
  else if page = Pg.LOWPAN ∧ off = Reg.LOWPAN_CTX_CMD then
    let d1 := if bitOf w 0 then d.ctxRead else d
    some (if bitOf w 1 then d1.ctxWrite else d1)
  else if page = Pg.PEND ∧ off = Reg.PEND_WIN_CMD then
    let d1 := if bitOf w 0 then d.cmdWinRead else d
    let d2 := if bitOf w 1 then d1.cmdWinWrite else d1
    some (if bitOf w 2 then d2.cmdWinDelete else d2)
  else none

/-- Before a register is stored: a pass that has begun keeps its length (R239), and a rate or depth keeps its old value in force
until the next time input (R327). -/
def Side.beforeWrite (d : Side) (page off idx : Nat) : Side :=
  if page = Pg.SANDER ∧ off = Reg.SANDER_PASS then d.latchPass
  else if page = Pg.TROWEL ∧ isShp off then d.keepShp off idx
  else d

/-- After a register is stored: the re-mask passes fall at multiples of a new REMASK_PER, unless one is due (R269); a new DL_SHIFT
may hold the floor at its ceiling (R298). -/
def Side.replan (d : Side) (page off : Nat) : Side :=
  if page = Pg.SEC ∧ off = Reg.SEC_DL_SHIFT then d.floorCheck
  else if page = Pg.LOCKET ∧ off = Reg.LOCKET_CFG ∧ d.now < d.key.remaskNext then
    d.updKey fun k => { k with remaskNext := d.nextRemask d.now }
  else d

/-- The admin bank of the selected carrier is written, or the write is ignored while a swap is pending (R333, R337). -/
def Side.admWrite (d : Side) (k : Nat) (f : GateBank → GateBank) : Side :=
  if (d.gate k).pend.isSome then d.err Pg.GATE 1 else d.updGate k fun g => { g with adm := f g.adm }

/-- Writes to the GATE page (R333 to R339, R353). -/
def Side.gateWrite (vr : Variant) (c : Commons) (d : Side) (lt off : Nat) (v : Word) (be : Nat) : Option Side :=
  let k := d.carIdx
  let a := (d.gate k).adm
  let w (old : Nat) : Nat := (mergeBytes (w32 old) v be).toNat
  let m : Word := v &&& beMask be
  if off = Reg.GATE_SWAP_LAT then
    let n := max (fld (mergeBytes (rd d.regs Pg.GATE off) v be) 15 0) (rf d.regs Pg.TROWEL Reg.TROWEL_REL_LEAD 13 0)
    some (d.updR fun t => wr t Pg.GATE off (w32 n))
  else if off = Reg.GATE_CAR_IDX ∨ off = Reg.GATE_ENT_IDX ∨ off = Reg.GATE_GUARD ∨ off < 0x40 then none
  else if !carrierPresent vr k then some d
  else if off = Reg.GATE_CTRL then
    let d1 := if nbit be 0 then (d.updGate k fun g => { g with latePol := bitOf v 1 }) else d
    let d2 := if nbit be 0 then d1.gateEn c lt k (bitOf v 0) else d1
    let d3 := if bitOf m 2 then d2.gateSwap k else d2
    some (if bitOf m 3 then d3.gateAbort k else d3)
  else if off = Reg.GATE_STAT then some (d.updGate k fun g =>
    { g with late := g.late && !bitOf m 2, missed := g.missed && !bitOf m 3, trunc := g.trunc && !bitOf m 4 })
  else if off = Reg.GATE_ADM_LEN then some (d.admWrite k fun b => { b with len := max 1 (min 256 (w a.len % 512)) })
  else if off = Reg.GATE_ADM_BASE_LO then some (d.admWrite k fun b => { b with base := a.base / 2 ^ 32 * 2 ^ 32 + w (a.base % 2 ^ 32) })
  else if off = Reg.GATE_ADM_BASE_HI then some (d.admWrite k fun b => { b with base := w (a.base / 2 ^ 32) * 2 ^ 32 + a.base % 2 ^ 32 })
  else if off = Reg.GATE_ADM_CYCLE then some (d.admWrite k fun b => { b with cycle := w a.cycle })
  else if off = Reg.GATE_ENT_DATA then
    let i := rf d.regs Pg.GATE Reg.GATE_ENT_IDX 7 0
    if rb d.regs Pg.GATE Reg.GATE_ENT_IDX 8 then some d
    else some (d.admWrite k fun b => { b with ents := b.ents.put i (mergeBytes ((b.ents.find i).getD 0) v be) })
  else none

/-- A write reaches a side page (R6, R469). -/
def Side.write (vr : Variant) (c : Commons) (d : Side) (lt : Nat) (r : Requester) (page off : Nat) (v : Word) (be : Nat) : Side :=
  match regRow page off with
  | none => d
  | some row =>
    if page < 64 ∨ (row.expert && !rb d.regs page Reg.HDR_CTRL 1) then d
    else
      let idx := sideIdx d.regs page off
      let old := rdI d.regs page off idx
      let w := row.effect (rb d.regs page Reg.HDR_LOCK 0) old v be
      if off ≥ 0x40 ∧ off = cntClrOff page then (if bitOf w 0 then d.cntClr page else d)
      else
        let act := if off < 0x40 then d.hdrWrite lt page off w
          else (d.kernelWrite lt r page off idx w).orElse fun _ => (d.pipeWrite page off idx w).orElse fun _ =>
            if page = Pg.GATE then d.gateWrite vr c lt off v be else none
        match act with
        | some d1 => d1
        | none => ((d.beforeWrite page off idx).updR fun t => wrI t page off idx (rangeOf page off (row.after old w))).replan page off

/-- A write reaches a page of one side: RAW_CMD of its PMBus port, or any other (R13, R526, R542). -/
def sideWrite (s : State) (x : SideId) (r : Requester) (page off : Nat) (v : Word) (be : Nat) : State :=
  if s.c.pd.dom x.num ≠ .on then s
  else if page = Pg.SPMB ∧ off = Reg.PMB_RAW_CMD then
    match regRow page off with
    | some row => writeRawCmd s x.num (row.effect false (rd (s.side x).regs page off) v be)
    | none => s
  else s.upd x fun d => d.write s.variant d.view s.c.lt r page off v be

/-- A read of a page of one side, which changes nothing: it reads as zero until the side's step 5 (R22, R526, R557). -/
def sideReadAt (s : State) (x : SideId) (page off : Nat) : Word :=
  if s.c.sys.boot x ≠ 1 then 0
  else if s.c.pd.dom x.num ≠ .on ∧ off ≠ Reg.HDR_PAGE_ID ∧ off ≠ Reg.HDR_CAP ∧ off ≠ Reg.HDR_STAT then 0
  else sideRead s.variant x (s.side x) page off

/-! ## BAR2 and the MSI-X table (R493, R494, R497, R498) -/

/-- A BAR2 read of one word: the copy of the active side (R497, R498). -/
def bar2Read (s : State) (off : Nat) : Word :=
  let d := s.side (activeSide s)
  let cellWord (c at_ : Nat) : Word :=
    if at_ + 4 ≤ 2112 then w32 (leNat (cellSlice (d.strand.cellData c) at_ 4)) else 0
  let half (i : Nat) : Nat :=
    let n := i / 1024
    match (d.strand.rings.find n).bind fun r => if d.strandOn n || r.closing then r.places[i % 1024]? else none with
    | some g => g
    | none => 0xFFFF
  if off < 0x800000 then
    let g := off / 0x1000
    match d.strand.rings.find? fun e => d.strandOn e.1 && e.2.places.contains g with
    | none => 0
    | some (n, r) =>
      let p := (r.places.findIdx? fun q => decide (q = g)).getD 0
      let depth := max 1 (d.strandDepth n)
      let place := (p + depth - ringPlace r depth 0) % depth
      if d.strandDir n = 1 then cellWord (r.cells.getD p 0) (off % 0x1000)
      else match r.slots[place]? with
        | some q => match q.cell with
          | some c => cellWord c (off % 0x1000)
          | none => 0
        | none => 0
  else if off < 0x800000 + 64 * 2048 then
    let i := (off - 0x800000) / 2
    w32 (half i + 65536 * half (i + 1))
  else if 0x1000000 ≤ off ∧ off < 0x1000000 + 960 * 0x1000 then cellWord ((off - 0x1000000) / 0x1000) (off % 0x1000)
  else 0

/-- A BAR2 access is accepted (R493). -/
def bar2Ok (off n : Nat) : Bool :=
  decide (off % 4 = 0) && decide (n % 4 = 0) && decide (0 < n) && decide (off % 4096 + n ≤ 4096) && decide (off + n ≤ 2 ^ 26)

/-- A counter of a host requester's page. -/
def hostCount (s : State) (r : Requester) (off : Nat) : State := match r.isHost with
  | some second => s.bumpC (hostPage second) off
  | none => s

/-- Data for BAR2: a place window takes them, as host data for both sides; nothing else of BAR2 is written (R490, R491, R497). -/
def bar2Data (s : State) (r : Requester) (off : Nat) (data : List Byte) : State :=
  if off < 0x800000 then s.offer r.source (.cellWrite r off data) else s

/-- A BAR2 write of a host port, counted (R493). -/
def bar2Write (s : State) (r : Requester) (off : Nat) (data : List Byte) : State :=
  if !bar2Ok off data.length then hostCount s r Reg.HOST_UR
  else bar2Data (hostCount s r Reg.HOST_WR_TLP) r off data

/-- A write to a port's MSI-X table: address, data, and the vector's mask (R493, R494). -/
def msixWrite (s : State) (second : Bool) (off : Nat) (v : Word) (be : Nat) : State :=
  let n := off / 16
  let h := s.c.host second
  let merge (old : Nat) : Nat := (mergeBytes (w32 old) v be).toNat
  let a := (h.addrs.find n).getD 0
  if off % 16 = 0 then s.updC fun c => c.updHost second fun h =>
    { h with addrs := h.addrs.put n (a / 2 ^ 32 * 2 ^ 32 + merge (a % 2 ^ 32)) }
  else if off % 16 = 4 then s.updC fun c => c.updHost second fun h =>
    { h with addrs := h.addrs.put n (merge (a / 2 ^ 32) * 2 ^ 32 + a % 2 ^ 32) }
  else if off % 16 = 8 then s.updC fun c => c.updHost second fun h =>
    { h with datas := h.datas.put n (merge ((h.datas.find n).getD 0)) }
  else if !nbit be 0 then s
  else if bitOf v 0 then s.updC fun c => c.updHost second fun h => { h with masked := insNat n h.masked }
  else s.updC fun c => unmask c second n

/-- A read of a port's MSI-X table or pending-bit array. -/
def msixRead (h : HostPort) (off : Nat) : Word :=
  let n := off / 16
  let a := (h.addrs.find n).getD 0
  if off % 16 = 0 then w32 a
  else if off % 16 = 4 then w32 (a / 2 ^ 32)
  else if off % 16 = 8 then w32 ((h.datas.find n).getD 0)
  else w32 (b2n (h.masked.contains n))

/-! ## Accesses (R19, R22, R426, R468, R475 to R477, R490 to R492, R504) -/

/-- The input that carries a write through the paired window: a strand descriptor word, or a register write (R16). -/
def pairedInput (r : Requester) (off : Nat) (v : Word) (be : Nat) : Input :=
  match bar0 off with
  | .paired page at_ =>
    if page = Pg.STRAND ∧ Reg.STRAND_PUSH ≤ at_ ∧ at_ < Reg.STRAND_PUSH + 32 then .hostWord r off (v &&& beMask be)
    else .pairedWrite r off v be
  | _ => .pairedWrite r off v be

/-- CHAIN.WIN_DATA: a BAR2 access at WIN_ADDR, which then advances by 4 (R504). -/
def winStep (s : State) : State := s.updR fun t =>
  wr t Pg.CHAIN Reg.CHAIN_WIN_ADDR (w32 ((rf t Pg.CHAIN Reg.CHAIN_WIN_ADDR 25 2 * 4 + 4) % 2 ^ 26))

/-- A write of a host or the chain port takes effect where it needs no sequencing: a commons page, a side range, the MSI-X
table (R22, R477, R493). -/
def directWrite (s : State) (r : Requester) (off : Nat) (v : Word) (be : Nat) : State :=
  match bar0 off with
  | .commons page at_ =>
    if page = Pg.CHAIN ∧ at_ = Reg.CHAIN_WIN_DATA then
      if unitOn s.c.regs Pg.CHAIN then
        winStep (bar2Data s r (rf s.c.regs Pg.CHAIN Reg.CHAIN_WIN_ADDR 25 2 * 4) (leBytes 4 (v &&& beMask be).toNat))
      else s
    else commonsWrite s r page at_ v be
  | .side x page at_ =>
    if !s.variant.full && decide (x = .b) then s
    else if sideLocal page then sideWrite s x r page at_ v be
    else if (regRow page at_).isSome then s.errCode Pg.BEZEL 1 5
    else s
  | .msix at_ => match r.isHost with
    | some second => msixWrite s second at_ v be
    | none => s
  | _ => s

/-- The part accepts a BAR0 access of a host or the chain port (R493). -/
def bar0Ok (off : Nat) : Bool := decide (off % 4 = 0) && (match bar0 off with
  | .none_ => false
  | _ => true)

/-- The block after a posted write of a host port has been counted in its WR_TLP (table "HOSTA and HOSTB pages"). -/
def posted (s : State) (r : Requester) : State := (hostCount s r Reg.HOST_WR_TLP).updC Commons.openCycle

/-- A posted write of a host, or a WRITE of the chain port: through the paired window it is an input; any other waits only
behind writes of its port that still wait (R491). DEDUCED: after a double failure a write to a commons page does not wait, so
that RECOVER can be written (R428). -/
def portAccess (s : State) (r : Requester) (off : Nat) (v : Word) (be : Nat) : State :=
  if !bar0Ok off then hostCount s r Reg.HOST_UR
  else
    let s1 := posted s r
    match bar0 off with
    | .paired _ _ => s1.offer r.source (pairedInput r off v be)
    | _ =>
      if !s.c.bezel.dead && s.c.bezel.waiting.any (fun w => decide (w.1 = r.source)) then
        s1.updZ fun z => { z with waiting := z.waiting ++ [(r.source, .pairedWrite r off v be)] }
      else directWrite s1 r off v be

/-- Where the core program and data region ends, at core physical address 0 (R14). PRESUMED: R476 places the pages from
0x40_0000 on and leaves the addresses below to the region. -/
def coreMemEnd : Nat := 3 * 2 ^ 20

/-- A byte of the core program and data region. -/
def Side.cmemByte (d : Side) (a : Nat) : Byte := (d.cmem.find a).getD 0

/-- A byte of the region written; zeros are not listed. -/
def putCmem (t : Tab Byte) (a : Nat) (b : Byte) : Tab Byte := if b = 0 then t.del a else t.put a b

/-- The bytes of a word that byte enables select written to the region. -/
def Side.cmemWrite (d : Side) (a : Nat) (v : Word) (be : Nat) : Side :=
  { d with cmem := (List.range 4).foldl (fun t n =>
      if nbit be n then putCmem t (a + n) (b8 (v.toNat / 256 ^ n)) else t) d.cmem }

/-- A word of the region. -/
def Side.cmemRead (d : Side) (a : Nat) : Word := w32 (leNat ((List.range 4).map fun n => d.cmemByte (a + n)))

/-- A core's write: to its own side's memory and pages at once, to a commons page as an output transaction, to GPIO_OUT and GPIO_DIR as
a pin write (R19, R24, R476, R578). -/
def coreWrite (s : State) (x : SideId) (a : Nat) (v : Word) (be : Nat) : State :=
  if !coresRun s x then s
  else match coreAddr a with
    | none => if a + 4 ≤ coreMemEnd then s.upd x fun d => d.cmemWrite a v be else s
    | some (page, off) =>
      if 64 ≤ page then sideWrite s x (.core x) page off v be
      else if page = Pg.TPO ∧ (off = Reg.TPO_GPIO_OUT ∨ off = Reg.TPO_GPIO_DIR) then
        s.upd x fun d => d.emit (.pinWrite off (v &&& beMask be))
      else s.upd x fun d => d.emit (.regWrite page off v be)

/-- The commons page that an address of BAR0 lies in. -/
def bar0Page (off : Nat) : Option Nat := match bar0 off with
  | .commons page _ => some page
  | _ => none

/-- The requester may make the access: it exists on the variant, and what JTAG may reach depends on Loupe (R3, R4, R314). -/
def mayAccess (s : State) (r : Requester) (off : Nat) : Bool :=
  r.presentOn s.variant.full && (decide (r ≠ .jtag) || jtagReaches s.c (bar0Page off))

/-- A register write by any requester. -/
def access (s : State) (r : Requester) (off : Nat) (v : Word) (be : Nat) : State :=
  if !mayAccess s r off then s
  else match r with
    | .core x => coreWrite s x off v be
    | _ => portAccess s r off v be

/-- A register of a page written whole by any requester. -/
def pageWrite (s : State) (r : Requester) (page off : Nat) (v : Word) : State := access s r (regAddr r page off) v 15

/-- A read of a commons register with what the read itself does: LT_LO latches LT_HI, WIN_DATA reads BAR2, SYM_NEXT asks for a
symbol (R38, R369, R504). -/
def commonsReadFx (s : State) (r : Requester) (page off : Nat) : State × Word :=
  if page = Pg.LATH ∧ off = Reg.LATH_LT_LO then
    let e := readLtLo s.c
    ({ s with c := e.1 }, e.2)
  else if page = Pg.CHAIN ∧ off = Reg.CHAIN_WIN_DATA ∧ unitOn s.c.regs Pg.CHAIN then
    (winStep s, bar2Read s (rf s.c.regs Pg.CHAIN Reg.CHAIN_WIN_ADDR 25 2 * 4))
  else if page = Pg.IBE ∧ off = Reg.IBE_SYM_NEXT ∧ r.isCore then (symServe s, 0)
  else (s, commonsRead s page off)

/-- A read of a host or the chain port is complete. -/
def readDone (s : State) (r : Requester) (off : Nat) (v : Word) : State :=
  let s1 := (hostCount s r Reg.HOST_RD_TLP).updC fun c => { c with lastRead := some (r, v) }
  if r = .chain then s1.updC fun c => { c with chain := { c.chain with rd := some (off, some v) } } else s1

/-- The side that would answer a paired-window read consumes no inputs for a reason other than mismatch handling, or the
commons are held after a double failure (R492). -/
def readFails (s : State) : Bool :=
  let y := answerer s
  s.c.bezel.dead || (s.c.bezel.hold.isNone && !(s.c.bezel.consumes y && s.c.pd.sideUp y))

/-- A read of a host or the chain port; one of BAR2 during mismatch handling waits for the verdict (R22, R426, R492, R493, R498). -/
def portRead (s : State) (r : Requester) (off : Nat) : State :=
  if !bar0Ok off then hostCount s r Reg.HOST_UR
  else match bar0 off with
    | .commons page at_ =>
      if page = Pg.CHAIN ∧ at_ = Reg.CHAIN_WIN_DATA ∧ s.c.bezel.hold.isSome then
        s.updZ fun z => { z with winReads := z.winReads ++ [(r, off)] }
      else
        let e := commonsReadFx s r page at_
        readDone e.1 r off e.2
    | .side x page at_ => readDone s r off (if !s.variant.full && decide (x = .b) then 0 else sideReadAt s x page at_)
    | .paired _ _ =>
      if readFails s then
        readDone (hostCount (s.offer r.source (.readMarker r off false)) r Reg.HOST_RD_FAIL) r off 0xFFFFFFFF#32
      else s.offer r.source (.readMarker r off true)
    | .msix at_ => match r.isHost with
      | some second => readDone s r off (msixRead (s.c.host second) at_)
      | none => readDone s r off 0
    | .pba at_ => match r.isHost with
      | some second => readDone s r off (setWord (s.c.host second).pba (8 * at_))
      | none => readDone s r off 0
    | .none_ => s

/-- A core's read: of its own side's memory and pages at once, of a commons page as an output transaction (R19, R476). -/
def coreRead (s : State) (x : SideId) (a : Nat) : State :=
  if !coresRun s x then s
  else match coreAddr a with
    | none =>
      if a + 4 ≤ coreMemEnd then s.updC fun c => { c with lastRead := some (.core x, (s.side x).cmemRead a) } else s
    | some (page, off) =>
      if 64 ≤ page then (s.upd x fun d => d.latchHi page off).updC fun c =>
        { c with lastRead := some (.core x, sideRead s.variant x (s.side x) page off) }
      else s.upd x fun d => ({ d with reads := d.reads ++ [(page, off, false)] }).emit
        (if page = Pg.IBE ∧ off = Reg.IBE_SYM_NEXT then .symRead else .regRead page off)

/-- A register read by any requester. -/
def accessRead (s : State) (r : Requester) (off : Nat) : State :=
  if !mayAccess s r off then s
  else match r with
    | .core x => coreRead s x off
    | _ => portRead s r off

end Sys2Proof.Machine
end

