-- ==== Sys2Proof/Machine/Output.lean ====
section
/-! DEFINITION. Bezel's output path: transactions are paired by class and order, compared, passed for the holder of the
lease and read back; what a passed transaction does; the verdict after a mismatch (R19, R24 to R28, R422 to R431, R437,
R558). -/

namespace Sys2Proof.Machine

open Sys2Proof

/-! ## Classes and TOKENs -/

/-- The six classes of R24, as numbers. -/
def TxnBody.cls : TxnBody → Nat
  | .launch _ => 0
  | .plUpdate _ => 1
  | .eth _ _ _ _ => 2
  | .hostItem _ _ _ => 3
  | .hostFrame _ _ => 3
  | .sourceState _ _ => 3
  | .pinWrite _ _ => 4
  | .regWrite _ _ _ _ => 5
  | .regRead _ _ => 5
  | .rootOk _ => 5
  | .ibeStart _ => 5
  | .ibeStop => 5
  | .symRead => 5
  | .fwUpdate => 5

/-- The transactions of a side that Bezel holds, oldest first, with the LT of the offer. -/
def BezelState.heldOf (z : BezelState) : SideId → List (Nat × Txn)
  | .a => z.heldA
  | .b => z.heldB

/-- The held transactions of a side replaced. -/
def BezelState.setHeld (z : BezelState) (x : SideId) (l : List (Nat × Txn)) : BezelState :=
  match x with
  | .a => { z with heldA := l }
  | .b => { z with heldB := l }

/-- The TOKEN due for a sequence point (R422). -/
def tokenDue (s : State) (point : Nat) : Nat :=
  let k := s.c.clasp
  if k.grantPoint ≤ point then k.token else k.prevToken

/-- The side whose member passes at a sequence point: the holder, or the holder before a marker swap for what was offered
before the marker (R423). -/
def speaker (s : State) (h : SideId) (point : Nat) : SideId :=
  let k := s.c.clasp
  if k.grantPoint ≤ point then h else (SideId.ofNum k.oldHolder).getD h

/-! ## What a passed transaction does -/

/-- The host sees one more descriptor of a strand, unless it was flushed meanwhile (R385, R389). -/
def Side.itemPassed (d : Side) (n : Nat) : Side :=
  if (d.strand.rings.find n).isSome then
    d.updRing n fun r => if 0 < r.lost then { r with lost := r.lost - 1 } else { r with passed := r.passed + 1 }
  else d

/-- The effect of a transaction that has passed (R26): it belongs to the commons. `x` is the side it came from. -/
def pass (s : State) (x : SideId) : TxnBody → State
  | .launch l => s.updC fun c => c.updCar l.port l.carrier fun k => { k with arrivals := k.arrivals ++ [l] }
  | .plUpdate op => s.updC fun c => { c with air := c.air.passUpdate c.lt op }
  | .eth second id tenant bytes => ethSend s second id tenant bytes
  | .hostItem n _ _ => (s.upd .a fun d => d.itemPassed n).upd .b fun d => d.itemPassed n
  | .hostFrame second bytes => s.updC fun c => c.updHost second fun h => { h with frames := h.frames ++ [bytes] }
  | .sourceState src on => s.updC fun c =>
      let l := if on then insNat src c.evt.sidePend else c.evt.sidePend.filter (· ≠ src)
      { c with evt := { c.evt with sidePend := l } }
  | .pinWrite off v => s.updC fun c => writeGpio c (.core x) (decide (off = Reg.TPO_GPIO_DIR)) v
  | .regWrite page off v be => commonsWrite (s.updC Commons.openCycle) (.core x) page off v be
  | .regRead page off =>
    let e := commonsReadFx s (.core x) page off
    e.1.offer .units (.readResult page off e.2)
  | .rootOk _ => s
  | .ibeStart a => ibeLoad s a
  | .ibeStop => ibeFinish s 4
  | .symRead => symServe s
  | .fwUpdate => startUpdate s

/-- The first transaction passed after a mismatch ends the takeover gap (R431). -/
def gapEnds (s : State) : State :=
  match s.c.bezel.gapFrom with
  | some t => s.updZ fun z => { z with gapFrom := none, gapMax := max z.gapMax (min 1023 ((s.c.lt - t) / 1000)) }
  | none => s

/-- A transaction that Bezel would pass carries a TOKEN that is not due, or its side may not speak: LEASE_CONFLICT, and the
side leaves service (R422). -/
def conflict (s : State) (x : SideId) : State :=
  let s1 := ((s.bumpC Pg.CLASP Reg.CLASP_CONFLICTS).event Pg.CLASP 1).notice (.leaseConflict x)
  leave s1 x

/-- The readback of a passed transaction differs (R425, R437): PATH_BAD, the twin passes in its place and the lease moves to
the other side; without a twin the commons are held. -/
def pathFault (s : State) (x : SideId) (twin : Option Txn) : State :=
  let s1 := (s.errCode Pg.BEZEL 3 7).bumpC Pg.BEZEL Reg.BEZEL_PATH_FAULT
  let s2 := s1.updZ fun z => match x with
    | .a => { z with pathBadA := true }
    | .b => { z with pathBadB := true }
  match twin with
  | none => failUpdates (halt s2) 12
  | some t =>
    let s3 := if s2.c.clasp.drillHome.isSome then
        endDrill ((s2.updC fun c => c.err Pg.CLASP 2).event Pg.CLASP 3) else s2
    let s4 := s3.updK fun k => { k with swapTo := none, swapOut := none }
    grant (pass (gapEnds s4) x.other t.body) x.other false

/-- A member is passed if its TOKEN is due, and read back (R422, R425). -/
def passMember (s : State) (x : SideId) (t : Txn) (twin : Option Txn) (readbackOk : Bool) : State :=
  if t.token ≠ tokenDue s t.point then conflict s x
  else if readbackOk then pass (gapEnds s) x t.body
  else pathFault s x twin

/-! ## Offers -/

/-- The side whose outputs pass without comparison (R27, R28). -/
def soloSide (s : State) : Option SideId :=
  let z := s.c.bezel
  if !s.variant.full then (if z.stA = .alone ∨ z.stA = .boot then some .a else none)
  else if z.stA = .alone then some .a
  else if z.stB = .alone then some .b
  else none

/-- What a side offers reaches Bezel: it is held until it can be passed, or discarded: the outputs of a side that is being
refilled, until its JOIN, and of one that plays no part (R25, R27, R427, R433, R558). -/
def takesOffer (s : State) (x : SideId) (t : Txn) : Bool :=
  let z := s.c.bezel
  match z.st x with
  | .compared | .selfCheck | .alone => true
  | .boot => s.c.clasp.holder.isNone || !s.variant.full
  | .refill => (match z.refill with
    | some r => decide (r.side = x ∧ r.phase = 5 ∧ z.joinPoint < t.point)
    | none => false)
  | _ => false

/-- A transaction is appended to what Bezel holds of its side. -/
def State.hold (s : State) (x : SideId) (t : Txn) : State :=
  s.updZ fun z => z.setHeld x (z.heldOf x ++ [(s.c.lt, t)])

/-- The first transaction of a class, and the list without it. -/
def takeClass (k : Nat) : List (Nat × Txn) → Option ((Nat × Txn) × List (Nat × Txn))
  | [] => none
  | e :: l =>
    if e.2.body.cls = k then some (e, l)
    else match takeClass k l with
      | some (f, r) => some (f, e :: r)
      | none => none

/-- The first pair of the two sides' transactions, in the order of the first list: the first of their class in both
(R24). -/
def firstPair (la lb : List (Nat × Txn)) : List Nat → List (Nat × Txn) → Option ((Nat × Txn) × (Nat × Txn))
  | _, [] => none
  | seen, e :: l =>
    let k := e.2.body.cls
    if seen.contains k then firstPair la lb seen l
    else match takeClass k lb with
      | some (f, _) => some (e, f)
      | none => firstPair la lb (k :: seen) l

/-- The first transaction of a class taken off a list. -/
def dropClass (k : Nat) (l : List (Nat × Txn)) : List (Nat × Txn) := match takeClass k l with
  | some (_, r) => r
  | none => l

/-- A pair is compared: it matches and the speaker's member passes, or it is a mismatch with cause DATA whose point is that
of the member offered first (R24, R25, R427). -/
def comparePair (s : State) (h : SideId) (ea eb : Nat × Txn) (readbackOk : Bool) : State :=
  let k := ea.2.body.cls
  let s1 := s.updZ fun z => { z with heldA := dropClass k z.heldA, heldB := dropClass k z.heldB }
  if ea.2.body = eb.2.body then
    match speaker s h ea.2.point with
    | .a => passMember s1 .a ea.2 (some eb.2) readbackOk
    | .b => passMember s1 .b eb.2 (some ea.2) readbackOk
  else mismatch s1 1 (if eb.1 < ea.1 then eb.2.point else ea.2.point) (some ea.2) (some eb.2) none none

/-- The next transaction that Bezel can pass, passed or compared; nothing while the commons are held or nobody holds the
lease (R24 to R28, R422, R427, R433). -/
def passNext (s : State) (readbackOk : Bool) : Option State :=
  let z := s.c.bezel
  if z.held then none
  else match s.c.clasp.holder with
    | none => none
    | some h => match soloSide s with
      | some x => match z.heldOf x with
        | [] => none
        | (_, t) :: rest =>
          let waits : Bool := match z.refill with
            | some r => decide (r.phase = 5 ∧ z.joinPoint < t.point)
            | none => false
          if waits then none
          else
            let s1 := s.updZ fun z => z.setHeld x rest
            some (if h = x then passMember s1 x t none readbackOk else conflict s1 x)
      | none =>
        if !z.compares then none
        else
          let old (l : List (Nat × Txn)) : Option (Nat × Txn) := l.head?.filter fun e => decide (e.2.point ≤ z.joinPoint)
          let alone (x : SideId) (e : Nat × Txn) : State :=
            let s1 := s.updZ fun z => z.setHeld x ((z.heldOf x).drop 1)
            if h = x then passMember s1 x e.2 none readbackOk else s1
          match old z.heldA, old z.heldB with
          | some e, _ => some (alone .a e)
          | none, some e => some (alone .b e)
          | none, none =>
            match (match h with
              | .a => firstPair z.heldA z.heldB [] z.heldA
              | .b => (firstPair z.heldB z.heldA [] z.heldB).map fun p => (p.2, p.1)) with
            | some (ea, eb) => some (comparePair s h ea eb readbackOk)
            | none => none

/-- A transaction of a core towards the commons is offered (R19, R24, R578). -/
def coreTxn (s : State) (x : SideId) : CoreTxn → State
  | .write page off v be => if page < 64 then coreWrite s x (regAddr (.core x) page off) v be else s
  | .read page off => if page < 64 then coreRead s x (regAddr (.core x) page off) else s
  | .pinWrite off v => coreWrite s x (regAddr (.core x) Pg.TPO off) v 15

/-- OUTPUT_OFFER: a side's oldest output reaches Bezel, and what can pass now passes (R24). -/
def offerOutput (s : State) (x : SideId) (txn : Option CoreTxn) (readbackOk : Bool) : State :=
  let s0 := match txn with
    | some t => coreTxn s x t
    | none => s
  match (s0.side x).outq with
  | [] => s0
  | t :: rest =>
    let s1 := s0.upd x fun d => { d with outq := rest }
    if takesOffer s1 x t then
      let s2 := s1.hold x t
      (passNext s2 readbackOk).getD s2
    else s1

/-! ## The verdict (R428 to R430) -/

/-- A side's member of the pair in hand. -/
def Mismatch.member (m : Mismatch) : SideId → Option Txn
  | .a => m.memberA
  | .b => m.memberB

/-- A side's result. -/
def Mismatch.res (m : Mismatch) : SideId → Option Bool
  | .a => m.resA
  | .b => m.resB

/-- A side's result recorded once. -/
def Mismatch.setRes (m : Mismatch) (x : SideId) (ok : Bool) : Mismatch :=
  match x with
  | .a => { m with resA := m.resA.orElse fun _ => some ok }
  | .b => { m with resB := m.resB.orElse fun _ => some ok }

/-- A side wins: its member of the pair is the next to pass, the other side leaves service and is refilled (R429, R430). -/
def settleFor (s : State) (m : Mismatch) (w : SideId) : State :=
  let s1 := match m.member w with
    | some t => s.updZ fun z => z.setHeld w ((s.c.lt, t) :: z.heldOf w)
    | none => s
  let s2 := leave s1 w.other
  let s3 := if s2.c.clasp.holder = some w then s2 else grant s2 w false
  startRefill s3 w.other 0 false

/-- The verdict over a mismatch whose two results are known (R429). -/
def verdict (s : State) (m : Mismatch) (h : SideId) (active shadow : Bool) : State :=
  let s1 := s.updZ fun z => { z with hold := none }
  let told (s : State) (off ev : Nat) : State := (s.bumpC Pg.BEZEL off).event Pg.BEZEL ev
  if !active && !shadow then halt (told s1 Reg.BEZEL_BOTH_FAIL 3)
  else if !active then settleFor ((told s1 Reg.BEZEL_TAKEOVERS 0).notice (.takeover h.other)) m h.other
  else if !shadow then settleFor ((told s1 Reg.BEZEL_SHADOW_FAIL 1).notice (.sideOut h.other)) m h
  else
    let s2 := (told s1 Reg.BEZEL_TRANSIENT 2).notice .transient
    if m.cause = 1 then settleFor s2 m h
    else s2.updZ fun z => { z with stA := .compared, stB := .compared }

/-- The verdict if both results are known. -/
def judge (s : State) : State :=
  match s.c.bezel.hold with
  | none => s
  | some m => match m.resA, m.resB with
    | some a, some b => match s.c.clasp.holder with
      | some .a => verdict s m .a a b
      | some .b => verdict s m .b b a
      | none => s
    | _, _ => s

/-- SELF_CHECK_REPORT: a side that has none yet reports its result (R428). -/
def selfCheckReport (s : State) (x : SideId) (r : SelfCheck) : State :=
  if s.c.bezel.st x = .selfCheck then
    judge (s.updZ fun z => { z with hold := z.hold.map fun m => m.setRes x (r.digestOk && r.logicOk && r.scanOk) })
  else s

/-- SELF_CHECK_TIMEOUT: a side that has not reported within 200 µs has failed (R428). -/
def selfCheckTimeout (s : State) (x : SideId) : State :=
  match s.c.bezel.hold with
  | some m => if s.c.bezel.st x = .selfCheck ∧ 200000 + m.start ≤ s.c.lt then
      judge (s.updZ fun z => { z with hold := some (m.setRes x false) }) else s
  | none => s

/-- SKEW_TIMEOUT: a twin or a twin's consumption has not come within 20 µs (R23, R427). -/
def skewTimeout (s : State) : State :=
  if s.c.bezel.compares then
    match skewOver s with
    | some p => mismatch s 2 p none none none none
    | none => s
  else s

end Sys2Proof.Machine
end

