-- ==== Sys2Proof/Machine/Settle.lean ====
section
/-! DEFINITION. What follows a command without a row of its own: the sides consume the inputs whose effect needs no other
event, reads of hosts complete, and Bezel passes what it held. `fin` ends every command with it (R15 to R22, R344, R357,
R361, R372, R423, R426, R433, R492, R527, R603). -/

namespace Sys2Proof.Machine

open Sys2Proof

/-! ## Reads through the paired window (R426, R492) -/

/-- The page and offset that a paired-window offset names. -/
def pairedAt (off : Nat) : Option (Nat × Nat) :=
  match bar0 off with
  | .paired page at_ => some (page, at_)
  | _ => none

/-- A field that the two sides' answers are compared in: not a side-local one (R426). -/
def readCompared (page off : Nat) : Bool := !sideLocal page && decide (off ≠ Reg.HDR_PAGE_ID)

/-- READ_DIFF is raised for an offset (R426). -/
def readDiffers (s : State) (off : Nat) : State :=
  (s.errCode Pg.BEZEL 2 6).updZ fun z => { z with readDiff := off }

/-- A side consumes a live read marker: the active side's value is returned; the two values are compared once both sides
have answered (R426). -/
def reachRead (s : State) (x : SideId) (seq : Nat) (r : Requester) (off : Nat) : State :=
  match pairedAt off with
  | none => s
  | some (page, at_) =>
    let v := sideReadAt s x page at_
    let speaks : Bool := decide (answerer s = x)
    let s0 := s.upd x fun d => d.latchHi page at_
    match s.c.bezel.reads.find? fun m => decide (m.seq = seq) with
    | some m =>
      let s1 := s0.updZ fun z => { z with reads := z.reads.filter fun m => decide (m.seq ≠ seq) }
      let s2 := if m.done then s1 else readDone s1 r off (if speaks then v else m.v)
      if v ≠ m.v ∧ readCompared page at_ then readDiffers s2 off else s2
    | none =>
      let s1 := if speaks then readDone s0 r off v else s0
      if s.c.bezel.compares then
        let m : ReadMark := { seq := seq, side := x, done := speaks, r := r, off := off, v := v }
        s1.updZ fun z => { z with reads := z.reads ++ [m] }
      else s1

/-- A read that completes with 0xFFFF_FFFF (R492). -/
def failRead (s : State) (e : Requester × Nat) : State := readDone (hostCount s e.1 Reg.HOST_RD_FAIL) e.1 e.2 0xFFFFFFFF#32

/-- The live read marker of an input. -/
def Input.liveRead : Input → Option (Requester × Nat)
  | .readMarker r off true => some (r, off)
  | _ => none

/-- A marker whose read has completed as failed. -/
def Input.deadRead : Input → Input
  | .readMarker r off _ => .readMarker r off false
  | i => i

/-- Live markers of a side's queue that the other has not reached either, or that it has reached without answering. -/
def openReads (s : State) : List (Requester × Nat) :=
  let y := answerer s
  (s.side y).inq.filterMap (fun q => q.inp.liveRead) ++ s.c.bezel.waiting.filterMap fun w => w.2.liveRead

/-- While the side that would answer consumes nothing for another reason than mismatch handling, the reads that wait for it
complete as failed; their markers stay without effect (R492). -/
def failReads (s : State) : State :=
  let kill (d : Side) : Side := { d with inq := d.inq.map fun q => { q with inp := q.inp.deadRead } }
  let s1 := (s.upd .a kill).upd .b kill
  let s2 := s1.updZ fun z => { z with reads := [], waiting := z.waiting.map fun w => (w.1, w.2.deadRead) }
  (openReads s).foldl failRead s2

/-- A read that only a side now alone has reached is answered with that side's value. -/
def answerAlone (s : State) : Option State :=
  if s.c.bezel.compares || s.c.bezel.hold.isSome then none
  else match s.c.bezel.reads with
    | [] => none
    | m :: rest =>
      let s1 := s.updZ fun z => { z with reads := rest }
      some (if m.done then s1 else readDone s1 m.r m.off m.v)

/-! ## Inputs consumed at once -/

/-- A side takes a commons read's result; a duty account read at its start is charged to its copy (R19, R344). -/
def Side.readResult (d : Side) (page off : Nat) (v : Word) : Side :=
  match d.reads.find? fun e => decide (e.1 = page ∧ e.2.1 = off) with
  | none => d
  | some e =>
    let d1 := { d with reads := d.reads.erase e }
    if e.2.2 then
      let acct := (off - Reg.DUTY_ACCT_USED) / 16
      d1.updTrowel fun w =>
        let k := acct * 64 + w.dutyIdx
        { w with duty := w.duty.put k ((w.duty.find k).getD 0 + 1000 * v.toNat) }
    else d1

/-- The lease marker of a move: the TOKEN; at the first one the slots that step 4 did not try are verified in the
background (R357, R422). -/
def Side.leaseMarker (d : Side) (token : Nat) : Side :=
  let d1 := { d with token := token }
  if d1.fw.tried % 4 = 3 then d1
  else d1.updFw fun k =>
    { k with verify := 3 - k.tried % 4, tried := 3, verifyAt := some (d1.now + 8000000) }

/-- A marker swap in a side: an update past its swap goes on (R361, R423). -/
def Side.swapMarker (d : Side) (token : Nat) : Side :=
  { d with token := token, fw := { d.fw with phase := if d.fw.phase = 4 then 5 else d.fw.phase } }

/-- A control marker consumed. -/
def takeMarker (s : State) (x : SideId) : Marker → State
  | .leaseGrant _ token => s.upd x fun d => d.leaseMarker token
  | .swap _ token => s.upd x fun d => d.swapMarker token
  | .transfer _ => applyTransfer s x
  | .join _ => joinBoth s
  | .pdStart =>
    match s.c.pd.run with
    | some r => if r.todo.any fun e => decide (e.1 = x.num) then
        s.updC fun c => { c with pd := { c.pd with paused := insNat x.num c.pd.paused } } else s
    | none => s

/-- An input whose effect needs no other event, consumed by a side; none for the inputs that have rows of their own. -/
def takeInput (s : State) (x : SideId) (i : Seqd) : Option State :=
  let s1 := s.upd x fun d => d.consume i
  match i.inp with
  | .hostWord r off v => some (match pairedAt off with
    | some (page, at_) => sideWrite s1 x r page at_ v 15
    | none => s1)
  | .cellWrite _ off data => some (s1.upd x fun d => d.writePlace off data)
  | .pairedWrite r off v be => some (match pairedAt off with
    | some (page, at_) => sideWrite s1 x r page at_ v be
    | none => s1)
  | .readMarker r off live => some (if live then reachRead s1 x i.seq r off else s1)
  | .readResult page off v =>
    some ((s1.upd x fun d => d.readResult page off v).updC fun c => { c with lastRead := some (.core x, v) })
  | .timerExpiry slot _ => some (s1.upd x fun d => (d.signal s.c.lt (64 + slot) false).2)
  | .trng w => some (s1.upd x fun d => d.takeWord w)
  | .ethDone _ id status _ => some (s1.upd x fun d => d.ethDone s.c.lt id status)
  | .portReset r => some (s1.upd x fun d => d.portReset r)
  | .symbol sbn esi data => some (s1.upd x fun d => Side.symbol s.variant d.view d s.c.lt sbn esi data)
  | .marker m => some (takeMarker s1 x m)
  | .rxFrame _ | .ethFrame _ | .time _ _ _ | .sourceState _ _ | .notice _ | .launchDone _ | .plDone _ _ => none

/-- The next input of a side, if it is consumed at once. -/
def autoConsume (s : State) (x : SideId) : Option State := (nextInput s x).bind fun i => takeInput s x i

/-! ## The end of a command -/

/-- Helper data of a side written for a root, blowing HELPER_DONE (R257). -/
def giveHelper (s : State) (x : SideId) (root : List Byte) : State :=
  s.upd x fun d => if d.mram.helper.isSome then d else d.updMram fun m => { m with helper := some (helperOf x (m.pufUps - 1) root) }

/-- A side that has drawn the root of the enrolment writes its helper data, and those of a side that takes no inputs (R257). -/
def enrolEnds (s : State) (x : SideId) : Option State :=
  (s.side x).key.enrolled.map fun root =>
    let s1 := giveHelper (s.upd x fun d => d.updKey fun k => { k with enrolled := none }) x root
    if s.variant.full && !s.c.bezel.receives x.other then giveHelper s1 x.other root else s1

/-- A read of BAR2 that waited for the verdict completes (R498). -/
def winReadEnds (s : State) : Option State :=
  if s.c.bezel.hold.isSome then none
  else match s.c.bezel.winReads with
    | [] => none
    | (r, off) :: rest =>
      let e := commonsReadFx (s.updZ fun z => { z with winReads := rest }) r Pg.CHAIN Reg.CHAIN_WIN_DATA
      some (readDone e.1 r off e.2)

/-- One thing that follows of itself, if there is one. -/
def settleStep (s : State) : Option State :=
  match (winReadEnds s).orElse fun _ => (enrolEnds s .a).orElse fun _ => (enrolEnds s .b).orElse fun _ => autoConsume s .a with
  | some t => some t
  | none => match autoConsume s .b with
    | some t => some t
    | none => match passNext s true with
      | some t => some t
      | none => answerAlone s

/-- What follows of itself, step by step, at most as often as the fuel says. -/
def settleBy (s : State) : Nat → State
  | 0 => s
  | n + 1 => match settleStep s with
    | some t => settleBy t n
    | none => s

/-- What follows of itself after a command. DESIGN CHOICE: at most as many steps as inputs and transactions waited, and
eight more; what is left follows after the next command. -/
def settle (s : State) : State :=
  let s1 := if readFails s && !(openReads s).isEmpty then failReads s else s
  settleBy s1 (s1.a.inq.length + s1.b.inq.length + s1.c.bezel.heldA.length + s1.c.bezel.heldB.length +
    s1.c.bezel.winReads.length + 8)

/-- The block after a command. -/
def fin (s : State) : State := refresh (settle s)

end Sys2Proof.Machine
end

