-- ==== Sys2Proof/Machine/Sequencer.lean ====
section
/-! DEFINITION. The ingress sequencer's own events: a waiting input accepted, a TRNG word, and what a side does with a
sequenced commons event (R15 to R21, R87, R163, R361, R372, R434, R480, R481, R491, R603). -/

namespace Sys2Proof.Machine

open Sys2Proof

/-- The counter of the class of a received frame that is sequenced (table "Frame classes"). -/
def classCounter (cls : Nat) : Nat :=
  if cls = 0 then Reg.AIR_RX_ACCEPT else if cls = 1 then Reg.AIR_RX_HOST else Reg.AIR_RX_ACKFRAME

/-- A sequenced frame is counted in its class; one sequenced under DIAG_BAD counts in no AIR counter (R147, R193). -/
def countClass (s : State) (f : RxFrame) : State :=
  if f.rx.rxStatus ≠ 0 then s else s.bumpC Pg.AIR (classCounter f.rx.airClass)

/-- The oldest frame of the receive buffer is sequenced, once both sides have taken what came before: radio is never back-pressured, and a frame that finds the catch-up
buffer full ends the refill (R20, R21, R434). -/
def sequenceFrame (s : State) : State :=
  match s.c.air.rxbuf with
  | [] => s
  | f :: rest =>
    if !seqOpen s || lagging s then s
    else
      let s1 := if catchFull s then refillFail s 1 else s
      let s2 := s1.updC fun c => { c with air := { c.air with rxbuf := rest } }
      (countClass s2 f).sequence (.rxFrame f)

/-- A waiting write that needs no sequencing: one that does not go through the paired window (R22, R491). -/
def Input.direct : Input → Option (Requester × Nat × Word × Nat)
  | .pairedWrite r off v be => if (pairedAt off).isSome then none else some (r, off, v, be)
  | _ => none

/-- A time input follows another only at a later LT (R42). -/
def tooSoon (s : State) (i : Input) : Bool := i.isTime && decide (s.c.bezel.timeAt = some s.c.lt)

/-- INPUT_SEQUENCED: the oldest waiting input of a source is accepted once there is room (R15, R21); a time input that waits
is accepted at an LT later than that of the time input before it (R42). -/
def sequenceNext (s : State) (src : InputSource) : State :=
  if src = .radio then sequenceFrame s
  else match takeWaiting src s.c.bezel.waiting with
    | none => s
    | some (i, rest) =>
      let s1 := s.updZ fun z => { z with waiting := rest }
      match i.direct with
      | some (r, off, v, be) => directWrite (s1.updC Commons.openCycle) r off v be
      | none => if seqBlocked s || tooSoon s i then s else s1.sequence i

/-- TRNG_WORD: the word is sequenced, or dropped when the sequencer cannot accept it; Loupe takes its nonce from sequenced
words (R314, R603). -/
def trngOffered (s : State) (w : Word64) : State :=
  if seqBlocked s || s.c.bezel.waiting.any (fun e => decide (e.1 = .units)) then s
  else (s.updC fun c => noteTrng c w).sequence (.trng w)

/-- A change of a commons source's pending state reaches a side (R480, R481, R488). -/
def Side.commonsSource (d : Side) (lt src : Nat) (on : Bool) : Side :=
  let l := if on then insNat src d.evt.commonsPend else d.evt.commonsPend.filter (· ≠ src)
  let d1 := { d with evt := { d.evt with commonsPend := l } }
  if on && !d.evt.commonsPend.contains src then d1.sourceRises lt src else d1

/-- A notice acts on a side (R87, R163, R346, R347, R361, R364, R372); the others change nothing but its event record. -/
def Side.takeNotice (d : Side) : Notice → Side
  | .chzCommit p idx k => { d with chans := d.chans.put (p.num * 256 + idx) k }
  | .airWrite off v => { d with air := wr d.air Pg.AIR off v }
  | .ibeEnd cause => if cause = 4 then d else { d with sess := { d.sess with active := false } }
  | .fwuDone => if d.fw.phase = 2 ∨ d.fw.phase = 5 then
      d.updFw fun k => { k with phase := 6, doneAt := some d.now } else d
  | .rxBusy p ch e => d.trowelNotice (.rxBusy p ch e)
  | .calNotice p t n => d.trowelNotice (.calNotice p t n)
  | .tamper | .loupeOpen | .loupeClose | .semFree _ | .leaseConflict _ | .takeover _ | .sideOut _ | .transient | .refillDone _
  | .refillFail _ _ | .pdDone _ | .retLost _ _ => d

/-- A notice has a command of its own. -/
def Notice.apart : Notice → Bool
  | .tamper | .loupeOpen | .loupeClose => true
  | _ => false

/-- SIDE_COMMONS_EVENT: a side consumes a sequenced commons event or notice (R479, R480). -/
def commonsEvent (s : State) (x : SideId) : State :=
  match nextInput s x with
  | none => s
  | some i => match i.inp with
    | .sourceState src on => s.upd x fun d => (d.consume i).commonsSource s.c.lt src on
    | .notice n => if n.apart then s else s.upd x fun d => (d.consume i).takeNotice n
    | _ => s

/-! ## Commands of the strands that wait (R377, R388) -/

/-- STRAND_POP_UNBLOCK: a pop that waits proceeds once the cells it needs are free (R377). -/
def Side.unblockPop (d : Side) (n : Nat) : Side :=
  match (d.ring n).popWait with
  | none => d
  | some byCmd =>
    if d.strand.cellsFree < d.popCells 1 then d
    else if byCmd then d.cmdPop n
    else d.updRing n fun r => { r with popWait := none }

/-! ## Values of registers that a command keeps -/

/-- The register as the side in question shows it: a core's own side, else the side that answers reads. -/
def shownBy (s : State) (r : Requester) (page off : Nat) : Word :=
  match r with
  | .core x => if page < 64 then commonsRead s page off else sideReadAt s x page off
  | _ => if page < 64 then commonsRead s page off else sideReadAt s (answerer s) page off

/-- A READ of the chain port: one may be outstanding (R501). -/
def chainReads (s : State) (frame : List Byte) : State :=
  if s.c.chain.rd.isSome then s.bumpC Pg.CHAIN Reg.CHAIN_BUSY
  else accessRead (s.updC fun c => { c with chain := { c.chain with rd := some (chainOff frame, none) } }) .chain (chainOff frame)

/-- GRANT_WAIT has passed (R419). -/
def grantWaitOver (s : State) : State :=
  match s.c.clasp.grantDue with
  | some t => if t ≤ s.c.lt then tryGrant (s.updK fun k => { k with grantDue := none, waitPassed := true }) else s
  | none => s

/-- RENEW: the holder's write of a TOKEN has passed (R420). -/
def renewPassed (s : State) (v : Word) : State :=
  match s.c.clasp.holder with
  | some h => if s.c.bezel.held then s else commonsWrite s (.core h) Pg.CLASP Reg.CLASP_RENEW v 15
  | none => s

end Sys2Proof.Machine
end

