-- ==== Sys2Proof/Machine/DebugRows.lean ====
section
/-! DEFINITION. The meanings of the commands of tamper and debug: one definition per row of the table. -/

namespace Sys2Proof.Machine

open Sys2Proof

/-- TAMPER_TRIP (R306, R307, R309 to R311). -/
def execTamperTrip (source : Nat) (s : State) : Host.Outcome State Fault Refusal := .next (fin (tamperTrip s source))

/-- SIDE_TAMPER (R311): the shadow restarts; the other side changes nothing but its event record. -/
def execSideTamper (x : SideId) (s : State) : Host.Outcome State Fault Refusal :=
  .next (fin (match nextInput s x with
    | some i => if i.inp = .notice .tamper then s.upd x fun d => d.consume i else s
    | none => shadowRestarts s x))

/-- LOUPE_CHALLENGE (R314, R315). -/
def execLoupeChallenge (r : Requester) (s : State) : Host.Outcome State Fault Refusal :=
  .next (fin (pageWrite s r Pg.LOUPE Reg.LOUPE_CMD 1))

/-- LOUPE_OPEN (R314, R315). -/
def execLoupeOpen (r : Requester) (s : State) : Host.Outcome State Fault Refusal :=
  .next (fin (pageWrite s r Pg.LOUPE Reg.LOUPE_CMD 2))

/-- LOUPE_CLOSE (R316). -/
def execLoupeClose (r : Requester) (s : State) : Host.Outcome State Fault Refusal :=
  .next (fin (pageWrite s r Pg.LOUPE Reg.LOUPE_CMD 4))

/-- LOUPE_LOCKOUT_END (R315). -/
def execLoupeLockoutEnd (s : State) : Host.Outcome State Fault Refusal := .next (fin (lockoutEnd s))

/-- SIDE_LOUPE_OPEN (R259, R260, R316). -/
def execSideLoupeOpen (x : SideId) (s : State) : Host.Outcome State Fault Refusal :=
  .next (fin (match nextInput s x with
    | some i => if i.inp = .notice .loupeOpen then
        s.upd x fun d => (d.consume i).loupeOpens (rootBlocked s.c) else s
    | none => s))

/-- SIDE_LOUPE_CLOSE (R253, R258, R261, R316). -/
def execSideLoupeClose (x : SideId) (s : State) : Host.Outcome State Fault Refusal :=
  .next (fin (match nextInput s x with
    | some i => if i.inp = .notice .loupeClose then
        s.upd x fun d => (d.consume i).loupeCloses x (rootBlocked s.c) else s
    | none => s))

end Sys2Proof.Machine
end

