-- ==== Sys2Proof/Machine/ErrorRows.lean ====
section
/-! DEFINITION. The meanings of the commands of errors and disabling: one definition per row of the table. -/

namespace Sys2Proof.Machine

open Sys2Proof

/-- MEMORY_ERROR. -/
def execMemoryError (x : SideId) (loc : MemLoc) (correctable : Bool) (s : State) : Host.Outcome State Fault Refusal :=
  .next (fin (memoryError s x loc correctable))

/-- LOSS_MARKER_PUSH. -/
def execLossMarkerPush (x : SideId) (s : State) : Host.Outcome State Fault Refusal :=
  .next (fin (if sideRun s x then s.upd x fun d => d.lossPush s.c.lt else s))

/-- UNIT_DISABLE (R457, R458): CTRL.ENABLE cleared, EXPERT as it stands. -/
def execUnitDisable (r : Requester) (page : Nat) (s : State) : Host.Outcome State Fault Refusal :=
  .next (fin (pageWrite s r page Reg.HDR_CTRL (shownBy s r page Reg.HDR_CTRL &&& 2)))

/-- DISABLE_COMPLETE. -/
def execDisableComplete (page : Nat) (s : State) : Host.Outcome State Fault Refusal := .next (fin (disableDone s page))

/-- UNIT_ENABLE (R460): CTRL.ENABLE set, EXPERT as it stands. -/
def execUnitEnable (r : Requester) (page : Nat) (s : State) : Host.Outcome State Fault Refusal :=
  .next (fin (pageWrite s r page Reg.HDR_CTRL (shownBy s r page Reg.HDR_CTRL &&& 2 ||| 1)))

/-- STALL. -/
def execStall (x : SideId) (strand : Nat) (s : State) : Host.Outcome State Fault Refusal :=
  .next (fin (if sideRun s x then stallSeen s x strand else s))

end Sys2Proof.Machine
end

