-- ==== Sys2Proof/Machine/HostRows.lean ====
section
/-! DEFINITION. The meanings of the commands of events and host ports: one definition per row of the table. -/

namespace Sys2Proof.Machine

open Sys2Proof

/-- REARM (R483, R484): REARM_A or REARM_B. -/
def execRearm (r : Requester) (second : Bool) (src : Nat) (s : State) : Host.Outcome State Fault Refusal :=
  .next (fin (pageWrite s r Pg.CEVT (if second then Reg.CEVT_REARM_B else Reg.CEVT_REARM_A) (w32 src)))

/-- MOD_INTERVAL_END. -/
def execModIntervalEnd (second : Bool) (vec : Nat) (s : State) : Host.Outcome State Fault Refusal :=
  .next (fin (s.updC fun c => modEnd c second vec))

/-- MSIX_UNMASK. -/
def execMsixUnmask (second : Bool) (vec : Nat) (s : State) : Host.Outcome State Fault Refusal :=
  .next (fin (if second && !s.variant.full then s else s.updC fun c => unmask c second vec))

/-- HOST_PORT_RESET. -/
def execHostPortReset (second : Bool) (kind : PortReset) (s : State) : Host.Outcome State Fault Refusal :=
  .next (fin (if second && !s.variant.full then s else hostPortReset s second kind))

/-- CHAIN_WRITE (R500, R501). -/
def execChainWrite (frame : List Byte) (s : State) : Host.Outcome State Fault Refusal :=
  .next (fin (chainTake s 0 frame fun s => access s .chain (chainOff frame) (w32 (beNat (slice frame 4 4))) 15))

/-- CHAIN_READ (R500, R501). -/
def execChainRead (frame : List Byte) (s : State) : Host.Outcome State Fault Refusal :=
  .next (fin (chainTake s 1 frame fun s => chainReads s frame))

/-- FETCH. -/
def execFetch (frame : List Byte) (s : State) : Host.Outcome State Fault Refusal :=
  .next (fin (chainTake s 2 frame chainFetch))

/-- SET_ADDRESS, with the level of CHN_ENI. -/
def execSetAddress (frame : List Byte) (eni : Bool) (s : State) : Host.Outcome State Fault Refusal :=
  let s1 := s.updC fun c => { c with chain := { c.chain with eni := eni } }
  .next (fin (chainTake s1 3 frame fun s => setAddress s frame))

/-- CLR_ADDR (R503). -/
def execClrAddr (r : Requester) (s : State) : Host.Outcome State Fault Refusal :=
  .next (fin (pageWrite s r Pg.CHAIN Reg.CHAIN_CMD 1))

/-- WIN_DATA (R504): a write with a value, a read without. -/
def execWinData (r : Requester) (write : Option Word) (s : State) : Host.Outcome State Fault Refusal :=
  .next (fin (match write with
    | some v => pageWrite s r Pg.CHAIN Reg.CHAIN_WIN_DATA v
    | none => accessRead s r (regAddr r Pg.CHAIN Reg.CHAIN_WIN_DATA)))

/-- ETH_FRAME_RX. -/
def execEthFrameRx (second : Bool) (frame : List Byte) (fcsOk : Bool) (ts : Nat) (s : State) : Host.Outcome State Fault Refusal :=
  .next (fin (ethRx s second frame fcsOk ts))

/-- VID_MAP_WRITE (R507). -/
def execVidMapWrite (r : Requester) (second : Bool) (v : Word) (s : State) : Host.Outcome State Fault Refusal :=
  .next (fin (pageWrite s r (ethPage second) Reg.ETH_VID_MAP v))

/-- HBOOT_DATA (R561). -/
def execHbootData (r : Requester) (v : Word) (s : State) : Host.Outcome State Fault Refusal :=
  .next (fin (pageWrite s r Pg.RST Reg.RST_HBOOT_DATA v))

/-- HBOOT_GO (R561). -/
def execHbootGo (r : Requester) (s : State) : Host.Outcome State Fault Refusal :=
  .next (fin (pageWrite s r Pg.RST Reg.RST_HBOOT_GO 1))

end Sys2Proof.Machine
end

