-- ==== Sys2Proof/Machine/ImageRows.lean ====
section
/-! DEFINITION. The meanings of the commands of images: one definition per row of the table. -/

namespace Sys2Proof.Machine

open Sys2Proof

/-- FW_WRITE (R359). -/
def execFwWrite (x : SideId) (strand : Nat) (s : State) : Host.Outcome State Fault Refusal :=
  .next (fin (imageCmd s x strand 32 Side.cmdFwWrite))

/-- FW_COMMIT (R359). -/
def execFwCommit (x : SideId) (strand : Nat) (s : State) : Host.Outcome State Fault Refusal :=
  .next (fin (imageCmd s x strand 33 Side.cmdFwCommit))

/-- FW_UPDATE (R361, R365). -/
def execFwUpdate (x : SideId) (strand : Nat) (s : State) : Host.Outcome State Fault Refusal :=
  .next (fin ((imageCmd s x strand 34 fun d _ => d.cmdFwUpdate s.variant.full (single s)).upd x ((s.side x).asksUpdate)))

/-- FWU_SWAP (R361). -/
def execFwuSwap (s : State) : Host.Outcome State Fault Refusal := .next (fin (updateSwap s))

/-- FW_CONFIRM (R360). -/
def execFwConfirm (x : SideId) (strand : Nat) (s : State) : Host.Outcome State Fault Refusal :=
  .next (fin (imageCmd s x strand 35 fun d _ => d.cmdFwConfirm))

/-- TRIAL_EXPIRED (R364). -/
def execTrialExpired (x : SideId) (s : State) : Host.Outcome State Fault Refusal :=
  .next (fin (if sideRun s x then s.upd x Side.trialEnd else s))

/-- SLOT_VERIFY_DONE (R357). -/
def execSlotVerifyDone (x : SideId) (s : State) : Host.Outcome State Fault Refusal :=
  .next (fin (if sideRun s x then s.upd x Side.slotVerify else s))

/-- IMG_WRITE (R366). -/
def execImgWrite (x : SideId) (strand : Nat) (s : State) : Host.Outcome State Fault Refusal :=
  .next (fin (imageCmd s x strand 40 Side.cmdImgWrite))

/-- IMG_COMMIT (R366). -/
def execImgCommit (x : SideId) (strand : Nat) (s : State) : Host.Outcome State Fault Refusal :=
  .next (fin (imageCmd s x strand 41 Side.cmdImgCommit))

/-- IMG_ERASE (R366). -/
def execImgErase (x : SideId) (strand : Nat) (s : State) : Host.Outcome State Fault Refusal :=
  .next (fin (imageCmd s x strand 42 Side.cmdImgErase))

/-- IMG_READ (R366). -/
def execImgRead (x : SideId) (strand : Nat) (s : State) : Host.Outcome State Fault Refusal :=
  .next (fin (imageCmd s x strand 43 Side.cmdImgRead))

/-- IBE_START (R368); with the IBE disabled it answers with the refusal status of its unit (R458). -/
def execIbeStart (x : SideId) (strand : Nat) (s : State) : Host.Outcome State Fault Refusal :=
  .next (fin (imageCmd s x strand 44 fun d a =>
    if unitOn d.view.regs Pg.IBE then Side.cmdIbeStart s.variant.full d.view.ibe.phase d a
    else (Config.refusalStatus, [], d)))

/-- IBE_STOP (R372). -/
def execIbeStop (x : SideId) (strand : Nat) (s : State) : Host.Outcome State Fault Refusal :=
  .next (fin (imageCmd s x strand 45 (Side.cmdIbeStop s.variant.full s.c.lt)))

/-- IBE_LOAD_DONE (R368). -/
def execIbeLoadDone (s : State) : Host.Outcome State Fault Refusal := .next (fin (if ibeRun s then ibeLoaded s else s))

/-- SYM_NEXT (R369, R370, R372): a request that reaches the IBE. -/
def execSymNext (s : State) : Host.Outcome State Fault Refusal := .next (fin (if ibeRun s then symServe s else s))

/-- REPORT_ADD (R371): a side's write that reaches the IBE. -/
def execReportAdd (_v : Word) (s : State) : Host.Outcome State Fault Refusal :=
  .next (fin (if ibeRun s then reportAdd s else s))

/-- IBE_STOP_LT (R372). -/
def execIbeStopLt (s : State) : Host.Outcome State Fault Refusal := .next (fin (if ibeRun s then ibeStopDue s else s))

end Sys2Proof.Machine
end

