-- ==== Sys2Proof/Machine/KeyRows.lean ====
section
/-! DEFINITION. The meanings of the commands of keys: one definition per row of the table. -/

namespace Sys2Proof.Machine

open Sys2Proof

/-- ENROL (R257). -/
def execEnrol (r : Requester) (s : State) : Host.Outcome State Fault Refusal :=
  .next (fin (pageWrite s r Pg.LOCKET Reg.LOCKET_ENROL 1))

/-- REMASK_PASS (R269). -/
def execRemaskPass (x : SideId) (s : State) : Host.Outcome State Fault Refusal :=
  .next (fin (if sideRun s x then s.upd x fun d => d.remaskPass else s))

/-- DERIVATION_COMPLETE (R272, R273, R276). -/
def execDerivationComplete (x : SideId) (s : State) : Host.Outcome State Fault Refusal :=
  .next (fin (if sideRun s x then s.upd x fun d => d.derived s.variant d.view s.c.lt else s))

/-- TEN_MAP_WRITE (R275). -/
def execTenMapWrite (r : Requester) (v : Word) (s : State) : Host.Outcome State Fault Refusal :=
  .next (fin (pageWrite s r Pg.FILIG Reg.FILIG_TEN_MAP v))

/-- KEY_INFO (R279). -/
def execKeyInfo (x : SideId) (strand : Nat) (s : State) : Host.Outcome State Fault Refusal :=
  .next (fin (keyCmd s x strand 16 Side.cmdKeyInfo))

/-- KEY_INVALIDATE (R275, R279). -/
def execKeyInvalidate (x : SideId) (strand : Nat) (s : State) : Host.Outcome State Fault Refusal :=
  .next (fin (keyCmd s x strand 17 Side.cmdKeyInvalidate))

/-- TEN_INVALIDATE (R275, R279). -/
def execTenInvalidate (x : SideId) (strand : Nat) (s : State) : Host.Outcome State Fault Refusal :=
  .next (fin (keyCmd s x strand 18 Side.cmdTenInvalidate))

/-- NODE_INVALIDATE (R279). -/
def execNodeInvalidate (x : SideId) (strand : Nat) (s : State) : Host.Outcome State Fault Refusal :=
  .next (fin (keyCmd s x strand 19 Side.cmdNodeInvalidate))

/-- CACHE_FLUSH (R279). -/
def execCacheFlush (x : SideId) (strand : Nat) (s : State) : Host.Outcome State Fault Refusal :=
  .next (fin (keyCmd s x strand 20 fun d _ => d.cmdCacheFlush))

/-- KEY_EXPORT (R279). -/
def execKeyExport (x : SideId) (strand : Nat) (s : State) : Host.Outcome State Fault Refusal :=
  .next (fin (keyCmd s x strand 21 Side.cmdKeyExport))

/-- KEY_UPDATE (R301 to R303). It is counted with the other key commands. -/
def execKeyUpdate (x : SideId) (strand : Nat) (s : State) : Host.Outcome State Fault Refusal :=
  .next (fin (keyCmd s x strand 22 Side.cmdKeyUpdate))

end Sys2Proof.Machine
end

