-- ==== Sys2Proof/Machine/RadioRows.lean ====
section
/-! DEFINITION. The meanings of the commands of radio ports: one definition per row of the table. -/

namespace Sys2Proof.Machine

open Sys2Proof

/-- A meaning of a unit of a port: it acts while the port runs, and the events follow. -/
def onPort (s : State) (p : RPort) (f : State → State) : State := if portRun s p then fin (f s) else s

/-- LO_FREQ_WRITE (R79). -/
def execLoFreqWrite (r : Requester) (p : RPort) (v : Word) (s : State) : Host.Outcome State Fault Refusal :=
  .next (fin (pageWrite s r p.rfPage Reg.RF_LO_FREQ v))

/-- RETUNE_START (R80, R88). -/
def execRetuneStart (p : RPort) (s : State) : Host.Outcome State Fault Refusal :=
  .next (onPort s p fun s => retuneBegin s p)

/-- RETUNE_END (R80). -/
def execRetuneEnd (p : RPort) (s : State) : Host.Outcome State Fault Refusal :=
  .next (onPort s p fun s => retuneFinish s p)

/-- CH_WRITE (R82 to R87). -/
def execChWrite (r : Requester) (p : RPort) (s : State) : Host.Outcome State Fault Refusal :=
  .next (fin (pageWrite s r p.chzPage Reg.CHZ_CH_CMD 2))

/-- CH_READ (R84). -/
def execChRead (r : Requester) (p : RPort) (s : State) : Host.Outcome State Fault Refusal :=
  .next (fin (pageWrite s r p.chzPage Reg.CHZ_CH_CMD 1))

/-- LAUNCH_ARRIVAL (R95 steps 1 and 2). While the port's domain quiesces, launches wait (R522). -/
def execLaunchArrival (p : RPort) (n : Nat) (s : State) : Host.Outcome State Fault Refusal :=
  .next (if s.c.pd.leaving (portDomain p) then s
    else if commonsUp s && s.variant.hasPort p && decide (s.c.pd.dom (portDomain p) ≠ .on) then fin (launchDark s p n)
    else onPort s p fun s => launchArrive s p n)

/-- CARRIER_FREE (R94). -/
def execCarrierFree (p : RPort) (n : Nat) (s : State) : Host.Outcome State Fault Refusal :=
  .next (onPort s p fun s => carrierFrees s p n)

/-- LAUNCH_CHECK_DUE (R95 step 3). -/
def execLaunchCheckDue (p : RPort) (n : Nat) (s : State) : Host.Outcome State Fault Refusal :=
  .next (onPort s p fun s => launchCheck s p n)

/-- LBT_LISTEN (R95 step 4, R121). -/
def execLbtListen (p : RPort) (n rssi : Nat) (s : State) : Host.Outcome State Fault Refusal :=
  .next (onPort s p fun s => listen s p n rssi)

/-- LBT_DEFER_EXPIRY (R95 step 4). -/
def execLbtDeferExpiry (p : RPort) (n : Nat) (s : State) : Host.Outcome State Fault Refusal :=
  .next (onPort s p fun s => deferExpire s p n)

/-- FE_LINE_EDGE (R110). -/
def execFeLineEdge (n : Nat) (s : State) : Host.Outcome State Fault Refusal :=
  .next (if commonsUp s then fin (s.updC fun c => feEdge c n) else s)

/-- BLANKING_START (R102). -/
def execBlankingStart (p : RPort) (n : Nat) (s : State) : Host.Outcome State Fault Refusal :=
  .next (onPort s p fun s => blankStart s p n)

/-- BURST_START (R95 step 7). -/
def execBurstStart (p : RPort) (n : Nat) (s : State) : Host.Outcome State Fault Refusal :=
  .next (onPort s p fun s => burstBegin s p n)

/-- BURST_END (R95 step 9). -/
def execBurstEnd (p : RPort) (n : Nat) (s : State) : Host.Outcome State Fault Refusal :=
  .next (onPort s p fun s => burstFinish s p n)

/-- BLANKING_END (R102). -/
def execBlankingEnd (p : RPort) (n : Nat) (s : State) : Host.Outcome State Fault Refusal :=
  .next (onPort s p fun s => blankFinish s p n)

/-- ACK_BURST_START (R166). -/
def execAckBurstStart (p : RPort) (n : Nat) (s : State) : Host.Outcome State Fault Refusal :=
  .next (onPort s p fun s => ackBegin s p n)

/-- ACK_BURST_END (R168). -/
def execAckBurstEnd (p : RPort) (n : Nat) (s : State) : Host.Outcome State Fault Refusal :=
  .next (onPort s p fun s => ackFinish s p n)

/-- FE_CFG_APPLY (R111). -/
def execFeCfgApply (n : Nat) (s : State) : Host.Outcome State Fault Refusal :=
  .next (if commonsUp s then fin (s.updC fun c => feApply c n) else s)

/-- STARTUP_CAL_DONE (R113). -/
def execStartupCalDone (p : RPort) (converged : Bool) (s : State) : Host.Outcome State Fault Refusal :=
  .next (onPort s p fun s => calFinish s p converged)

/-- CAL_NOTICE (R115). -/
def execCalNotice (p : RPort) (s : State) : Host.Outcome State Fault Refusal :=
  .next (onPort s p fun s => calWarn s p)

/-- GAP_NOW (R114). -/
def execGapNow (r : Requester) (p : RPort) (s : State) : Host.Outcome State Fault Refusal :=
  .next (fin (pageWrite s r p.rfPage Reg.RF_CAL_CMD 1))

/-- CAL_GAP_START (R114). -/
def execCalGapStart (p : RPort) (s : State) : Host.Outcome State Fault Refusal :=
  .next (onPort s p fun s => gapBegin s p)

/-- CAL_GAP_END (R115). -/
def execCalGapEnd (p : RPort) (cancOk : Bool) (s : State) : Host.Outcome State Fault Refusal :=
  .next (onPort s p fun s => gapFinish s p cancOk)

/-- DUTY_BUCKET_BOUNDARY (R117). -/
def execDutyBucketBoundary (s : State) : Host.Outcome State Fault Refusal :=
  .next (if commonsUp s then fin (s.updC bucketStep) else s)

/-- DWELL_SUBBUCKET_BOUNDARY (R120). -/
def execDwellSubbucketBoundary (p : RPort) (s : State) : Host.Outcome State Fault Refusal :=
  .next (onPort s p fun s => s.updC fun c => dwellStep c p)

/-- PORT_CFG_WRITE (R113, R144). -/
def execPortCfgWrite (r : Requester) (p : RPort) (v : Word) (s : State) : Host.Outcome State Fault Refusal :=
  .next (fin (pageWrite s r p.rfPage Reg.RF_PORT_CFG v))

end Sys2Proof.Machine
end

