-- ==== Sys2Proof/Machine/LaneRows.lean ====
section
/-! DEFINITION. The meanings of the commands of lanes: one definition per row of the table. -/

namespace Sys2Proof.Machine

open Sys2Proof

/-- DETECTION (R130, R132, R134, R136). -/
def execDetection (p : RPort) (ch mode freq quality power : Nat) (s : State) : Host.Outcome State Fault Refusal :=
  .next (onPort s p fun s => s.updC fun c => detect c p ch mode freq quality power)

/-- MERGE_WINDOW_CLOSE (R132 to R142). -/
def execMergeWindowClose (p : RPort) (s : State) : Host.Outcome State Fault Refusal :=
  .next (onPort s p fun s => s.updC fun c => mergeClose c p)

/-- SFD_FOUND (R131). -/
def execSfdFound (p : RPort) (lane lt : Nat) (s : State) : Host.Outcome State Fault Refusal :=
  .next (onPort s p fun s => s.updC fun c => sfdFound c p lane lt)

/-- SFD_TIMEOUT (R137). -/
def execSfdTimeout (p : RPort) (lane : Nat) (s : State) : Host.Outcome State Fault Refusal :=
  .next (onPort s p fun s => s.updC fun c => sfdExpire c p lane)

/-- PHR_RECEIVED (R128). -/
def execPhrReceived (p : RPort) (lane : Nat) (phr : PhrData) (s : State) : Host.Outcome State Fault Refusal :=
  .next (onPort s p fun s => phrDecode s p lane phr)

/-- SYNC_LOST (R607). -/
def execSyncLost (p : RPort) (lane : Nat) (s : State) : Host.Outcome State Fault Refusal :=
  .next (onPort s p fun s => s.updC fun c => loseSync c p lane)

/-- FCS_DECISION (R146). -/
def execFcsDecision (p : RPort) (lane : Nat) (rx : RxEnd) (s : State) : Host.Outcome State Fault Refusal :=
  .next (onPort s p fun s => fcsDecisionCore s p lane rx)

/-- CH_LANES_WRITE (R143). -/
def execChLanesWrite (r : Requester) (p : RPort) (v : Word) (s : State) : Host.Outcome State Fault Refusal :=
  .next (fin (pageWrite s r p.facetPage Reg.FACET_CH_LANES v))

/-- PORT_LIMIT_WRITE (R143). -/
def execPortLimitWrite (r : Requester) (p : RPort) (v : Word) (s : State) : Host.Outcome State Fault Refusal :=
  .next (fin (pageWrite s r p.facetPage Reg.FACET_PORT_LIMIT v))

end Sys2Proof.Machine
end

