-- ==== Sys2Proof/Machine/LeaseRows.lean ====
section
/-! DEFINITION. The meanings of the commands of the lease, Bezel and refills: one definition per row of the table. -/

namespace Sys2Proof.Machine

open Sys2Proof

/-- SREADY (R419, R433, R558, R559). -/
def execSready (x : SideId) (s : State) : Host.Outcome State Fault Refusal :=
  .next (fin (if coresRun s x then sideReady s x else s))

/-- GRANT_WAIT_EXPIRY (R419). -/
def execGrantWaitExpiry (s : State) : Host.Outcome State Fault Refusal := .next (fin (grantWaitOver s))

/-- RENEW (R420). -/
def execRenew (v : Word) (s : State) : Host.Outcome State Fault Refusal := .next (fin (renewPassed s v))

/-- LEASE_EXPIRY (R418, R421). -/
def execLeaseExpiry (s : State) : Host.Outcome State Fault Refusal := .next (fin (leaseExpire (voteReplicas s)))

/-- CLASP_SWAP (R423, R424). -/
def execClaspSwap (r : Requester) (s : State) : Host.Outcome State Fault Refusal :=
  .next (fin (pageWrite s r Pg.CLASP Reg.CLASP_CMD 1))

/-- SWAP_MARKER (R423). -/
def execSwapMarker (s : State) : Host.Outcome State Fault Refusal := .next (fin (swapMark s))

/-- SELF_CHECK_REPORT (R428, R429). -/
def execSelfCheckReport (x : SideId) (res : SelfCheck) (s : State) : Host.Outcome State Fault Refusal :=
  .next (fin (selfCheckReport s x res))

/-- SELF_CHECK_TIMEOUT (R428, R429). -/
def execSelfCheckTimeout (x : SideId) (s : State) : Host.Outcome State Fault Refusal := .next (fin (selfCheckTimeout s x))

/-- OUT_X (R432): OUT_A or OUT_B. -/
def execOutX (r : Requester) (x : SideId) (s : State) : Host.Outcome State Fault Refusal :=
  .next (fin (pageWrite s r Pg.BEZEL Reg.BEZEL_CMD (if x = .a then 1 else 2)))

/-- IN_X (R432): IN_A or IN_B. -/
def execInX (r : Requester) (x : SideId) (s : State) : Host.Outcome State Fault Refusal :=
  .next (fin (pageWrite s r Pg.BEZEL Reg.BEZEL_CMD (if x = .a then 4 else 8)))

/-- RECOVER (R428). -/
def execRecover (r : Requester) (s : State) : Host.Outcome State Fault Refusal :=
  .next (fin (pageWrite s r Pg.BEZEL Reg.BEZEL_CMD 16))

/-- PATH_CLR (R425). -/
def execPathClr (r : Requester) (s : State) : Host.Outcome State Fault Refusal :=
  .next (fin (pageWrite s r Pg.BEZEL Reg.BEZEL_CMD 32))

/-- TRANSFER_MARKER (R433). -/
def execTransferMarker (s : State) : Host.Outcome State Fault Refusal := .next (fin (sequenceTransfer s))

/-- REFILL_COPY_DONE (R433). -/
def execRefillCopyDone (s : State) : Host.Outcome State Fault Refusal := .next (fin (copyDone s))

/-- JOIN (R433). -/
def execJoin (s : State) : Host.Outcome State Fault Refusal := .next (fin (sequenceJoin s))

/-- REFILL_RETRY (R434). -/
def execRefillRetry (s : State) : Host.Outcome State Fault Refusal := .next (fin (retryRefill s))

/-- DRILL_START (R436). -/
def execDrillStart (s : State) : Host.Outcome State Fault Refusal := .next (fin (drillBegin s))

/-- DRILL_DWELL_END (R436). -/
def execDrillDwellEnd (s : State) : Host.Outcome State Fault Refusal := .next (fin (drillBack s))

end Sys2Proof.Machine
end

