-- ==== Sys2Proof/Machine/PendRows.lean ====
section
/-! DEFINITION. The meanings of the commands of the pending list, the uplink and the pending pool: one definition per row of the table. -/

namespace Sys2Proof.Machine

open Sys2Proof

/-- PENDING_LIST_SET (R29, R173). -/
def execPendingListSet (s : State) : Host.Outcome State Fault Refusal :=
  .next (if commonsUp s then fin (plUpdate s fun op => match op with
    | .set _ _ => true
    | _ => false) else s)

/-- PENDING_LIST_CLEAR (R29, R173). -/
def execPendingListClear (s : State) : Host.Outcome State Fault Refusal :=
  .next (if commonsUp s then fin (plUpdate s fun op => match op with
    | .clear _ _ => true
    | _ => false) else s)

/-- PENDING_LIST_CLEAR_ALL (R29, R173). -/
def execPendingListClearAll (s : State) : Host.Outcome State Fault Refusal :=
  .next (if commonsUp s then fin (plUpdate s fun op => match op with
    | .clearAll => true
    | _ => false) else s)

/-- PENDING_LIST_QUERY (R176): PL_QCMD. -/
def execPendingListQuery (r : Requester) (v : Word) (s : State) : Host.Outcome State Fault Refusal :=
  .next (fin (pageWrite s r Pg.AIR Reg.AIR_PL_QCMD v))

/-- PENDING_UPDATE_COMPLETION (R173, R180). -/
def execPendingUpdateCompletion (x : SideId) (s : State) : Host.Outcome State Fault Refusal :=
  .next (fin (match nextInput s x with
    | some i => match i.inp with
      | .plDone op st => s.upd x fun d => (d.consume i).plDone op st
      | _ => s
    | none => s))

/-- RX_FRAME_CONSUME (R163, R198 to R205). -/
def execRxFrameConsume (x : SideId) (s : State) : Host.Outcome State Fault Refusal :=
  .next (fin (match nextInput s x with
    | some i => match i.inp with
      | .rxFrame f => s.upd x fun d => let e := d.consume i; e.rxFrame s.variant e.view s.c.lt i f
      | _ => s
    | none => s))

/-- ACK_WAIT_EXPIRY (R187, R188, R349). -/
def execAckWaitExpiry (x : SideId) (s : State) : Host.Outcome State Fault Refusal :=
  .next (fin (if sideRun s x then s.upd x fun d => d.ackExpiry d.view s.c.lt else s))

/-- SCHEDULED_WINDOW (R189, R190). -/
def execScheduledWindow (x : SideId) (s : State) : Host.Outcome State Fault Refusal :=
  .next (fin (if sideRun s x then s.upd x fun d => d.scheduled d.view else s))

/-- PARKED_FRAME_EXPIRY (R181). -/
def execParkedFrameExpiry (x : SideId) (s : State) : Host.Outcome State Fault Refusal :=
  .next (fin (if sideRun s x then s.upd x fun d => d.expireParked s.c.lt else s))

/-- PENDING_SET_RETRY (R180). -/
def execPendingSetRetry (x : SideId) (s : State) : Host.Outcome State Fault Refusal :=
  .next (fin (if sideRun s x then s.upd x fun d => d.retrySets else s))

/-- WIN_READ (R195). -/
def execWinRead (r : Requester) (s : State) : Host.Outcome State Fault Refusal :=
  .next (fin (pageWrite s r Pg.PEND Reg.PEND_WIN_CMD 1))

/-- WIN_WRITE (R195). -/
def execWinWrite (r : Requester) (s : State) : Host.Outcome State Fault Refusal :=
  .next (fin (pageWrite s r Pg.PEND Reg.PEND_WIN_CMD 2))

/-- WIN_DELETE (R195). -/
def execWinDelete (r : Requester) (s : State) : Host.Outcome State Fault Refusal :=
  .next (fin (pageWrite s r Pg.PEND Reg.PEND_WIN_CMD 4))

/-- RELAY_DECISION (R210, R211). -/
def execRelayDecision (x : SideId) (s : State) : Host.Outcome State Fault Refusal :=
  .next (fin (if sideRun s x then s.upd x fun d => d.decideRelays s.variant d.view s.c.lt else s))

/-- REASSEMBLY_TIMEOUT (R223). -/
def execReassemblyTimeout (x : SideId) (s : State) : Host.Outcome State Fault Refusal :=
  .next (fin (if sideRun s x then s.upd x fun d => d.reasmTimeouts else s))

/-- SKIM_SWEEP (chapter 6, "Skim"). -/
def execSkimSweep (x : SideId) (s : State) : Host.Outcome State Fault Refusal :=
  .next (fin (if sideRun s x then s.upd x fun d => d.skimSweep else s))

/-- CTX_READ (R219). -/
def execCtxRead (r : Requester) (s : State) : Host.Outcome State Fault Refusal :=
  .next (fin (pageWrite s r Pg.LOWPAN Reg.LOWPAN_CTX_CMD 1))

/-- CTX_WRITE (R219). -/
def execCtxWrite (r : Requester) (s : State) : Host.Outcome State Fault Refusal :=
  .next (fin (pageWrite s r Pg.LOWPAN Reg.LOWPAN_CTX_CMD 2))

end Sys2Proof.Machine
end

