-- ==== Sys2Proof/Machine/PowerRows.lean ====
section
/-! DEFINITION. The meanings of the commands of power domains, wake and PMBus: one definition per row of the table. -/

namespace Sys2Proof.Machine

open Sys2Proof

/-- PD_REQUEST (R518): PD.REQ_CMD. -/
def execPdRequest (r : Requester) (v : Word) (s : State) : Host.Outcome State Fault Refusal :=
  .next (fin (pageWrite s r Pg.PD Reg.PD_REQ_CMD v))

/-- QUIESCE_DONE. -/
def execQuiesceDone (s : State) : Host.Outcome State Fault Refusal := .next (fin (quiesceDone s))

/-- QUIESCE_TIMEOUT. -/
def execQuiesceTimeout (s : State) : Host.Outcome State Fault Refusal := .next (fin (quiesceTimeout s))

/-- PMB_ACK. -/
def execPmbAck (status : Nat) (s : State) : Host.Outcome State Fault Refusal := .next (fin (pmbAck s status))

/-- PMB_TIMEOUT. -/
def execPmbTimeout (s : State) : Host.Outcome State Fault Refusal := .next (fin (pmbTimeout s))

/-- RETENTION_SCAN_DONE. -/
def execRetentionScanDone (x : SideId) (lostBanks : Nat) (locketLost : Bool) (corrected : Nat) (s : State) :
    Host.Outcome State Fault Refusal := .next (fin (scanDone s x lostBanks locketLost corrected))

/-- WAKE: source n has its event; its SRCn_CFG selects one (R533). -/
def execWake (n : Nat) (s : State) : Host.Outcome State Fault Refusal :=
  let v := rd s.c.regs Pg.WAKE (Reg.WAKE_SRC_CFG + 4 * n)
  .next (fin (if 8 ≤ n ∨ fld v 1 0 = 0 ∨ !unitOn s.c.regs Pg.WAKE then s else wakeFor s n (fld v 18 16)))

/-- WAKE_I2C_MATCH: an address on the bus; a match is acknowledged, counted, and starts the AON fast oscillator (R535, R536). -/
def execWakeI2cMatch (addr : Nat) (s : State) : Host.Outcome State Fault Refusal :=
  .next (fin (if wakeI2c s.c && decide (addr = wakeAddr s.c) then
    (s.bumpC Pg.WAKE Reg.WAKE_I2C_MATCH).updPd fun p => { p with i2cStretch := true, i2cPtr := 0 } else s))

/-- WAKE_GO: a write of the target's WAKE register (R537). -/
def execWakeGo (v : Nat) (s : State) : Host.Outcome State Fault Refusal :=
  .next (fin (if wakeI2c s.c && s.c.pd.i2cStretch then
    let s1 := s.updPd fun p => { p with i2cPtr := 3 }
    if nbit v 7 then wakeFor s1 8 (v % 8) else s1 else s))

/-- INT_CLR: a write of the target's INT_CLR register clears bits of STATUS, which are those of WAKE.STAT (R537). -/
def execIntClr (v : Nat) (s : State) : Host.Outcome State Fault Refusal :=
  .next (fin (if wakeI2c s.c && s.c.pd.i2cStretch then (s.updPd fun p => { p with i2cPtr := 4 }).updC fun c => c.updR fun t =>
    wr t Pg.WAKE Reg.WAKE_STAT ((rd t Pg.WAKE Reg.WAKE_STAT) &&& ~~~(c.clears Pg.WAKE Reg.WAKE_STAT (w32 (v % 8)))) else s))

/-- RAW_CMD (R542): RAW_CMD of a PMBus page. -/
def execRawCmd (r : Requester) (page : Nat) (v : Word) (s : State) : Host.Outcome State Fault Refusal :=
  .next (fin (pageWrite s r page Reg.PMB_RAW_CMD v))

/-- PMB_ALERT: a fall of a port's ALERT_N (R543). -/
def execPmbAlert (page : Nat) (s : State) : Host.Outcome State Fault Refusal :=
  .next (fin (match pmbOwner s.variant page with
    | some o =>
      let s1 := s.updPmbRegs o fun t pg => bump t pg Reg.PMB_ALERTS
      if o = 0 then s1.event Pg.PMB 0 else s1.updPmbRegs o fun t pg => setEvt t pg 0
    | none => s))

end Sys2Proof.Machine
end

