-- ==== Sys2Proof/Machine/RegRows.lean ====
section
/-! DEFINITION. The meanings of the commands of registers, sequencer and outputs: one definition per row of the table. -/

namespace Sys2Proof.Machine

open Sys2Proof

/-- REGISTER_WRITE (R6, R22, R468 to R477): any register, at an address of the requester. -/
def execRegisterWrite (r : Requester) (off : Nat) (v : Word) (be : Nat) (s : State) : Host.Outcome State Fault Refusal :=
  .next (fin (access s r off v be))

/-- SIDE_RANGE_WRITE (R22): a write through a side A or side B range. -/
def execSideRangeWrite (r : Requester) (off : Nat) (v : Word) (be : Nat) (s : State) : Host.Outcome State Fault Refusal :=
  .next (fin (match bar0 off with
    | .side _ _ _ => access s r off v be
    | _ => s))

/-- PAIRED_WINDOW_WRITE (R16, R22): a write through the paired window, or a core's to its own pages. -/
def execPairedWindowWrite (r : Requester) (off : Nat) (v : Word) (be : Nat) (s : State) : Host.Outcome State Fault Refusal :=
  .next (fin (access s r off v be))

/-- PAIRED_WINDOW_READ (R19, R426, R492): any read of a register. -/
def execPairedWindowRead (r : Requester) (off : Nat) (s : State) : Host.Outcome State Fault Refusal :=
  .next (fin (accessRead s r off))

/-- CNT_CLR (R122, R352, R439 and the like). -/
def execCntClr (r : Requester) (page : Nat) (s : State) : Host.Outcome State Fault Refusal :=
  .next (fin (pageWrite s r page (cntClrOff page) 1))

/-- LOCK_WRITE (R471). -/
def execLockWrite (r : Requester) (page : Nat) (v : Word) (s : State) : Host.Outcome State Fault Refusal :=
  .next (fin (pageWrite s r page Reg.HDR_LOCK v))

/-- ERR_STICKY_CLEAR (R446). -/
def execErrStickyClear (r : Requester) (page : Nat) (v : Word) (s : State) : Host.Outcome State Fault Refusal :=
  .next (fin (pageWrite s r page Reg.HDR_ERR_STICKY v))

/-- ERR_MASK_WRITE (R447). -/
def execErrMaskWrite (r : Requester) (page : Nat) (v : Word) (s : State) : Host.Outcome State Fault Refusal :=
  .next (fin (pageWrite s r page Reg.HDR_ERR_MASK v))

/-- INPUT_SEQUENCED (R15, R20, R21, R434). -/
def execInputSequenced (src : InputSource) (s : State) : Host.Outcome State Fault Refusal := .next (fin (sequenceNext s src))

/-- TIME_INPUT (R17, R42). -/
def execTimeInput (lt : Nat) (s : State) : Host.Outcome State Fault Refusal := .next (fin (timeInputCore s lt))

/-- SIDE_TIME_INPUT (R17, R61, R62, R231, R232). -/
def execSideTimeInput (x : SideId) (s : State) : Host.Outcome State Fault Refusal :=
  .next (fin (match nextInput s x with
    | some i => match i.inp with
      | .time step acq rebase => s.upd x fun d => let e := d.consume i; e.timeInput s.variant e.view s.c.lt step acq rebase
      | _ => s
    | none => s))

/-- TRNG_WORD (R18, R603). -/
def execTrngWord (w : Word64) (s : State) : Host.Outcome State Fault Refusal :=
  .next (fin (if unitsRun s then trngOffered s w else s))

/-- OUTPUT_OFFER (R19, R24 to R28, R422, R425, R427, R558). -/
def execOutputOffer (x : SideId) (txn : Option CoreTxn) (readbackOk : Bool) (s : State) : Host.Outcome State Fault Refusal :=
  .next (fin (offerOutput s x txn readbackOk))

/-- SKEW_TIMEOUT (R23, R427). -/
def execSkewTimeout (s : State) : Host.Outcome State Fault Refusal := .next (fin (skewTimeout s))

/-- SIDE_COMMONS_EVENT (R479, R480). -/
def execSideCommonsEvent (x : SideId) (s : State) : Host.Outcome State Fault Refusal := .next (fin (commonsEvent s x))

end Sys2Proof.Machine
end

