-- ==== Sys2Proof/Machine/ResetRows.lean ====
section
/-! DEFINITION. The meanings of the commands of resets, clocks and pins: one definition per row of the table. -/

namespace Sys2Proof.Machine

open Sys2Proof

/-- PORST_ASSERT. -/
def execPorstAssert (s : State) : Host.Outcome State Fault Refusal := .next (fin (porst s))

/-- PORST_RELEASE. -/
def execPorstRelease (straps tamper : Nat) (s : State) : Host.Outcome State Fault Refusal :=
  .next (fin (porstRelease s straps tamper))

/-- IMAGE_VERIFY_DONE (R356, R357, R557, R560, R561). -/
def execImageVerifyDone (x : SideId) (slotOk : Bool) (s : State) : Host.Outcome State Fault Refusal :=
  .next (fin (verifyImage s x slotOk))

/-- WRST. -/
def execWrst (tamper : Nat) (s : State) : Host.Outcome State Fault Refusal := .next (fin (warmReset s tamper))

/-- WARM (R553). -/
def execWarm (r : Requester) (s : State) : Host.Outcome State Fault Refusal :=
  .next (fin (pageWrite s r Pg.RST Reg.RST_SIDE_CMD 16))

/-- SIDE_RESET (R553): RST_A or RST_B. -/
def execSideReset (r : Requester) (x : SideId) (s : State) : Host.Outcome State Fault Refusal :=
  .next (fin (pageWrite s r Pg.RST Reg.RST_SIDE_CMD (if x = .a then 1 else 2)))

/-- X32_SWITCH: AON takes the crystal, unless RC_ONLY holds it on the RC oscillator (R550). -/
def execX32Switch (s : State) : Host.Outcome State Fault Refusal :=
  .next (fin (if rb s.c.regs Pg.CLK Reg.CLK_X32_CFG 1 then s else s.updSys fun y => { y with x32Rc := false }))

/-- CLOCK_LOSS. -/
def execClockLoss (c : ClockId) (s : State) : Host.Outcome State Fault Refusal :=
  .next (fin (if s.c.sys.porstLow then s else clockLoss s c))

/-- GPIO_WRITE (R578): GPIO_OUT or GPIO_DIR. -/
def execGpioWrite (r : Requester) (dir : Bool) (v : Word) (s : State) : Host.Outcome State Fault Refusal :=
  .next (fin (pageWrite s r Pg.TPO (if dir then Reg.TPO_GPIO_DIR else Reg.TPO_GPIO_OUT) v))

/-- REF10_VALID (R43, R48). -/
def execRef10Valid (s : State) : Host.Outcome State Fault Refusal := .next (fin (ref10Core s))

/-- ETH_LINK_CHANGE. -/
def execEthLinkChange (second : Bool) (up : Bool) (speed : Nat) (s : State) : Host.Outcome State Fault Refusal :=
  .next (fin (if (second && !s.variant.full) || !commonsUp s then s else ethLink s second up speed))

/-- ETH_TX_COMPLETE. -/
def execEthTxComplete (second : Bool) (ts : Nat) (s : State) : Host.Outcome State Fault Refusal := .next (fin (ethSent s second ts))

/-- ADC_CLIP (R89). -/
def execAdcClip (p : RPort) (s : State) : Host.Outcome State Fault Refusal :=
  .next (onPort s p fun s => s.updC fun c => adcClips c p)

/-- RAW_DONE. -/
def execRawDone (page : Nat) (nak pecErr : Bool) (data : Nat) (s : State) : Host.Outcome State Fault Refusal :=
  .next (fin (match pmbOwner s.variant page with
    | some o => rawDone s o nak pecErr data
    | none => s))

/-- REPLICA_DISAGREE (R418). -/
def execReplicaDisagree (n : Nat) (holder token expiry : Nat) (s : State) : Host.Outcome State Fault Refusal :=
  .next (fin (replicaUpset s n { holder := holder, token := token, expiry := expiry }))

/-- RAIL_IN_RANGE: a bank supply enters its range; while PORST_N is low the bank's balls take their reset state (R570). -/
def execRailInRange (bank : Nat) (s : State) : Host.Outcome State Fault Refusal :=
  .next (fin (s.updSys fun y =>
    let y1 := { y with banksUp := setNBit y.banksUp bank true }
    if y.porstLow then { y1 with gpioOut := 0, gpioDir := 0, feOut := 0 } else y1))

end Sys2Proof.Machine
end

