-- ==== Sys2Proof/Machine/ShapeRows.lean ====
section
/-! DEFINITION. The meanings of the commands of downlink and shaping: one definition per row of the table. -/

namespace Sys2Proof.Machine

open Sys2Proof

/-- HOST_FRAME_ITEM (R34, R319, R378, R392). -/
def execHostFrameItem (x : SideId) (strand : Nat) (s : State) : Host.Outcome State Fault Refusal :=
  .next (fin (if sideRun s x then s.upd x fun d => d.hostItem s.variant d.view s.c.lt strand else s))

/-- ETH_FRAME_CONSUME (R34, R506). -/
def execEthFrameConsume (x : SideId) (s : State) : Host.Outcome State Fault Refusal :=
  .next (fin (match nextInput s x with
    | some i => match i.inp with
      | .ethFrame f => s.upd x fun d => let e := d.consume i; e.ethFrame s.variant e.view s.c.lt i f
      | _ => s
    | none => s))

/-- RELEASE_DECISION (R328 to R332, R343 to R347). -/
def execReleaseDecision (x : SideId) (carrier : Nat) (s : State) : Host.Outcome State Fault Refusal :=
  .next (fin (if sideRun s x then s.upd x fun d => d.decide_ s.variant d.view carrier else s))

/-- HOST_PORT_RELEASE (R331, R332). -/
def execHostPortRelease (x : SideId) (port : Nat) (s : State) : Host.Outcome State Fault Refusal :=
  .next (fin (if sideRun s x then s.upd x fun d => d.decideHost s.variant s.c.lt port else s))

/-- LAUNCH_COMPLETION (R97, R348, R183). -/
def execLaunchCompletion (x : SideId) (s : State) : Host.Outcome State Fault Refusal :=
  .next (fin (match nextInput s x with
    | some i => match i.inp with
      | .launchDone e => s.upd x fun d => let k := d.consume i; k.launchDone k.view s.c.lt e
      | _ => s
    | none => s))

/-- GATE_SWAP (R336, R337): CTRL.SWAP with EN and LATE_POL as they stand. -/
def execGateSwap (r : Requester) (s : State) : Host.Outcome State Fault Refusal :=
  .next (fin (pageWrite s r Pg.GATE Reg.GATE_CTRL (shownBy s r Pg.GATE Reg.GATE_CTRL &&& 3 ||| 4)))

/-- GATE_ABORT (R337): CTRL.ABORT with EN and LATE_POL as they stand. -/
def execGateAbort (r : Requester) (s : State) : Host.Outcome State Fault Refusal :=
  .next (fin (pageWrite s r Pg.GATE Reg.GATE_CTRL (shownBy s r Pg.GATE Reg.GATE_CTRL &&& 3 ||| 8)))

/-- GATE_SWAP_APPLY (R336, R337, R340). -/
def execGateSwapApply (x : SideId) (carrier : Nat) (s : State) : Host.Outcome State Fault Refusal :=
  .next (fin (if sideRun s x then s.upd x fun d => d.gateApply d.view s.c.lt carrier else s))

/-- GATE_EN_WRITE (R335, R340): GATE.CTRL. -/
def execGateEnWrite (r : Requester) (v : Word) (s : State) : Host.Outcome State Fault Refusal :=
  .next (fin (pageWrite s r Pg.GATE Reg.GATE_CTRL v))

end Sys2Proof.Machine
end

