-- ==== Sys2Proof/Machine/StrandRows.lean ====
section
/-! DEFINITION. The meanings of the commands of strands: one definition per row of the table. -/

namespace Sys2Proof.Machine

open Sys2Proof

/-- STRAND_PUSH (R384): PUSH7, which pushes the staged descriptor. -/
def execStrandPush (r : Requester) (v : Word) (s : State) : Host.Outcome State Fault Refusal :=
  .next (fin (pageWrite s r Pg.STRAND (Reg.STRAND_PUSH + 28) v))

/-- CELL_WRITE (R497): a BAR2 write of a host port. -/
def execCellWrite (r : Requester) (off : Nat) (data : List Byte) (s : State) : Host.Outcome State Fault Refusal :=
  .next (fin (if r.presentOn s.variant.full && r.isHost.isSome then bar2Write s r off data else s))

/-- POP (R383, R386): CMD of the selected strand. -/
def execPop (r : Requester) (s : State) : Host.Outcome State Fault Refusal :=
  .next (fin (pageWrite s r Pg.STRAND Reg.STRAND_CMD 1))

/-- MARK (R386): CMD of the selected strand. -/
def execMark (r : Requester) (s : State) : Host.Outcome State Fault Refusal :=
  .next (fin (pageWrite s r Pg.STRAND Reg.STRAND_CMD 2))

/-- REWIND (R386): CMD of the selected strand. -/
def execRewind (r : Requester) (s : State) : Host.Outcome State Fault Refusal :=
  .next (fin (pageWrite s r Pg.STRAND Reg.STRAND_CMD 4))

/-- RELEASE (R386): CMD of the selected strand. -/
def execRelease (r : Requester) (s : State) : Host.Outcome State Fault Refusal :=
  .next (fin (pageWrite s r Pg.STRAND Reg.STRAND_CMD 8))

/-- DROP_REST (R386, R390): CMD of the selected strand. -/
def execDropRest (r : Requester) (s : State) : Host.Outcome State Fault Refusal :=
  .next (fin (pageWrite s r Pg.STRAND Reg.STRAND_CMD 16))

/-- FLUSH (R386, R389): CMD of the selected strand. -/
def execFlush (r : Requester) (s : State) : Host.Outcome State Fault Refusal :=
  .next (fin (pageWrite s r Pg.STRAND Reg.STRAND_CMD 32))

/-- STRAND_ENABLE (R375, R377, R457): STRAND.CFG. -/
def execStrandEnable (r : Requester) (v : Word) (s : State) : Host.Outcome State Fault Refusal :=
  .next (fin (pageWrite s r Pg.STRAND Reg.STRAND_CFG v))

/-- STRAND_POP_UNBLOCK (R377). -/
def execStrandPopUnblock (x : SideId) (strand : Nat) (s : State) : Host.Outcome State Fault Refusal :=
  .next (fin (if sideRun s x then s.upd x fun d => d.unblockPop strand else s))

/-- STRAND_PUSH_RESUME (R388). -/
def execStrandPushResume (x : SideId) (strand : Nat) (s : State) : Host.Outcome State Fault Refusal :=
  .next (fin (if sideRun s x then s.upd x fun d => d.resumePushes s.c.lt strand ((d.ring strand).stalled.length) else s))

end Sys2Proof.Machine
end

