-- ==== Sys2Proof/Machine/TableRows.lean ====
section
/-! DEFINITION. The meanings of the commands of the node, prefix and Skim tables: one definition per row of the table. -/

namespace Sys2Proof.Machine

open Sys2Proof

/-- SANDER_VISIT (R239, R240): at the time input that the side takes next. -/
def execSanderVisit (x : SideId) (s : State) : Host.Outcome State Fault Refusal :=
  .next (fin (match nextInput s x with
    | some i => match i.inp with
      | .time 0 _ _ => s.upd x fun d => d.visitNext s.c.lt i.lt
      | _ => s
    | none => s))

/-- RESTART (R239). -/
def execRestart (r : Requester) (s : State) : Host.Outcome State Fault Refusal :=
  .next (fin (pageWrite s r Pg.SANDER Reg.SANDER_CMD 1))

/-- SANDER_EN_WRITE (R239): SANDER.CFG. -/
def execSanderEnWrite (r : Requester) (v : Word) (s : State) : Host.Outcome State Fault Refusal :=
  .next (fin (pageWrite s r Pg.SANDER Reg.SANDER_CFG v))

/-- HASH_SEED_WRITE (R230). -/
def execHashSeedWrite (r : Requester) (v : Word) (s : State) : Host.Outcome State Fault Refusal :=
  .next (fin (pageWrite s r Pg.NODE Reg.NODE_HASH_SEED v))

/-- NT_READ (R242). -/
def execNtRead (x : SideId) (strand : Nat) (s : State) : Host.Outcome State Fault Refusal :=
  .next (fin (tableCmd s x strand 1 Pg.NODE Side.cmdNtRead))

/-- NT_LOCK (R242, R244). -/
def execNtLock (x : SideId) (strand : Nat) (s : State) : Host.Outcome State Fault Refusal :=
  .next (fin (tableCmd s x strand 2 Pg.NODE Side.cmdNtLock))

/-- NT_WRITE (R242, R245). -/
def execNtWrite (x : SideId) (strand : Nat) (s : State) : Host.Outcome State Fault Refusal :=
  .next (fin (tableCmd s x strand 3 Pg.NODE Side.cmdNtWrite))

/-- NT_DELETE (R242). -/
def execNtDelete (x : SideId) (strand : Nat) (s : State) : Host.Outcome State Fault Refusal :=
  .next (fin (tableCmd s x strand 4 Pg.NODE Side.cmdNtDelete))

/-- NT_SCAN (R242). -/
def execNtScan (x : SideId) (strand : Nat) (s : State) : Host.Outcome State Fault Refusal :=
  .next (fin (tableCmd s x strand 5 Pg.NODE Side.cmdNtScan))

/-- SKIM_READ (R242, R380). -/
def execSkimRead (x : SideId) (strand : Nat) (s : State) : Host.Outcome State Fault Refusal :=
  .next (fin (tableCmd s x strand 11 Pg.SKIM Side.cmdSkimRead))

/-- PC_READ (R242, R247). -/
def execPcRead (x : SideId) (strand : Nat) (s : State) : Host.Outcome State Fault Refusal :=
  .next (fin (camCmd s x strand 8 Side.cmdPcRead))

/-- PC_INSERT (R248, R249). -/
def execPcInsert (x : SideId) (strand : Nat) (s : State) : Host.Outcome State Fault Refusal :=
  .next (fin (camCmd s x strand 9 Side.cmdPcInsert))

/-- PC_DELETE (R249). -/
def execPcDelete (x : SideId) (strand : Nat) (s : State) : Host.Outcome State Fault Refusal :=
  .next (fin (camCmd s x strand 10 Side.cmdPcDelete))

/-- CAM_MOVES_DONE (R249). -/
def execCamMovesDone (x : SideId) (s : State) : Host.Outcome State Fault Refusal :=
  .next (fin (if sideRun s x then s.upd x fun d => d.camMovesDone else s))

/-- LOCK_LONG (R246). -/
def execLockLong (x : SideId) (slot : Nat) (s : State) : Host.Outcome State Fault Refusal :=
  .next (fin (if sideRun s x then s.upd x fun d => d.lockLong slot else s))

end Sys2Proof.Machine
end

