-- ==== Sys2Proof/Machine/ThreadRows.lean ====
section
/-! DEFINITION. The meanings of the commands of the dispatcher and the semaphores: one definition per row of the table. -/

namespace Sys2Proof.Machine

open Sys2Proof

/-- CREATE. -/
def execCreate (x : SideId) (core arg0 arg1 : Nat) (s : State) : Host.Outcome State Fault Refusal :=
  .next (fin (coreOp s x core (arg0, arg1) fun d => d.opCreate core arg0))

/-- RESUME. -/
def execResume (x : SideId) (core arg0 arg1 : Nat) (s : State) : Host.Outcome State Fault Refusal :=
  .next (fin (coreOp s x core (arg0, arg1) fun d => d.opResume s.c.lt core arg0))

/-- WAIT. -/
def execWait (x : SideId) (core arg0 arg1 : Nat) (s : State) : Host.Outcome State Fault Refusal :=
  .next (fin (coreOp s x core (arg0, arg1) fun d => d.opWait core arg0 arg1))

/-- TRYWAIT. -/
def execTrywait (x : SideId) (core arg0 arg1 : Nat) (s : State) : Host.Outcome State Fault Refusal :=
  .next (fin (coreOp s x core (arg0, arg1) fun d => d.opTrywait core arg0))

/-- SIGNAL. -/
def execSignal (x : SideId) (core arg0 arg1 : Nat) (s : State) : Host.Outcome State Fault Refusal :=
  .next (fin (coreOp s x core (arg0, arg1) fun d => d.opSignal s.c.lt core arg0))

/-- CANCEL. -/
def execCancel (x : SideId) (core arg0 arg1 : Nat) (s : State) : Host.Outcome State Fault Refusal :=
  .next (fin (coreOp s x core (arg0, arg1) fun d => d.opCancel s.c.lt core arg0))

/-- DELETE. -/
def execDelete (x : SideId) (core arg0 arg1 : Nat) (s : State) : Host.Outcome State Fault Refusal :=
  .next (fin (coreOp s x core (arg0, arg1) fun d => d.opDelete core arg0))

/-- YIELD. -/
def execYield (x : SideId) (core : Nat) (s : State) : Host.Outcome State Fault Refusal :=
  .next (fin (coreOp s x core (s.coreArgs x core) fun d => d.opYield s.c.lt core))

/-- EXIT. -/
def execExit (x : SideId) (core : Nat) (s : State) : Host.Outcome State Fault Refusal :=
  .next (fin (coreOp s x core (s.coreArgs x core) fun d => d.opExit core))

/-- SETPRIO. -/
def execSetprio (x : SideId) (core arg0 arg1 : Nat) (s : State) : Host.Outcome State Fault Refusal :=
  .next (fin (coreOp s x core (arg0, arg1) fun d => d.opSetprio core arg0 arg1))

/-- OBJ_INIT. -/
def execObjInit (x : SideId) (core arg0 arg1 : Nat) (s : State) : Host.Outcome State Fault Refusal :=
  .next (fin (coreOp s x core (arg0, arg1) fun d => d.opObjInit core arg0 arg1))

/-- A read of DNEXT: timeouts due at the last time input come before it; a thread marked by CANCEL becomes CANCELLED there, and the core is dispatched (R402, R403, R408). -/
def execDnext (x : SideId) (core : Nat) (s : State) : Host.Outcome State Fault Refusal :=
  .next (fin (if coresRun s x && decide (core < 8) && (s.side x).coreOn core then
    s.upd x fun d => (((d.timeouts s.c.lt).dropMarked core).2).dispatch s.c.lt core else s))

/-- CORE_EN_WRITE (R397): DISP.CORE_EN. -/
def execCoreEnWrite (r : Requester) (v : Word) (s : State) : Host.Outcome State Fault Refusal :=
  .next (fin (pageWrite s r Pg.DISP Reg.DISP_CORE_EN v))

/-- WAIT_TIMEOUT: the timed waits due at the time input that the side has consumed (R406). -/
def execWaitTimeout (x : SideId) (s : State) : Host.Outcome State Fault Refusal :=
  .next (fin (if coresRun s x then s.upd x fun d => d.timeouts s.c.lt else s))

/-- TSLICE_EXPIRY on a core (R405). -/
def execTsliceExpiry (x : SideId) (core : Nat) (s : State) : Host.Outcome State Fault Refusal :=
  .next (fin (if coresRun s x && decide (core < 8) && (s.side x).coreOn core then
    s.upd x fun d => d.sliceEnd core else s))

/-- SEM_ACQ (R411, R412): the low byte of SEMn, so that NOTIFY stays. -/
def execSemAcq (r : Requester) (n : Nat) (s : State) : Host.Outcome State Fault Refusal :=
  .next (fin (if n < 64 then access s r (regAddr r Pg.SEM (Reg.SEM_SEM + 4 * n)) 1 1 else s))

/-- SEM_REL (R413, R415): the low byte of SEMn, so that NOTIFY stays. -/
def execSemRel (r : Requester) (n : Nat) (s : State) : Host.Outcome State Fault Refusal :=
  .next (fin (if n < 64 then access s r (regAddr r Pg.SEM (Reg.SEM_SEM + 4 * n)) 2 1 else s))

/-- SEM_FORCE (R416). -/
def execSemForce (r : Requester) (v : Word) (s : State) : Host.Outcome State Fault Refusal :=
  .next (fin (pageWrite s r Pg.SEM Reg.SEM_FORCE v))

end Sys2Proof.Machine
end

