-- ==== Sys2Proof/Machine/TimeRows.lean ====
section
/-! DEFINITION. The meanings of the commands of network time: one definition per row of the table. -/

namespace Sys2Proof.Machine

open Sys2Proof

/-- LT_LO_READ (R38): a core's is an output transaction whose result is sequenced (R19). -/
def execLtLoRead (r : Requester) (s : State) : Host.Outcome State Fault Refusal :=
  .next (fin (accessRead s r (regAddr r Pg.LATH Reg.LATH_LT_LO)))

/-- LOSS_CFG_WRITE (R604): LOSS_CFG, PPS_WINDOW or REF10_TOL. -/
def execLossCfgWrite (r : Requester) (off : Nat) (v : Word) (be : Nat) (s : State) : Host.Outcome State Fault Refusal :=
  .next (fin (if off = Reg.PLUMB_LOSS_CFG ∨ off = Reg.PLUMB_PPS_WINDOW ∨ off = Reg.PLUMB_REF10_TOL then
    access s r (regAddr r Pg.PLUMB off) v be else s))

/-- SOURCE_LOST (R43, R45). -/
def execSourceLost (code : Nat) (s : State) : Host.Outcome State Fault Refusal := .next (fin (sourceLostCore s code))

/-- REVERT_HOLDOFF_EXPIRY (R44). -/
def execRevertHoldoffExpiry (s : State) : Host.Outcome State Fault Refusal := .next (fin (revert s))

/-- PPS_EDGE (R47). -/
def execPpsEdge (s : State) : Host.Outcome State Fault Refusal := .next (fin (ppsEdgeCore s))

/-- HOST_TIME_WRITE (R49): HOST_TIME_HI. -/
def execHostTimeWrite (r : Requester) (v : Word) (s : State) : Host.Outcome State Fault Refusal :=
  .next (fin (pageWrite s r Pg.PLUMB Reg.PLUMB_HOST_TIME_HI v))

/-- PTP_MEASUREMENT (R510): the word that a side's write to PTP_MEAS brings. -/
def execPtpMeasurement (w3 : Word) (s : State) : Host.Outcome State Fault Refusal := .next (fin (writePtpMeas s w3))

/-- SLEW_COMPLETE (R51). -/
def execSlewComplete (s : State) : Host.Outcome State Fault Refusal :=
  .next (fin (s.updC slewEnd))

/-- ACCEPT_STEP (R55, R69). -/
def execAcceptStep (r : Requester) (s : State) : Host.Outcome State Fault Refusal :=
  .next (fin (pageWrite s r Pg.LATH Reg.LATH_CMD 1))

/-- ACCEPT_SLEW (R55). -/
def execAcceptSlew (r : Requester) (s : State) : Host.Outcome State Fault Refusal :=
  .next (fin (pageWrite s r Pg.LATH Reg.LATH_CMD 2))

/-- HOLDOVER_EXPIRED (R57). -/
def execHoldoverExpired (s : State) : Host.Outcome State Fault Refusal := .next (fin (s.updC holdoverExpire))

/-- XTAL_STOP (R63). -/
def execXtalStop (s : State) : Host.Outcome State Fault Refusal := .next (fin (s.updC xtalStops))

/-- XTAL_RESTART (R63). -/
def execXtalRestart (coarse : Nat) (s : State) : Host.Outcome State Fault Refusal :=
  .next (fin (s.updC fun c => xtalRestarts c coarse))

/-- TIMER_SLOT_ARM (R66 to R71): TMRn_CTRL. -/
def execTimerSlotArm (r : Requester) (n : Nat) (v : Word) (s : State) : Host.Outcome State Fault Refusal :=
  .next (fin (if n < 32 then pageWrite s r Pg.LATH (tmrOff Reg.LATH_TMR_CTRL n) v else s))

/-- TIMER_SLOT_EXPIRY (R71). -/
def execTimerSlotExpiry (n : Nat) (s : State) : Host.Outcome State Fault Refusal := .next (fin (slotDue s n))

/-- TPO_CTRL_WRITE (R72, R77): CTRLn. -/
def execTpoCtrlWrite (r : Requester) (n : Nat) (v : Word) (s : State) : Host.Outcome State Fault Refusal :=
  .next (fin (if n < 4 then pageWrite s r Pg.TPO (tpoOff Reg.TPO_CTRL n) v else s))

/-- TPO_EDGE (R72 to R75). -/
def execTpoEdge (n : Nat) (s : State) : Host.Outcome State Fault Refusal :=
  .next (if commonsUp s then fin (s.updC fun c => tpoEdge c n) else s)

end Sys2Proof.Machine
end

