-- ==== Sys2Proof/Machine/Dispatch.lean ====
section
/-! DEFINITION. exec: each command is given its meaning. -/

namespace Sys2Proof.Machine

open Sys2Proof

def exec (i : Instr) (s : State) : Host.Outcome State Fault Refusal :=
  match i with
  -- registers, sequencer and outputs
  | .registerWrite r off v be => Sys2Proof.Machine.execRegisterWrite r off v be s
  | .sideRangeWrite r off v be => Sys2Proof.Machine.execSideRangeWrite r off v be s
  | .pairedWindowWrite r off v be => Sys2Proof.Machine.execPairedWindowWrite r off v be s
  | .pairedWindowRead r off => Sys2Proof.Machine.execPairedWindowRead r off s
  | .cntClr r page => Sys2Proof.Machine.execCntClr r page s
  | .lockWrite r page v => Sys2Proof.Machine.execLockWrite r page v s
  | .errStickyClear r page v => Sys2Proof.Machine.execErrStickyClear r page v s
  | .errMaskWrite r page v => Sys2Proof.Machine.execErrMaskWrite r page v s
  | .inputSequenced src => Sys2Proof.Machine.execInputSequenced src s
  | .timeInput lt => Sys2Proof.Machine.execTimeInput lt s
  | .sideTimeInput x => Sys2Proof.Machine.execSideTimeInput x s
  | .trngWord w => Sys2Proof.Machine.execTrngWord w s
  | .outputOffer x txn readbackOk => Sys2Proof.Machine.execOutputOffer x txn readbackOk s
  | .skewTimeout => Sys2Proof.Machine.execSkewTimeout s
  | .sideCommonsEvent x => Sys2Proof.Machine.execSideCommonsEvent x s
  -- network time
  | .ltLoRead r => Sys2Proof.Machine.execLtLoRead r s
  | .lossCfgWrite r off v be => Sys2Proof.Machine.execLossCfgWrite r off v be s
  | .sourceLost code => Sys2Proof.Machine.execSourceLost code s
  | .revertHoldoffExpiry => Sys2Proof.Machine.execRevertHoldoffExpiry s
  | .ppsEdge => Sys2Proof.Machine.execPpsEdge s
  | .hostTimeWrite r v => Sys2Proof.Machine.execHostTimeWrite r v s
  | .ptpMeasurement w3 => Sys2Proof.Machine.execPtpMeasurement w3 s
  | .slewComplete => Sys2Proof.Machine.execSlewComplete s
  | .acceptStep r => Sys2Proof.Machine.execAcceptStep r s
  | .acceptSlew r => Sys2Proof.Machine.execAcceptSlew r s
  | .holdoverExpired => Sys2Proof.Machine.execHoldoverExpired s
  | .xtalStop => Sys2Proof.Machine.execXtalStop s
  | .xtalRestart coarse => Sys2Proof.Machine.execXtalRestart coarse s
  | .timerSlotArm r n v => Sys2Proof.Machine.execTimerSlotArm r n v s
  | .timerSlotExpiry n => Sys2Proof.Machine.execTimerSlotExpiry n s
  | .tpoCtrlWrite r n v => Sys2Proof.Machine.execTpoCtrlWrite r n v s
  | .tpoEdge n => Sys2Proof.Machine.execTpoEdge n s
  -- radio ports
  | .loFreqWrite r p v => Sys2Proof.Machine.execLoFreqWrite r p v s
  | .retuneStart p => Sys2Proof.Machine.execRetuneStart p s
  | .retuneEnd p => Sys2Proof.Machine.execRetuneEnd p s
  | .chWrite r p => Sys2Proof.Machine.execChWrite r p s
  | .chRead r p => Sys2Proof.Machine.execChRead r p s
  | .launchArrival p c => Sys2Proof.Machine.execLaunchArrival p c s
  | .carrierFree p c => Sys2Proof.Machine.execCarrierFree p c s
  | .launchCheckDue p c => Sys2Proof.Machine.execLaunchCheckDue p c s
  | .lbtListen p c rssi => Sys2Proof.Machine.execLbtListen p c rssi s
  | .lbtDeferExpiry p c => Sys2Proof.Machine.execLbtDeferExpiry p c s
  | .feLineEdge n => Sys2Proof.Machine.execFeLineEdge n s
  | .blankingStart p c => Sys2Proof.Machine.execBlankingStart p c s
  | .burstStart p c => Sys2Proof.Machine.execBurstStart p c s
  | .burstEnd p c => Sys2Proof.Machine.execBurstEnd p c s
  | .blankingEnd p c => Sys2Proof.Machine.execBlankingEnd p c s
  | .ackBurstStart p c => Sys2Proof.Machine.execAckBurstStart p c s
  | .ackBurstEnd p c => Sys2Proof.Machine.execAckBurstEnd p c s
  | .feCfgApply n => Sys2Proof.Machine.execFeCfgApply n s
  | .startupCalDone p converged => Sys2Proof.Machine.execStartupCalDone p converged s
  | .calNotice p => Sys2Proof.Machine.execCalNotice p s
  | .gapNow r p => Sys2Proof.Machine.execGapNow r p s
  | .calGapStart p => Sys2Proof.Machine.execCalGapStart p s
  | .calGapEnd p cancOk => Sys2Proof.Machine.execCalGapEnd p cancOk s
  | .dutyBucketBoundary => Sys2Proof.Machine.execDutyBucketBoundary s
  | .dwellSubbucketBoundary p => Sys2Proof.Machine.execDwellSubbucketBoundary p s
  | .portCfgWrite r p v => Sys2Proof.Machine.execPortCfgWrite r p v s
  -- lanes
  | .detection p ch mode freq quality power => Sys2Proof.Machine.execDetection p ch mode freq quality power s
  | .mergeWindowClose p => Sys2Proof.Machine.execMergeWindowClose p s
  | .sfdFound p lane lt => Sys2Proof.Machine.execSfdFound p lane lt s
  | .sfdTimeout p lane => Sys2Proof.Machine.execSfdTimeout p lane s
  | .phrReceived p lane phr => Sys2Proof.Machine.execPhrReceived p lane phr s
  | .syncLost p lane => Sys2Proof.Machine.execSyncLost p lane s
  | .fcsDecision p lane rx => Sys2Proof.Machine.execFcsDecision p lane rx s
  | .chLanesWrite r p v => Sys2Proof.Machine.execChLanesWrite r p v s
  | .portLimitWrite r p v => Sys2Proof.Machine.execPortLimitWrite r p v s
  -- pending list, uplink, pending pool
  | .pendingListSet => Sys2Proof.Machine.execPendingListSet s
  | .pendingListClear => Sys2Proof.Machine.execPendingListClear s
  | .pendingListClearAll => Sys2Proof.Machine.execPendingListClearAll s
  | .pendingListQuery r v => Sys2Proof.Machine.execPendingListQuery r v s
  | .pendingUpdateCompletion x => Sys2Proof.Machine.execPendingUpdateCompletion x s
  | .rxFrameConsume x => Sys2Proof.Machine.execRxFrameConsume x s
  | .ackWaitExpiry x => Sys2Proof.Machine.execAckWaitExpiry x s
  | .scheduledWindow x => Sys2Proof.Machine.execScheduledWindow x s
  | .parkedFrameExpiry x => Sys2Proof.Machine.execParkedFrameExpiry x s
  | .pendingSetRetry x => Sys2Proof.Machine.execPendingSetRetry x s
  | .winRead r => Sys2Proof.Machine.execWinRead r s
  | .winWrite r => Sys2Proof.Machine.execWinWrite r s
  | .winDelete r => Sys2Proof.Machine.execWinDelete r s
  | .relayDecision x => Sys2Proof.Machine.execRelayDecision x s
  | .reassemblyTimeout x => Sys2Proof.Machine.execReassemblyTimeout x s
  | .skimSweep x => Sys2Proof.Machine.execSkimSweep x s
  | .ctxRead r => Sys2Proof.Machine.execCtxRead r s
  | .ctxWrite r => Sys2Proof.Machine.execCtxWrite r s
  -- tables
  | .sanderVisit x => Sys2Proof.Machine.execSanderVisit x s
  | .restart r => Sys2Proof.Machine.execRestart r s
  | .sanderEnWrite r v => Sys2Proof.Machine.execSanderEnWrite r v s
  | .hashSeedWrite r v => Sys2Proof.Machine.execHashSeedWrite r v s
  | .ntRead x strand => Sys2Proof.Machine.execNtRead x strand s
  | .ntLock x strand => Sys2Proof.Machine.execNtLock x strand s
  | .ntWrite x strand => Sys2Proof.Machine.execNtWrite x strand s
  | .ntDelete x strand => Sys2Proof.Machine.execNtDelete x strand s
  | .ntScan x strand => Sys2Proof.Machine.execNtScan x strand s
  | .skimRead x strand => Sys2Proof.Machine.execSkimRead x strand s
  | .pcRead x strand => Sys2Proof.Machine.execPcRead x strand s
  | .pcInsert x strand => Sys2Proof.Machine.execPcInsert x strand s
  | .pcDelete x strand => Sys2Proof.Machine.execPcDelete x strand s
  | .camMovesDone x => Sys2Proof.Machine.execCamMovesDone x s
  | .lockLong x slot => Sys2Proof.Machine.execLockLong x slot s
  -- keys
  | .enrol r => Sys2Proof.Machine.execEnrol r s
  | .remaskPass x => Sys2Proof.Machine.execRemaskPass x s
  | .derivationComplete x => Sys2Proof.Machine.execDerivationComplete x s
  | .tenMapWrite r v => Sys2Proof.Machine.execTenMapWrite r v s
  | .keyInfo x strand => Sys2Proof.Machine.execKeyInfo x strand s
  | .keyInvalidate x strand => Sys2Proof.Machine.execKeyInvalidate x strand s
  | .tenInvalidate x strand => Sys2Proof.Machine.execTenInvalidate x strand s
  | .nodeInvalidate x strand => Sys2Proof.Machine.execNodeInvalidate x strand s
  | .cacheFlush x strand => Sys2Proof.Machine.execCacheFlush x strand s
  | .keyExport x strand => Sys2Proof.Machine.execKeyExport x strand s
  | .keyUpdate x strand => Sys2Proof.Machine.execKeyUpdate x strand s
  -- tamper and debug
  | .tamperTrip source => Sys2Proof.Machine.execTamperTrip source s
  | .sideTamper x => Sys2Proof.Machine.execSideTamper x s
  | .loupeChallenge r => Sys2Proof.Machine.execLoupeChallenge r s
  | .loupeOpen r => Sys2Proof.Machine.execLoupeOpen r s
  | .loupeClose r => Sys2Proof.Machine.execLoupeClose r s
  | .loupeLockoutEnd => Sys2Proof.Machine.execLoupeLockoutEnd s
  | .sideLoupeOpen x => Sys2Proof.Machine.execSideLoupeOpen x s
  | .sideLoupeClose x => Sys2Proof.Machine.execSideLoupeClose x s
  -- downlink and shaping
  | .hostFrameItem x strand => Sys2Proof.Machine.execHostFrameItem x strand s
  | .ethFrameConsume x => Sys2Proof.Machine.execEthFrameConsume x s
  | .releaseDecision x carrier => Sys2Proof.Machine.execReleaseDecision x carrier s
  | .hostPortRelease x port => Sys2Proof.Machine.execHostPortRelease x port s
  | .launchCompletion x => Sys2Proof.Machine.execLaunchCompletion x s
  | .gateSwap r => Sys2Proof.Machine.execGateSwap r s
  | .gateAbort r => Sys2Proof.Machine.execGateAbort r s
  | .gateSwapApply x carrier => Sys2Proof.Machine.execGateSwapApply x carrier s
  | .gateEnWrite r v => Sys2Proof.Machine.execGateEnWrite r v s
  -- images
  | .fwWrite x strand => Sys2Proof.Machine.execFwWrite x strand s
  | .fwCommit x strand => Sys2Proof.Machine.execFwCommit x strand s
  | .fwUpdate x strand => Sys2Proof.Machine.execFwUpdate x strand s
  | .fwuSwap => Sys2Proof.Machine.execFwuSwap s
  | .fwConfirm x strand => Sys2Proof.Machine.execFwConfirm x strand s
  | .trialExpired x => Sys2Proof.Machine.execTrialExpired x s
  | .slotVerifyDone x => Sys2Proof.Machine.execSlotVerifyDone x s
  | .imgWrite x strand => Sys2Proof.Machine.execImgWrite x strand s
  | .imgCommit x strand => Sys2Proof.Machine.execImgCommit x strand s
  | .imgErase x strand => Sys2Proof.Machine.execImgErase x strand s
  | .imgRead x strand => Sys2Proof.Machine.execImgRead x strand s
  | .ibeStart x strand => Sys2Proof.Machine.execIbeStart x strand s
  | .ibeStop x strand => Sys2Proof.Machine.execIbeStop x strand s
  | .ibeLoadDone => Sys2Proof.Machine.execIbeLoadDone s
  | .symNext => Sys2Proof.Machine.execSymNext s
  | .reportAdd v => Sys2Proof.Machine.execReportAdd v s
  | .ibeStopLt => Sys2Proof.Machine.execIbeStopLt s
  -- strands
  | .strandPush r v => Sys2Proof.Machine.execStrandPush r v s
  | .cellWrite r off data => Sys2Proof.Machine.execCellWrite r off data s
  | .pop r => Sys2Proof.Machine.execPop r s
  | .mark r => Sys2Proof.Machine.execMark r s
  | .rewind r => Sys2Proof.Machine.execRewind r s
  | .release r => Sys2Proof.Machine.execRelease r s
  | .dropRest r => Sys2Proof.Machine.execDropRest r s
  | .flush r => Sys2Proof.Machine.execFlush r s
  | .strandEnable r v => Sys2Proof.Machine.execStrandEnable r v s
  | .strandPopUnblock x strand => Sys2Proof.Machine.execStrandPopUnblock x strand s
  | .strandPushResume x strand => Sys2Proof.Machine.execStrandPushResume x strand s
  -- dispatcher
  | .create x core arg0 arg1 => Sys2Proof.Machine.execCreate x core arg0 arg1 s
  | .resume x core arg0 arg1 => Sys2Proof.Machine.execResume x core arg0 arg1 s
  | .wait x core arg0 arg1 => Sys2Proof.Machine.execWait x core arg0 arg1 s
  | .trywait x core arg0 arg1 => Sys2Proof.Machine.execTrywait x core arg0 arg1 s
  | .signal x core arg0 arg1 => Sys2Proof.Machine.execSignal x core arg0 arg1 s
  | .cancel x core arg0 arg1 => Sys2Proof.Machine.execCancel x core arg0 arg1 s
  | .delete x core arg0 arg1 => Sys2Proof.Machine.execDelete x core arg0 arg1 s
  | .yield x core => Sys2Proof.Machine.execYield x core s
  | .exit x core => Sys2Proof.Machine.execExit x core s
  | .setprio x core arg0 arg1 => Sys2Proof.Machine.execSetprio x core arg0 arg1 s
  | .objInit x core arg0 arg1 => Sys2Proof.Machine.execObjInit x core arg0 arg1 s
  | .dnext x core => Sys2Proof.Machine.execDnext x core s
  | .coreEnWrite r v => Sys2Proof.Machine.execCoreEnWrite r v s
  | .waitTimeout x => Sys2Proof.Machine.execWaitTimeout x s
  | .tsliceExpiry x core => Sys2Proof.Machine.execTsliceExpiry x core s
  -- semaphores
  | .semAcq r n => Sys2Proof.Machine.execSemAcq r n s
  | .semRel r n => Sys2Proof.Machine.execSemRel r n s
  | .semForce r v => Sys2Proof.Machine.execSemForce r v s
  -- redundancy
  | .sready x => Sys2Proof.Machine.execSready x s
  | .grantWaitExpiry => Sys2Proof.Machine.execGrantWaitExpiry s
  | .renew v => Sys2Proof.Machine.execRenew v s
  | .leaseExpiry => Sys2Proof.Machine.execLeaseExpiry s
  | .claspSwap r => Sys2Proof.Machine.execClaspSwap r s
  | .swapMarker => Sys2Proof.Machine.execSwapMarker s
  | .selfCheckReport x res => Sys2Proof.Machine.execSelfCheckReport x res s
  | .selfCheckTimeout x => Sys2Proof.Machine.execSelfCheckTimeout x s
  | .outX r x => Sys2Proof.Machine.execOutX r x s
  | .inX r x => Sys2Proof.Machine.execInX r x s
  | .recover r => Sys2Proof.Machine.execRecover r s
  | .pathClr r => Sys2Proof.Machine.execPathClr r s
  | .transferMarker => Sys2Proof.Machine.execTransferMarker s
  | .refillCopyDone => Sys2Proof.Machine.execRefillCopyDone s
  | .join => Sys2Proof.Machine.execJoin s
  | .refillRetry => Sys2Proof.Machine.execRefillRetry s
  | .drillStart => Sys2Proof.Machine.execDrillStart s
  | .drillDwellEnd => Sys2Proof.Machine.execDrillDwellEnd s
  -- errors and disabling
  | .memoryError x loc correctable => Sys2Proof.Machine.execMemoryError x loc correctable s
  | .lossMarkerPush x => Sys2Proof.Machine.execLossMarkerPush x s
  | .unitDisable r page => Sys2Proof.Machine.execUnitDisable r page s
  | .disableComplete page => Sys2Proof.Machine.execDisableComplete page s
  | .unitEnable r page => Sys2Proof.Machine.execUnitEnable r page s
  | .stall x strand => Sys2Proof.Machine.execStall x strand s
  -- events and host ports
  | .rearm r second src => Sys2Proof.Machine.execRearm r second src s
  | .modIntervalEnd second vec => Sys2Proof.Machine.execModIntervalEnd second vec s
  | .msixUnmask second vec => Sys2Proof.Machine.execMsixUnmask second vec s
  | .hostPortReset second kind => Sys2Proof.Machine.execHostPortReset second kind s
  | .chainWrite frame => Sys2Proof.Machine.execChainWrite frame s
  | .chainRead frame => Sys2Proof.Machine.execChainRead frame s
  | .fetch frame => Sys2Proof.Machine.execFetch frame s
  | .setAddress frame eni => Sys2Proof.Machine.execSetAddress frame eni s
  | .clrAddr r => Sys2Proof.Machine.execClrAddr r s
  | .winData r write => Sys2Proof.Machine.execWinData r write s
  | .ethFrameRx second frame fcsOk ts => Sys2Proof.Machine.execEthFrameRx second frame fcsOk ts s
  | .vidMapWrite r second v => Sys2Proof.Machine.execVidMapWrite r second v s
  | .hbootData r v => Sys2Proof.Machine.execHbootData r v s
  | .hbootGo r => Sys2Proof.Machine.execHbootGo r s
  -- power, wake, PMBus
  | .pdRequest r v => Sys2Proof.Machine.execPdRequest r v s
  | .quiesceDone => Sys2Proof.Machine.execQuiesceDone s
  | .quiesceTimeout => Sys2Proof.Machine.execQuiesceTimeout s
  | .pmbAck status => Sys2Proof.Machine.execPmbAck status s
  | .pmbTimeout => Sys2Proof.Machine.execPmbTimeout s
  | .retentionScanDone x lostBanks locketLost corrected => Sys2Proof.Machine.execRetentionScanDone x lostBanks locketLost corrected s
  | .wake n => Sys2Proof.Machine.execWake n s
  | .wakeI2cMatch addr => Sys2Proof.Machine.execWakeI2cMatch addr s
  | .wakeGo v => Sys2Proof.Machine.execWakeGo v s
  | .intClr v => Sys2Proof.Machine.execIntClr v s
  | .rawCmd r page v => Sys2Proof.Machine.execRawCmd r page v s
  | .pmbAlert page => Sys2Proof.Machine.execPmbAlert page s
  -- resets, clocks, pins
  | .porstAssert => Sys2Proof.Machine.execPorstAssert s
  | .porstRelease straps tamper => Sys2Proof.Machine.execPorstRelease straps tamper s
  | .imageVerifyDone x slotOk => Sys2Proof.Machine.execImageVerifyDone x slotOk s
  | .wrst tamper => Sys2Proof.Machine.execWrst tamper s
  | .warm r => Sys2Proof.Machine.execWarm r s
  | .sideReset r x => Sys2Proof.Machine.execSideReset r x s
  | .x32Switch => Sys2Proof.Machine.execX32Switch s
  | .clockLoss c => Sys2Proof.Machine.execClockLoss c s
  | .gpioWrite r dir v => Sys2Proof.Machine.execGpioWrite r dir v s
  | .ref10Valid => Sys2Proof.Machine.execRef10Valid s
  | .ethLinkChange second up speed => Sys2Proof.Machine.execEthLinkChange second up speed s
  | .ethTxComplete second ts => Sys2Proof.Machine.execEthTxComplete second ts s
  | .adcClip p => Sys2Proof.Machine.execAdcClip p s
  | .rawDone page nak pecErr data => Sys2Proof.Machine.execRawDone page nak pecErr data s
  | .replicaDisagree n holder token expiry => Sys2Proof.Machine.execReplicaDisagree n holder token expiry s
  | .railInRange bank => Sys2Proof.Machine.execRailInRange bank s

end Sys2Proof.Machine
end

