-- ==== Sys2Proof/Machine/Tick.lean ====
section
/-! DEFINITION. What the block does when no command waits: its clock ticks. -/

namespace Sys2Proof.Machine

open Sys2Proof

/-- A tick: LT advances by 1 ns while PORST_N is high, and by one count of the 32.768 kHz oscillator while XTAL or the commons are stopped (R38,
R58, R63, R549). JTAG sees its balls at each tick. DESIGN CHOICE: a step
on an empty queue is such a tick; what falls due at an LT has a command of its own. -/
def idleTick (s : State) : State :=
  let lt := if s.c.time.xtalStopped || s.c.sys.commonsStopped then coarseNext s.c.lt else s.c.lt + 1
  if s.c.sys.porstLow || decide (2 ^ 64 ≤ lt) then s else s.updC fun c => jtagTick s.variant (runTo c lt)

end Sys2Proof.Machine
end

