-- ==== Sys2Proof/Safety.lean ====
section
/-! DEFINITION. What the statements say of states and runs: that a step goes on, that nothing follows of itself, which way an
access takes, and what a command leaves as it is. -/

namespace Sys2Proof.Machine

open Sys2Proof

/-! ## Runs -/

/-- A step that goes on. -/
def goesOn (o : Host.Outcome State Fault Refusal) : Prop := ∃ t, o = .next t

/-- Nothing follows of itself in this state: no side consumes an input at once, Bezel passes nothing, no read completes. -/
def atRest (s : State) : Prop :=
  settleStep s = none ∧ (readFails s && !(openReads s).isEmpty) = false

/-! ## What a command leaves as it is -/

/-- Queue and variant are the same. -/
def sameMachine (s u : State) : Prop := u.pending = s.pending ∧ u.variant = s.variant

/-- The sides, the queue and the variant are the same: only the commons may differ. -/
def sameSides (s u : State) : Prop := u.a = s.a ∧ u.b = s.b ∧ sameMachine s u

/-- Only one side may differ. -/
def onlySide (x : SideId) (s u : State) : Prop := u.c = s.c ∧ u.side x.other = s.side x.other ∧ sameMachine s u

/-- Two stores agree on every register but those of one page. -/
def samePages (page : Nat) (t t' : Tab Word) : Prop :=
  ∀ p off idx, p < 128 → off < 4096 → p ≠ page → rdI t' p off idx = rdI t p off idx

/-- Two stores agree on every register but one of a page. -/
def sameBut (page off : Nat) (t t' : Tab Word) : Prop :=
  ∀ p o idx, p < 128 → o < 4096 → (p, o) ≠ (page, off) → rdI t' p o idx = rdI t p o idx

/-- What the units of the commons work on: everything but the registers, the receive buffer's count, Bezel, the events and the
host ports. -/
def sameWork (c c' : Commons) : Prop :=
  c'.lt = c.lt ∧ c'.time = c.time ∧ c'.tpo = c.tpo ∧ c'.rfS = c.rfS ∧ c'.rfM = c.rfM ∧ c'.rfH = c.rfH ∧ c'.duty = c.duty ∧
  c'.tamp = c.tamp ∧ c'.ibe = c.ibe ∧ c'.clasp = c.clasp ∧ c'.chain = c.chain ∧ c'.eth0 = c.eth0 ∧ c'.eth1 = c.eth1 ∧
  c'.pd = c.pd ∧ c'.pmb = c.pmb ∧ c'.sys = c.sys ∧ c'.jtag = c.jtag ∧ c'.lastRead = c.lastRead

/-- What the units of a side work on: everything but the registers, its queues, its event record and the dispatcher. -/
def sameUnits (d d' : Side) : Prop :=
  d'.now = d.now ∧ d'.tick = d.tick ∧ d'.point = d.point ∧ d'.token = d.token ∧ d'.trng = d.trng ∧ d'.strand = d.strand ∧
  d'.mesh = d.mesh ∧ d'.node = d.node ∧ d'.key = d.key ∧ d'.mram = d.mram ∧ d'.fw = d.fw ∧ d'.pend = d.pend ∧
  d'.trowel = d.trowel ∧ d'.sess = d.sess ∧ d'.pmb = d.pmb ∧ d'.air = d.air ∧ d'.chans = d.chans ∧ d'.reads = d.reads ∧
  d'.draws = d.draws ∧ d'.cmem = d.cmem ∧ d'.seen = d.seen

/-- The work of the commons, the units of both sides, the queue and the variant are the same. -/
def sameBlock (s t : State) : Prop := sameWork s.c t.c ∧ sameUnits s.a t.a ∧ sameUnits s.b t.b ∧ sameMachine s t

/-- Only registers of the commons may differ, and what is noted of the present cycle (R11, R477). -/
def onlyRegs (s u : State) : Prop :=
  sameSides s u ∧ u.c = { s.c with regs := u.c.regs, freshAt := u.c.freshAt, fresh := u.c.fresh, writes := u.c.writes }

/-- Only registers of one side may differ, and what is noted of the errors of the present input (R11). -/
def onlySideRegs (x : SideId) (s u : State) : Prop :=
  onlySide x s u ∧ u.side x = { s.side x with regs := (u.side x).regs, errAt := (u.side x).errAt, errNow := (u.side x).errNow }

/-- One register is set and every other register of the store reads as before. -/
def setsReg (page off idx : Nat) (v : Word) (t t' : Tab Word) : Prop :=
  rdI t' page off idx = v ∧
  ∀ p o i, p < 128 → o < 4096 → (p, o, i) ≠ (page, off, idx) → rdI t' p o i = rdI t p o i

/-- A counter one on, saturating (R122 and the like). -/
def oneMore (w : Word) : Word := w32 (min (2 ^ 32 - 1) (w.toNat + 1))

/-- Of the commons only one port, the registers and the duty-cycle buckets may differ. -/
def onlyPort (p : RPort) (s u : State) : Prop :=
  sameSides s u ∧ (∀ q, q ≠ p → u.c.port q = s.c.port q) ∧
  u.c = { s.c with rfS := u.c.rfS, rfM := u.c.rfM, rfH := u.c.rfH, regs := u.c.regs, duty := u.c.duty
                   freshAt := u.c.freshAt, fresh := u.c.fresh }

/-- The burst at a place of a carrier is its first that satisfies a test. -/
def firstBurst (k : Carrier) (f : Burst → Bool) (i : Nat) (b : Burst) : Prop :=
  k.bursts[i]? = some b ∧ f b = true ∧ ∀ j c, j < i → k.bursts[j]? = some c → f c = false

/-- The airtime of a burst is charged to its channel's dwell window, in the sub-bucket now, and to no other (R120). -/
def chargesDwell (s u : State) (p : RPort) (b : Burst) : Prop :=
  let k := b.launch.ch * 16 + (s.c.port p).dwellIdx
  (u.c.port p).dwell.find k = some (((s.c.port p).dwell.find k).getD 0 + b.air) ∧
  ∀ j, j ≠ k → (u.c.port p).dwell.find j = (s.c.port p).dwell.find j

/-- An airtime is charged to an account's bucket now, and to no other (R116, R117). -/
def chargesDuty (s u : State) (acct air : Nat) : Prop :=
  let k := acct * 64 + s.c.duty.idx
  u.c.duty.use.find k = some ((s.c.duty.use.find k).getD 0 + air) ∧
  ∀ j, j ≠ k → u.c.duty.use.find j = s.c.duty.use.find j

/-! ## Ways of an access -/

/-- A host port, the chain port or JTAG is there, no write of its own waits, and for JTAG Loupe is open (R4, R314, R491). -/
def wayFree (s : State) (r : Requester) : Prop :=
  r.presentOn s.variant.full = true ∧ r.isCore = false ∧
  (s.c.bezel.waiting.any fun w => decide (w.1 = r.source)) = false ∧ (r = .jtag → jtagOpen s.c = true)

/-- A register of a commons page takes a write of a requester: it exists, an expert register has EXPERT set, its page's domain
is on (R3, R6, R469, R526, R553). -/
def takesWrite (s : State) (r : Requester) (page off : Nat) : Prop :=
  (∃ row, regRow page off = some row ∧ (row.expert = true → rb s.c.regs page Reg.HDR_CTRL 1 = true)) ∧
  pagePresent s.variant page = true ∧ pageDark s page = false ∧ ¬ (page = Pg.RST ∧ r.isCore = true) ∧
  ibeRefuses r page off = false

/-- The effective word of a whole write to a register of a commons page: what each of its fields is written with (R10). -/
def wordTaken (s : State) (page off : Nat) (v : Word) : Word :=
  match regRow page off with
  | some row => row.effect (rb s.c.regs page Reg.HDR_LOCK 0) (rdI s.c.regs page off (commonsIdx s.c.regs page off)) v 15
  | none => 0

/-- A core of a side runs and writes its own side's pages at once (R19, R476): the side's SIDE domain is on. -/
def ownWay (s : State) (x : SideId) : Prop :=
  coresRun s x = true ∧ s.c.pd.dom x.num = .on

/-! ## What a side does with a command -/

/-- A command is work of one side: the side, while it runs, does it, at the LT now and with the settings of the commons that it has
seen (R16), and nothing else changes; a side that does not run changes nothing. What follows of itself comes after (R15, R17). -/
def sideDoes (i : Instr) (x : SideId) (f : Variant → Nat → Commons → Side → Side) : Prop :=
  ∀ s : State, (sideRun s x = true → exec i s = .next (fin (s.upd x fun d => f s.variant s.c.lt d.view d))) ∧
    (sideRun s x = false → exec i s = .next (fin s))

/-- A command is a side's consumption of one kind of input: the side takes it off its queue, its now and its sequence point follow
it (R17, R422), the settings of the commons that came with it are those it knows (R16), and it does what the input asks; nothing
else changes. -/
def sideTakes (i : Instr) (x : SideId) (inp : Input) (f : Variant → Nat → Commons → Seqd → Side → Side) : Prop :=
  ∀ (s : State) (q : Seqd), nextInput s x = some q → q.inp = inp →
    exec i s = .next (fin (s.upd x fun d => f s.variant s.c.lt (d.consume q).view q (d.consume q)))

/-- A command is a write to a register of the side pages. A core's side does it at once, and nothing else changes (R19, R476). A
port's write is an input of both sides (R16, R22): sequenced while the sequencer accepts and nothing of the port waits, else it
waits; a side that reaches it does it then, at its place in sequence order. -/
def sideRegister (i : Requester → Instr) (page off : Nat) (v : Word) (f : Variant → Nat → Commons → Side → Side) : Prop :=
  (∀ (s : State) (x : SideId), ownWay s x →
    exec (i (.core x)) s = .next (fin (s.upd x fun d => f s.variant s.c.lt d.view d))) ∧
  (∀ (s : State) (r : Requester), mayAccess s r (regAddr r page off) = true → r.isCore = false →
    exec (i r) s = .next (fin ((posted s r).offer r.source (pairedInput r (regAddr r page off) v 15)))) ∧
  (∀ (s : State) (r : Requester) (x : SideId) (q : Seqd), r.isCore = false → s.c.pd.dom x.num = .on →
    q.inp = pairedInput r (regAddr r page off) v 15 →
    takeInput s x q = some (s.upd x fun d => f s.variant s.c.lt (d.consume q).view (d.consume q)))

/-- A counter of a page is one on. -/
def counts (page off : Nat) (t t' : Tab Word) : Prop := rd t' page off = oneMore (rd t page off)

end Sys2Proof.Machine
end

