-- ==== Sys2Proof/Certificates/Slice0/Obligations.lean ====
section
/-! DEFINITION. The statements about the block. -/

open Sys2Proof Sys2Proof.Machine

/-- A step is the command at the front of the queue, done on the block with the rest of the queue. -/
def Obligations.StepDoesTheFrontCommand : Prop :=
  ∀ (s : State) (c : Instr) (rest : List Instr),
    step { s with pending := c :: rest } = exec c { s with pending := rest }

/-- With no command waiting LT advances by 1 ns while PORST_N is high and LT has room (while XTAL or the commons are stopped, by
one count of the 32.768 kHz oscillator), of the registers only BUSY_ACC of the ports changes with it, and JTAG sees its balls;
while PORST_N is low nothing changes. The model's choice: log entry 3. -/
def Obligations.IdleStepIsATick : Prop :=
  ∀ s : State, s.pending = [] →
    let lt := if s.c.time.xtalStopped || s.c.sys.commonsStopped then coarseNext s.c.lt else s.c.lt + 1
    (s.c.sys.porstLow = false → lt < 2 ^ 64 →
      ∃ t, step s = .next t ∧ sameSides s t ∧ t.c = { s.c with lt := lt, regs := t.c.regs, jtag := t.c.jtag } ∧
        ∀ p o i, p < 128 → o < 4096 → o ≠ Reg.FACET_BUSY_ACC → rdI t.c.regs p o i = rdI s.c.regs p o i) ∧
    (s.c.sys.porstLow = true → step s = .next s)

/-- No command ends in a fault or a refusal. -/
def Obligations.EveryCommandGoesOn : Prop := ∀ (i : Instr) (s : State), goesOn (exec i s)

/-- Every step takes one command off the front of the queue, first in first out, and the variant never changes. -/
def Obligations.QueueFirstInFirstOut : Prop :=
  ∀ s t : State, step s = .next t → t.pending = s.pending.tail ∧ t.variant = s.variant

/-- LT never decreases in a step, unless the step's command asserts or releases PORST_N. -/
def Obligations.LtNeverDecreases : Prop :=
  (∀ s t : State, s.pending.head? ≠ some .porstAssert →
    (∀ straps tamper, s.pending.head? ≠ some (.porstRelease straps tamper)) → step s = .next t → s.c.lt ≤ t.c.lt) ∧
  (∀ (s : State) (lt : Nat), s.c.sys.porstLow = false → s.c.lt < lt →
    ∃ u, exec (.timeInput lt) s = .next (fin u) ∧ u.c.lt = lt ∧ s.c.lt < u.c.lt)

/-- Reset: LT is 0, no command waits, every register reads its reset value, both sides are off, no lease is held. Where the spec
is silent a clause follows the model's choice, log entries 6 and 9. -/
def Obligations.ResetState : Prop :=
  State.reset.c.lt = 0 ∧ State.reset.pending = [] ∧ State.reset.c.bezel.stA = .off ∧ State.reset.c.bezel.stB = .off ∧
  State.reset.c.clasp.holder = none ∧
  (∀ p o i, rdI State.reset.c.regs p o i = regReset p o ∧ rdI State.reset.a.regs p o i = regReset p o ∧
    rdI State.reset.b.regs p o i = regReset p o)

/-- Bringing events, messages and the summary up to date leaves the work of the commons and the units of both sides alone, where
Bezel does not find the sides too far apart. Where nothing follows of itself, the end of a command is bringing events, messages
and the summary up to date. -/
def Obligations.FinishSettlesAndRefreshes : Prop :=
  (
  ∀ s : State,
    (s.c.bezel.compares = false ∨ (s.c.bezel.seenA = s.a.point ∧ s.c.bezel.seenB = s.b.point)) →
    sameBlock s (refresh s)) ∧
  (
  ∀ s : State, atRest s → fin s = refresh s)

/-- A register reads as it was written, no other register changes, and the store stays in canonical form. -/
def Obligations.RegisterStore : Prop :=
  ∀ (t : Tab Word) (p o i : Nat) (v : Word), t.wf = true →
    rdI (wrI t p o i v) p o i = v ∧ (wrI t p o i v).wf = true ∧
    ∀ p' o' i', p < 128 → p' < 128 → o < 4096 → o' < 4096 → (p', o', i') ≠ (p, o, i) →
      rdI (wrI t p o i v) p' o' i' = rdI t p' o' i'

/-- The access codes of R10: what a field of a register holds after a write, where `be` are the enabled bytes of R468. RW takes
the enabled bytes, RO keeps, W1C clears the bits written with 1, W1S sets them, WO reads zero, RWL is RW until it is locked. -/
def Obligations.AccessCodes : Prop :=
  ∀ (f : RegField) (locked : Bool) (old v : Word) (be : Nat), f.lo ≤ f.hi → f.hi < 32 →
    let n := f.after old (setFld 0#32 f.hi f.lo (f.effect locked old v be))
    (f.acc = .ro → n = fld old f.hi f.lo) ∧
    (f.acc = .wo → n = 0) ∧
    (f.acc = .rw ∨ (f.acc = .rwl ∧ locked = false) → f.lim = none → f.mask &&& beMask be ≠ 0 →
      n = fld (mergeBytes old v be) f.hi f.lo) ∧
    (f.acc = .rw ∨ f.acc = .rwl → f.mask &&& beMask be = 0 → n = fld old f.hi f.lo) ∧
    (f.acc = .rwl ∧ locked = true → n = fld old f.hi f.lo) ∧
    (∀ b, b ≤ f.hi - f.lo → f.acc = .w1c →
      nbit n b = (bitOf old (f.lo + b) && !bitOf (v &&& beMask be) (f.lo + b))) ∧
    (∀ b, b ≤ f.hi - f.lo → f.acc = .w1s →
      nbit n b = (bitOf old (f.lo + b) || bitOf (v &&& beMask be) (f.lo + b)))

/-- REGISTER_WRITE of a port (R3, R10, R468, R477): the write to a register of a commons page takes effect there at once, after it
is counted. The enabled bytes of a plain register (EVT_EN of its header) that no other write of the cycle has named are replaced
and nothing else changes; a write to the page of an absent unit changes nothing else. SIDE_RANGE_WRITE (R22): a port's write
through a side's range acts on the side-local registers of its PMBus page at once; on any other register it is ignored and sets
DIRECT_WR. Reads through the side ranges change nothing but the count of reads. A core's register accesses (R19, R476): its own
side's registers at once, a LO register of DISP latching its HI register (R417); a commons register as an output transaction,
whose read result comes back as an input; its memory, the program and data region, at once (R14). Where the spec is silent a
clause follows the model's choice, log entries 35, 41, 42, 97 and 112. -/
def Obligations.RegisterAccesses : Prop :=
  (
  ∀ (s : State) (r : Requester) (page : Nat) (v : Word) (be : Nat), wayFree s r → page < 64 →
    (∀ off, off < 4096 → off % 4 = 0 → ¬ (page = Pg.CHAIN ∧ off = Reg.CHAIN_WIN_DATA) →
      exec (.registerWrite r (regAddr r page off) v be) s = .next (fin (commonsWrite (posted s r) r page off v be))) ∧
    (takesWrite s r page Reg.HDR_EVT_EN → s.c.writes.lt ≠ s.c.lt →
      ∃ u, exec (.registerWrite r (regAddr r page Reg.HDR_EVT_EN) v be) s = .next (fin u) ∧ onlyRegs (posted s r) u ∧
        setsReg page Reg.HDR_EVT_EN 0 (mergeBytes (rd s.c.regs page Reg.HDR_EVT_EN) v be) (posted s r).c.regs u.c.regs) ∧
    (pagePresent s.variant page = false → ∀ off, off < 4096 → off % 4 = 0 → ¬ (page = Pg.CHAIN ∧ off = Reg.CHAIN_WIN_DATA) →
      exec (.registerWrite r (regAddr r page off) v be) s = .next (fin (posted s r)))) ∧
  (
  ∀ (s : State) (r : Requester) (x : SideId) (page off : Nat) (v : Word) (be : Nat), wayFree s r →
    64 ≤ page → page < 96 → off < 4096 → off % 4 = 0 → (s.variant.full = true ∨ x = .a) →
    (page ≠ Pg.SPMB → (regRow page off).isSome = true →
      exec (.sideRangeWrite r (4096 * (page + 32 * (x.num - 1)) + off) v be) s =
        .next (fin ((posted s r).errCode Pg.BEZEL 1 5))) ∧
    (page = Pg.SPMB →
      exec (.sideRangeWrite r (4096 * (page + 32 * (x.num - 1)) + off) v be) s =
        .next (fin (sideWrite (posted s r) x r page off v be))) ∧
    (page ≠ Pg.SPMB → (regRow page off).isSome = false →
      exec (.sideRangeWrite r (4096 * (page + 32 * (x.num - 1)) + off) v be) s = .next (fin (posted s r))) ∧
    (∃ u, exec (.pairedWindowRead r (4096 * (page + 32 * (x.num - 1)) + off)) s = .next (fin u) ∧ u.a = s.a ∧ u.b = s.b ∧
      u.c.lastRead = some (r, sideReadAt s x page off) ∧ u.c.bezel = s.c.bezel)) ∧
  (
  ∀ (s : State) (x : SideId) (page off : Nat) (v : Word) (be : Nat), off < 4096 →
    (ownWay s x → 64 ≤ page → page < 96 → page ≠ Pg.SPMB →
      exec (.pairedWindowWrite (.core x) (regAddr (.core x) page off) v be) s =
        .next (fin (s.upd x fun d => d.write s.variant d.view s.c.lt (.core x) page off v be)) ∧
      exec (.pairedWindowRead (.core x) (regAddr (.core x) page off)) s =
        .next (fin ((s.upd x fun d => d.latchHi page off).updC fun c =>
          { c with lastRead := some (.core x, sideRead s.variant x (s.side x) page off) }))) ∧
    (coresRun s x = true → page < 64 → ¬ (page = Pg.TPO ∧ (off = Reg.TPO_GPIO_OUT ∨ off = Reg.TPO_GPIO_DIR)) →
      exec (.registerWrite (.core x) (regAddr (.core x) page off) v be) s =
        .next (fin (s.upd x fun d => d.emit (.regWrite page off v be)))) ∧
    (coresRun s x = true → page < 64 → ¬ (page = Pg.IBE ∧ off = Reg.IBE_SYM_NEXT) →
      exec (.pairedWindowRead (.core x) (regAddr (.core x) page off)) s =
        .next (fin (s.upd x fun d => ({ d with reads := d.reads ++ [(page, off, false)] }).emit (.regRead page off)))) ∧
    (∀ a, coresRun s x = true → a + 4 ≤ coreMemEnd →
      exec (.registerWrite (.core x) a v be) s = .next (fin (s.upd x fun d => d.cmemWrite a v be))))

/-- PAIRED_WINDOW_WRITE and PAIRED_WINDOW_READ of a port (R15, R17, R22, R426, R491): the write or the read marker is one input.
While the sequencer accepts and nothing of the port waits, it is numbered, carries LT, and joins the queue of every side that
takes part; else it waits behind what the port has waiting. A side that reaches it takes the write at its place in sequence order;
the read's value is that of the side that answers, and is returned when that side reaches the marker. What sequencing an input
does (R15, R17): it takes the next number and the LT now, and every side that takes part finds it at the end of its queue; nothing
else changes but the sequencer's own account. Where the spec is silent a clause follows the model's choice, log entry 41. -/
def Obligations.PairedWindowIsSequenced : Prop :=
  (
  ∀ (s : State) (r : Requester) (page off : Nat) (v : Word) (be : Nat), mayAccess s r (regAddr r page off) = true →
    r.isCore = false → 64 ≤ page → page < 96 → off < 4096 → off % 4 = 0 →
    let a := regAddr r page off
    (seqBlocked s = false → (s.c.bezel.waiting.any fun w => decide (w.1 = r.source)) = false →
      exec (.pairedWindowWrite r a v be) s = .next (fin ((posted s r).sequence (pairedInput r a v be))) ∧
      (readFails s = false → exec (.pairedWindowRead r a) s = .next (fin (s.sequence (.readMarker r a true))))) ∧
    (seqBlocked s = true ∨ (s.c.bezel.waiting.any fun w => decide (w.1 = r.source)) = true →
      exec (.pairedWindowWrite r a v be) s = .next (fin ((posted s r).updZ fun z =>
        { z with waiting := z.waiting ++ [(r.source, pairedInput r a v be)] }))) ∧
    (∀ (x : SideId) (q : Seqd), q.inp = .pairedWrite r a v be →
      takeInput s x q = some (sideWrite (s.upd x fun d => d.consume q) x r page off v be)) ∧
    (∀ (x : SideId) (q : Seqd), q.inp = .readMarker r a true → answerer s = x → s.c.bezel.compares = false →
      s.c.bezel.reads = [] →
      ∃ t, takeInput s x q = some t ∧
        t.c.lastRead = some (r, sideReadAt (s.upd x fun d => d.consume q) x page off))) ∧
  (
  ∀ (s : State) (i : Input),
    let q : Seqd := { seq := s.c.bezel.seq, lt := s.c.lt, inp := i, seen := s.c.seen }
    let u := s.sequence i
    u.c.bezel.seq = s.c.bezel.seq + 1 ∧ u.c = { s.c with bezel := u.c.bezel } ∧
    u.c.bezel = { s.c.bezel with seq := u.c.bezel.seq, timeAt := u.c.bezel.timeAt } ∧ sameMachine s u ∧
    u.a = { s.a with inq := u.a.inq } ∧ u.b = { s.b with inq := u.b.inq } ∧
    u.a.inq = (if s.c.bezel.receives .a then s.a.inq ++ [q] else s.a.inq) ∧
    u.b.inq = (if s.c.bezel.receives .b then s.b.inq ++ [q] else s.b.inq))

/-- ERR_STICKY_CLEAR (R446): a port on a commons page, a core on a page of its own side. The bits written with 1 are cleared;
ERR_FIRST and ERR_LT are cleared by the write that leaves no unmasked bit set, and keep their values otherwise. Of a commons page
this holds where hardware has set none of the bits in the same cycle; such a bit stays set (R11). ERR_MASK_WRITE (R447, R443 to
R445): the mask is stored; a set bit that the write unmasks is recorded if ERR_FIRST is 0, the lowest of them with its code and
the LT of the write (a side's now on a side page). -/
def Obligations.ErrorRecords : Prop :=
  (
  let clears (page : Nat) (v : Word) (t t' : Tab Word) : Prop :=
    let left := rd t page Reg.HDR_ERR_STICKY &&& ~~~v
    rd t' page Reg.HDR_ERR_STICKY = left ∧
    rd t' page Reg.HDR_ERR_FIRST = (if left &&& ~~~(rd t page Reg.HDR_ERR_MASK) = 0 then 0 else rd t page Reg.HDR_ERR_FIRST) ∧
    rd t' page Reg.HDR_ERR_LT = (if left &&& ~~~(rd t page Reg.HDR_ERR_MASK) = 0 then 0 else rd t page Reg.HDR_ERR_LT) ∧
    ∀ p o i, p < 128 → o < 4096 → ¬ (p = page ∧ (o = Reg.HDR_ERR_STICKY ∨ o = Reg.HDR_ERR_FIRST ∨ o = Reg.HDR_ERR_LT)) →
      rdI t' p o i = rdI t p o i
  (∀ (s : State) (r : Requester) (page : Nat) (v : Word), wayFree s r → page < 64 → takesWrite s r page Reg.HDR_ERR_STICKY →
    ∃ u, exec (.errStickyClear r page v) s = .next (fin u) ∧ onlyRegs (posted s r) u ∧
      (s.c.freshBits page Reg.HDR_ERR_STICKY = 0 → clears page v (posted s r).c.regs u.c.regs) ∧
      rd u.c.regs page Reg.HDR_ERR_STICKY =
        rd s.c.regs page Reg.HDR_ERR_STICKY &&& ~~~(v &&& ~~~s.c.freshBits page Reg.HDR_ERR_STICKY)) ∧
  (∀ (s : State) (x : SideId) (page : Nat) (v : Word), ownWay s x → 64 ≤ page → page < 96 → page ≠ Pg.SPMB →
    (regRow page Reg.HDR_ERR_STICKY).isSome = true →
    ∃ u, exec (.errStickyClear (.core x) page v) s = .next (fin u) ∧ onlySideRegs x s u ∧
      clears page v (s.side x).regs (u.side x).regs)) ∧
  (
  let stores (page cause lt : Nat) (v : Word) (t t' : Tab Word) : Prop :=
    let fresh := rd t page Reg.HDR_ERR_STICKY &&& rd t page Reg.HDR_ERR_MASK &&& ~~~v
    rd t' page Reg.HDR_ERR_MASK = v ∧
    (fresh = 0 ∨ rd t page Reg.HDR_ERR_FIRST ≠ 0 →
      rd t' page Reg.HDR_ERR_FIRST = rd t page Reg.HDR_ERR_FIRST ∧ rd t' page Reg.HDR_ERR_LT = rd t page Reg.HDR_ERR_LT) ∧
    (∀ b, b < 32 → bitOf fresh b = true → (∀ k, k < b → bitOf fresh k = false) → rd t page Reg.HDR_ERR_FIRST = 0 →
      rd t' page Reg.HDR_ERR_FIRST = w32 (errCode page b cause) ∧ rd t' page Reg.HDR_ERR_LT = w32 lt) ∧
    ∀ p o i, p < 128 → o < 4096 → ¬ (p = page ∧ (o = Reg.HDR_ERR_MASK ∨ o = Reg.HDR_ERR_FIRST ∨ o = Reg.HDR_ERR_LT)) →
      rdI t' p o i = rdI t p o i
  (∀ (s : State) (r : Requester) (page : Nat) (v : Word), wayFree s r → page < 64 → takesWrite s r page Reg.HDR_ERR_MASK →
    ∃ u, exec (.errMaskWrite r page v) s = .next (fin u) ∧ onlyRegs (posted s r) u ∧
      stores page s.c.bezel.lastCause s.c.lt v (posted s r).c.regs u.c.regs) ∧
  (∀ (s : State) (x : SideId) (page : Nat) (v : Word), ownWay s x → 64 ≤ page → page < 96 → page ≠ Pg.SPMB →
    (regRow page Reg.HDR_ERR_MASK).isSome = true →
    ∃ u, exec (.errMaskWrite (.core x) page v) s = .next (fin u) ∧ onlySideRegs x s u ∧
      stores page 0 (s.side x).now v (s.side x).regs (u.side x).regs))

/-- LOCK_WRITE and CNT_CLR (R471, R122 and the like): a LOCK bit written with 1 is set and stays set; a CNT_CLR of a port's own or
the sequencer's pages clears every counter of the page and changes no other page. Where the spec is silent a clause follows the
model's choice, log entry 37. -/
def Obligations.LockAndCounterClear : Prop :=
  (∀ (s : State) (r : Requester) (page : Nat) (v : Word), wayFree s r → page < 64 → takesWrite s r page Reg.HDR_LOCK →
    ∃ u, exec (.lockWrite r page v) s = .next (fin u) ∧ onlyRegs (posted s r) u ∧
      (∀ n, n < 2 → rb u.c.regs page Reg.HDR_LOCK n = (rb s.c.regs page Reg.HDR_LOCK n || bitOf v n)) ∧
      sameBut page Reg.HDR_LOCK (posted s r).c.regs u.c.regs) ∧
  (∀ (s : State) (x : SideId) (page : Nat) (v : Word), ownWay s x → 64 ≤ page → page < 96 → page ≠ Pg.SPMB →
    (regRow page Reg.HDR_LOCK).isSome = true →
    ∃ u, exec (.lockWrite (.core x) page v) s = .next (fin u) ∧ onlySideRegs x s u ∧
      (∀ n, n < 2 → rb (u.side x).regs page Reg.HDR_LOCK n = (rb (s.side x).regs page Reg.HDR_LOCK n || bitOf v n)) ∧
      sameBut page Reg.HDR_LOCK (s.side x).regs (u.side x).regs) ∧
  (∀ (s : State) (r : Requester) (page clr lo hi : Nat), wayFree s r → page < 64 → (page, clr, lo, hi) ∈ counterMap →
    takesWrite s r page clr →
    ∃ u, exec (.cntClr r page) s = .next (fin u) ∧ sameSides (posted s r) u ∧
      (∀ o i, lo ≤ o → o ≤ hi → rdI u.c.regs page o i = regReset page o) ∧ samePages page (posted s r).c.regs u.c.regs ∧
      u.c.lt = s.c.lt ∧ u.c.time = s.c.time ∧ u.c.rfS = s.c.rfS ∧ u.c.rfM = s.c.rfM ∧ u.c.rfH = s.c.rfH ∧
      u.c.clasp = s.c.clasp ∧ u.c.pd = s.c.pd ∧ u.c.sys = s.c.sys)

/-- INPUT_SEQUENCED (R15, R20, R21, R42): the oldest waiting input of a source is sequenced once the sequencer accepts, a time
input at an LT later than that of the time input before it; while the source is back-pressured nothing happens. A waiting write
that needs no sequencing acts then (R491). A received frame is sequenced once both sides have taken what came before; a good one
is counted by its class, one with a bad FCS is not (R147). TRNG_WORD (R18, R603): a word that the sequencer accepts is sequenced,
one that it cannot accept is dropped for both sides. Where the spec is silent a clause follows the model's choice, log entries 4,
71 and 114. -/
def Obligations.WaitingInputs : Prop :=
  (
  (∀ (s : State) (src : InputSource) (i : Input) (rest : List (InputSource × Input)), src ≠ .radio →
    takeWaiting src s.c.bezel.waiting = some (i, rest) → i.direct = none →
    (seqBlocked s = false → ¬ (i.isTime = true ∧ s.c.bezel.timeAt = some s.c.lt) →
      exec (.inputSequenced src) s = .next (fin ((s.updZ fun z => { z with waiting := rest }).sequence i))) ∧
    (seqBlocked s = true ∨ (i.isTime = true ∧ s.c.bezel.timeAt = some s.c.lt) →
      exec (.inputSequenced src) s = .next (fin s))) ∧
  (∀ (s : State) (src : InputSource) (i : Input) (rest : List (InputSource × Input)) (r : Requester) (off be : Nat) (v : Word),
    src ≠ .radio → takeWaiting src s.c.bezel.waiting = some (i, rest) → i.direct = some (r, off, v, be) →
    exec (.inputSequenced src) s =
      .next (fin (directWrite ((s.updZ fun z => { z with waiting := rest }).updC Commons.openCycle) r off v be))) ∧
  (∀ (s : State) (f : RxFrame) (rest : List RxFrame), s.c.air.rxbuf = f :: rest → seqOpen s = true → lagging s = false →
    catchFull s = false →
    ∃ u, exec (.inputSequenced .radio) s = .next (fin (u.sequence (.rxFrame f))) ∧ sameSides s u ∧ u.c.air.rxbuf = rest ∧
      u.c = { s.c with air := { s.c.air with rxbuf := rest }, regs := u.c.regs } ∧
      (f.rx.rxStatus ≠ 0 → u.c.regs = s.c.regs) ∧
      (f.rx.rxStatus = 0 →
        setsReg Pg.AIR (classCounter f.rx.airClass) 0 (oneMore (rd s.c.regs Pg.AIR (classCounter f.rx.airClass)))
          s.c.regs u.c.regs))) ∧
  (
  ∀ (s : State) (w : Word64), unitsRun s = true →
    ((seqBlocked s || s.c.bezel.waiting.any fun e => decide (e.1 = .units)) = false →
      ∃ u, exec (.trngWord w) s = .next (fin (u.sequence (.trng w))) ∧ sameSides s u ∧
        u.c = { s.c with tamp := u.c.tamp, regs := u.c.regs }) ∧
    ((seqBlocked s || s.c.bezel.waiting.any fun e => decide (e.1 = .units)) = true → exec (.trngWord w) s = .next (fin s)))

/-- What a side does with an input it consumes, beside its effect (R17, R422): its now is the LT that the input carries, its
sequence point is past it, the settings of the commons are those that came with it, and the input leaves its queue.
SIDE_TIME_INPUT and SIDE_COMMONS_EVENT (R17, R61, R62, R231, R479 to R481): only the side that consumes the input changes. A
commons source's change of state is kept in the side's event record; a setting of AIR or of the channel plan reaches the side's
copy. Where the spec is silent a clause follows the model's choice, log entry 44. -/
def Obligations.SidesConsumeInputs : Prop :=
  (
  ∀ (d : Side) (i : Seqd) (rest : List Seqd), d.inq = i :: rest →
    let e := d.consume i
    e.now = i.lt ∧ e.point = i.seq + 1 ∧ e.inq = rest ∧
    e = { d with now := i.lt, point := i.seq + 1, inq := rest, seen := i.seen, fw := e.fw } ∧
    (d.fw.phase ≠ 1 → e.fw = d.fw)) ∧
  (
  (∀ (s : State) (x : SideId) (i : Seqd) (step : Nat) (acq rebase : Bool), nextInput s x = some i → i.inp = .time step acq rebase →
    exec (.sideTimeInput x) s =
      .next (fin (s.upd x fun d => (d.consume i).timeInput s.variant (d.consume i).view s.c.lt step acq rebase))) ∧
  (∀ (s : State) (x : SideId) (i : Seqd) (src : Nat) (on : Bool), nextInput s x = some i → i.inp = .sourceState src on →
    ∃ u, exec (.sideCommonsEvent x) s = .next (fin u) ∧ onlySide x s u ∧
      (u.side x).evt.commonsPend = (if on then insNat src (s.side x).evt.commonsPend
        else (s.side x).evt.commonsPend.filter (· ≠ src)) ∧ (u.side x).now = i.lt ∧ (u.side x).point = i.seq + 1) ∧
  (∀ (s : State) (x : SideId) (i : Seqd) (off : Nat) (v : Word), nextInput s x = some i → i.inp = .notice (.airWrite off v) →
    ∃ u, exec (.sideCommonsEvent x) s = .next (fin u) ∧ onlySide x s u ∧ rd (u.side x).air Pg.AIR off = v) ∧
  (∀ (s : State) (x : SideId) (i : Seqd) (p : RPort) (idx : Nat) (k : ChanDef), nextInput s x = some i →
    i.inp = .notice (.chzCommit p idx k) →
    ∃ u, exec (.sideCommonsEvent x) s = .next (fin u) ∧ onlySide x s u ∧
      (u.side x).chans.find (p.num * 256 + idx) = some k))

/-- OUTPUT_OFFER while both sides are compared and nothing else of theirs waits at Bezel (R24, R25, R427): the first member is
held until its twin arrives; a pair that matches passes from the holder and its twin is discarded; a pair that differs is a
mismatch with cause DATA whose point is that of the member offered first. OUTPUT_OFFER of a side that works alone (R26 to R28):
what it offers with the TOKEN due passes without comparison. Where the spec is silent a clause follows the model's choice, log
entries 84 and 87. -/
def Obligations.OutputsPass : Prop :=
  (
  ∀ (s : State) (x h : SideId) (t : Txn) (rest : List Txn), s.variant.full = true → s.c.bezel.compares = true →
    s.c.bezel.held = false → s.c.clasp.holder = some h → (s.side x).outq = t :: rest → s.c.bezel.heldOf x = [] →
    s.c.bezel.joinPoint < t.point →
    (s.c.bezel.heldOf x.other = [] →
      ∃ u, exec (.outputOffer x none true) s = .next (fin u) ∧ u.c.bezel.heldOf x = [(s.c.lt, t)] ∧ (u.side x).outq = rest ∧
        u.c = { s.c with bezel := u.c.bezel } ∧ u.side x.other = s.side x.other) ∧
    (∀ (l : Nat) (t' : Txn), s.c.bezel.heldOf x.other = [(l, t')] → s.c.bezel.joinPoint < t'.point →
      (t'.body = t.body → t'.token = tokenDue s t'.point → t.token = tokenDue s t.point → t'.point = t.point →
        s.c.clasp.grantPoint ≤ t.point →
        ∃ u, exec (.outputOffer x none true) s = .next (fin (pass (gapEnds u) h t.body)) ∧
          u.c.bezel.heldA = [] ∧ u.c.bezel.heldB = [] ∧ (u.side x).outq = rest ∧ u.c = { s.c with bezel := u.c.bezel } ∧
          u.side x.other = s.side x.other) ∧
      (t'.body ≠ t.body → t'.body.cls = t.body.cls → l < s.c.lt →
        ∃ u, exec (.outputOffer x none true) s = .next (fin u) ∧ u.c.bezel.lastCause = 1 ∧ u.c.bezel.misSeq = t'.point - 1 ∧
          u.c.bezel.hold.isSome = true ∧ u.c.bezel.stA = .selfCheck ∧ u.c.bezel.stB = .selfCheck))) ∧
  (
  ∀ (s : State) (x : SideId) (t : Txn) (rest : List Txn), s.c.bezel.st x = .alone → soloSide s = some x → s.c.bezel.held = false →
    s.c.clasp.holder = some x → (s.side x).outq = t :: rest → s.c.bezel.heldOf x = [] → s.c.bezel.refill = none →
    t.token = tokenDue s t.point →
    exec (.outputOffer x none true) s =
      .next (fin (pass (gapEnds ((s.upd x fun d => { d with outq := rest }).updZ fun z => z.setHeld x [])) x t.body)))

/-- SKEW_TIMEOUT and what a mismatch does (R23, R427): the cause and the sequence point are kept, the error is recorded, the
commons are held, and both sides begin their self-checks. Where the spec is silent a clause follows the model's choice, log entry
84. -/
def Obligations.MismatchHoldsTheCommons : Prop :=
  (∀ (s : State) (p : Nat), s.c.bezel.compares = true → skewOver s = some p →
    exec .skewTimeout s = .next (fin (mismatch s 2 p none none none none))) ∧
  (∀ (s : State) (cause point : Nat) (mA mB : Option Txn) (rA rB : Option Bool), s.c.bezel.compares = true →
    s.c.bezel.hold = none → s.c.bezel.dead = false →
    let u := mismatch s cause point mA mB rA rB
    u.c.bezel.lastCause = cause ∧ u.c.bezel.misSeq = point - 1 ∧ u.c.bezel.held = true ∧ u.c.bezel.stA = .selfCheck ∧
    u.c.bezel.stB = .selfCheck ∧ rb u.c.regs Pg.BEZEL Reg.HDR_ERR_STICKY 0 = true ∧
    (rb s.c.regs Pg.BEZEL Reg.HDR_ERR_MASK 0 = false → rd s.c.regs Pg.BEZEL Reg.HDR_ERR_FIRST = 0 →
      rd u.c.regs Pg.BEZEL Reg.HDR_ERR_FIRST = w32 cause) ∧
    (rd s.c.regs Pg.BEZEL Reg.HDR_ERR_FIRST ≠ 0 → s.c.freshBits Pg.BEZEL Reg.HDR_ERR_FIRST = 0 → rd u.c.regs Pg.BEZEL Reg.HDR_ERR_FIRST = rd s.c.regs Pg.BEZEL Reg.HDR_ERR_FIRST) ∧
    u.c.lt = s.c.lt ∧ u.a.inq = s.a.inq ∧ u.b.inq = s.b.inq)

/-- A measurement of the selected source (R45, R51, R52, R54, R60). Before acquisition a source ahead of LT moves LT to its time
in one step and clears UNSYNC, one behind LT is refused. After it an offset within JUMP_THRESH is slewed and ends holdover, and
one beyond it is refused: holdover, STEP_REFUSED, and the offset pends. PPS_EDGE, HOST_TIME_WRITE, PTP_MEASUREMENT and REF10_VALID
(R43, R47, R49, R510): what each measures. An edge of PPS_IN that is the next one or the one after a missing edge continues the
second count; one outside the window of both loses the source. Where the spec is silent a clause follows the model's choice, log
entries 17, 51, 54 and 99. -/
def Obligations.TimeSourcesMeasure : Prop :=
  (
  ∀ (s : State) (code : Nat) (off : Int), plumbRuns s.c = true → s.c.time.source = code → code ≠ 0 →
    let u := Machine.measure s code off
    (s.c.time.unsync = true → 0 ≤ off → u.c.lt = s.c.lt + off.toNat ∧ u.c.time.unsync = false) ∧
    (s.c.time.unsync = true → off < 0 → u.c.lt = s.c.lt ∧ u.c.time.unsync = true ∧
      rb u.c.regs Pg.LATH Reg.LATH_FLAGS flagRefused = true) ∧
    (s.c.time.unsync = false → off.natAbs ≤ jumpThresh s.c → u.c.lt = s.c.lt ∧ u.c.time.holdover = none ∧ u.c.time.pend = none ∧
      u.c.time.slewRem = off ∧ u.c.time.slewing = decide (100 < off.natAbs) ∧ u.c.regs = s.c.regs) ∧
    (s.c.time.unsync = false → jumpThresh s.c < off.natAbs → u.c.lt = s.c.lt ∧ u.c.time.holdover.isSome = true ∧
      u.c.time.pend = some off ∧ u.c.time.slewing = false ∧ rb u.c.regs Pg.LATH Reg.LATH_FLAGS flagRefused = true) ∧
    sameMachine s u) ∧
  (
  let edge (s : State) (sec : Nat) : State :=
    Machine.measure (s.updC fun c => { c with time := { c.time with ppsCount := some sec } }) 3 (ltDiff (1000000000 * sec) s.c.lt)
  (∀ (s : State), plumbRuns s.c = true → measured s.c 3 = true →
    ((s.c.time.src 3).lastMeas = none → exec .ppsEdge s = .next (fin (edge s (todOf s.c)))) ∧
    (∀ last, (s.c.time.src 3).lastMeas = some last →
      (∀ k, ppsPlace s.c last = some k → (k = 1 ∨ k = 2) ∧
        (∀ n, s.c.time.ppsCount = some n → exec .ppsEdge s = .next (fin (edge s (n + k)))) ∧
        (s.c.time.ppsCount = none → exec .ppsEdge s = .next (fin (edge s (todOf s.c))))) ∧
      (ppsPlace s.c last = none → exec .ppsEdge s = .next (fin (loseSource s 3))))) ∧
  (∀ (s : State) (r : Requester) (v : Word), wayFree s r → takesWrite s r Pg.PLUMB Reg.PLUMB_HOST_TIME_HI →
    ∃ t, exec (.hostTimeWrite r v) s = .next (fin (Machine.measure t 5
        (ltDiff ((rd s.c.regs Pg.PLUMB Reg.PLUMB_HOST_TIME_LO).toNat + v.toNat * 2 ^ 32) s.c.lt))) ∧ onlyRegs (posted s r) t) ∧
  (∀ (s : State) (a b d w3 : Word), s.c.time.ptp = [a, b, d] → bitOf w3 1 = true → (bitOf w3 0 = false ∨ s.variant.full = true) →
    exec (.ptpMeasurement w3) s = .next (fin (Machine.measure (s.updC fun c => { c with time := { c.time with ptp := [] } })
      (if bitOf w3 0 then 2 else 1) (signed 64 (a.toNat + b.toNat * 2 ^ 32))))) ∧
  (∀ (s : State) (a b d w3 : Word), s.c.time.ptp = [a, b, d] → bitOf w3 1 = false →
    exec (.ptpMeasurement w3) s = .next (fin (s.updC fun c => { c with time := { c.time with ptp := [] } }))) ∧
  (∀ (s : State) (w : Word), s.c.time.ptp.length < 3 →
    exec (.ptpMeasurement w) s = .next (fin (s.updC fun c => { c with time := { c.time with ptp := c.time.ptp ++ [w] } }))) ∧
  (∀ (s : State), plumbRuns s.c = true → measured s.c 4 = true →
    (s.c.time.source ≠ 0 → ∃ u, exec .ref10Valid s = .next (fin u) ∧ srcValid s.variant u.c.time 4 = true ∧ u.c.lt = s.c.lt ∧
      u.c.time.unsync = s.c.time.unsync ∧ u.c.sys.ref10 = true ∧ sameSides s u) ∧
    (s.c.time.source = 0 → exec .ref10Valid s = .next (fin (selectIfNone (s.updC ref10Seen))))))

/-- LT_LO_READ (R38, table "LATH page"): for a port the low half of LT is the value read, the high half is latched for LT_HI, and
of time and of the sides nothing else changes; for a core it is an output that asks for the value (R19). HOLDOVER_EXPIRED,
XTAL_STOP, XTAL_RESTART and SLEW_COMPLETE (R50, R51, R57, R63): the event comes once a holdover has lasted longer than its limit;
without the crystal AON carries LT coarsely, and LT resumes at the greater of the coarse and the last fine value plus 1 ns, never
lower than it stood; a slew ends once SLEW_MAX lets its offset be removed, and not before. -/
def Obligations.HoldoverAndCrystal : Prop :=
  (
  (∀ (s : State) (r : Requester), mayAccess s r (regAddr r Pg.LATH Reg.LATH_LT_LO) = true → r.isCore = false →
    exec (.ltLoRead r) s = .next (fin (readDone
        (s.updC fun c => { c with time := { c.time with ltHi := c.lt / 2 ^ 32 } }) r (regAddr r Pg.LATH Reg.LATH_LT_LO) (w32 s.c.lt)))) ∧
  (∀ (s : State) (x : SideId), coresRun s x = true →
    exec (.ltLoRead (.core x)) s = .next (fin (s.upd x fun d =>
      ({ d with reads := d.reads ++ [(Pg.LATH, Reg.LATH_LT_LO, false)] }).emit (.regRead Pg.LATH Reg.LATH_LT_LO)))) ∧
  (∀ (s : State) (r : Requester) (off : Nat) (v : Word), r.isCore = false →
    let u := readDone s r off v
    sameSides s u ∧ u.c.lt = s.c.lt ∧ u.c.time = s.c.time ∧ u.c.lastRead = some (r, v))) ∧
  (
  (∀ (s : State) (since : Nat), s.c.time.holdover = some since → s.c.time.expired = false →
    rd s.c.regs Pg.PLUMB Reg.PLUMB_HOLDOVER_LIMIT ≠ 0 →
    since + 1000000000 * (rd s.c.regs Pg.PLUMB Reg.PLUMB_HOLDOVER_LIMIT).toNat < s.c.lt →
    ∃ u, exec .holdoverExpired s = .next (fin u) ∧ sameSides s u ∧ u.c.time = { s.c.time with expired := true } ∧
      rb u.c.regs Pg.LATH Reg.HDR_EVT_STAT 0 = true ∧
      u.c = { s.c with time := u.c.time, regs := u.c.regs, freshAt := u.c.freshAt, fresh := u.c.fresh }) ∧
  (∀ (s : State), s.c.time.expired = true ∨ s.c.time.holdover = none → exec .holdoverExpired s = .next (fin s)) ∧
  (∀ (s : State), s.c.time.xtalStopped = false → s.c.sys.porstLow = false →
    ∃ u, exec .xtalStop s = .next (fin u) ∧ sameSides s u ∧ u.c.lt = s.c.lt ∧ u.c.time.coarse = true ∧
      u.c.time.xtalStopped = true ∧ unitsRun u = false) ∧
  (∀ (s : State) (coarse : Nat), s.c.time.xtalStopped = true →
    ∃ u, exec (.xtalRestart coarse) s = .next (fin u) ∧ sameSides s u ∧ u.c.lt = max s.c.lt (max coarse (s.c.time.lastFine + 1)) ∧
      u.c.time = { s.c.time with xtalStopped := false } ∧ u.c.regs = s.c.regs) ∧
  (∀ (s : State), s.c.time.slewing = true →
    (s.c.time.slewRem.natAbs - 100) * 1000000 ≤ rf s.c.regs Pg.PLUMB Reg.PLUMB_SLEW_MAX 8 0 * (s.c.lt - s.c.time.slewFrom) →
    ∃ u, exec .slewComplete s = .next (fin u) ∧ sameSides s u ∧
      u.c = { s.c with time := { s.c.time with slewing := false, slewRem := 0, srcs := u.c.time.srcs } } ∧
      ∀ k, (u.c.time.src k).validSince = (s.c.time.src k).validSince ∧ (u.c.time.src k).lastMeas = (s.c.time.src k).lastMeas) ∧
  (∀ (s : State), slewCanEnd s.c = false → exec .slewComplete s = .next (fin s)))

/-- ACCEPT_STEP and ACCEPT_SLEW of a host port (R55, R56). A command while nothing pends, and ACCEPT_STEP of a negative offset,
set CMD_REFUSED and change nothing else. ACCEPT_STEP moves LT forward by the offset, at most by 2^39 − 1 ST units at a time;
ACCEPT_SLEW slews. Either ends the holdover of the refused step, but not one for want of a source. A forward step of LT (R62,
R70): LT moves by its size, both sides get one time input with the new LT and the size, and a step of no size gives none. The
first part of R42: LT never decreases by it. SOURCE_LOST, REVERT_HOLDOFF_EXPIRY and LOSS_CFG_WRITE (R43, R44, R45, R604): a lost
source is not valid; the selected one gives way to the best valid source or to none, with SRC_SWITCH, and none means holdover; a
better source that has stayed valid for REVERT_HOLDOFF is selected; no switch sets LT after acquisition; new settings judge what
runs. Where the spec is silent a clause follows the model's choice, log entries 4, 52 and 100. -/
def Obligations.StepsAndSources : Prop :=
  (
  let most : Nat := (2 ^ 39 - 1) * 256
  ∀ (s : State) (r : Requester), wayFree s r → takesWrite s r Pg.LATH Reg.LATH_CMD →
    (s.c.time.pend = none →
      exec (.acceptStep r) s = .next (fin ((posted s r).updC fun c => c.flag flagCmd)) ∧
      exec (.acceptSlew r) s = .next (fin ((posted s r).updC fun c => c.flag flagCmd))) ∧
    (∀ off, s.c.time.pend = some off → off ≤ 0 →
      exec (.acceptStep r) s = .next (fin ((posted s r).updC fun c => c.flag flagCmd))) ∧
    (∀ off, s.c.time.pend = some off → 0 < off → off ≤ most →
      ∃ u, exec (.acceptStep r) s = .next (fin u) ∧ u.c.lt = s.c.lt + off.toNat ∧ u.c.time.pend = none ∧
        rb u.c.regs Pg.LATH Reg.LATH_FLAGS flagAccepted = true ∧
        (s.c.time.source ≠ 0 → u.c.time.holdover = none) ∧
        (s.c.time.source = 0 → u.c.time.holdover = s.c.time.holdover.map (· + off.toNat))) ∧
    (∀ off, s.c.time.pend = some off → most < off →
      ∃ u, exec (.acceptStep r) s = .next (fin u) ∧ u.c.lt = s.c.lt + most ∧ u.c.time.pend = some (off - most) ∧
        rb u.c.regs Pg.LATH Reg.LATH_FLAGS flagRange = true ∧
        u.c.time.holdover = s.c.time.holdover.map (· + most)) ∧
    (∀ off, s.c.time.pend = some off →
      ∃ u, exec (.acceptSlew r) s = .next (fin u) ∧ sameSides s u ∧ u.c = { (posted s r).c with time := u.c.time } ∧
        (s.c.time.source ≠ 0 → u.c.time =
          { s.c.time with pend := none, holdover := none, noSource := false, expired := false, slewRem := off,
                          slewing := decide (100 < off.natAbs), slewFrom := s.c.lt }) ∧
        (s.c.time.source = 0 → u.c.time = { s.c.time with pend := none }))) ∧
  (
  ∀ (s : State) (step : Nat) (acq rebase : Bool),
    let u := stepForward s step acq rebase
    u.c.lt = s.c.lt + step ∧ sameMachine s u ∧
    (∀ x, 0 < step → seqBlocked s = false → s.c.bezel.refill = none →
      (s.c.bezel.waiting.any fun w => decide (w.1 = .lath)) = false → s.c.bezel.receives x = true →
      ∃ q, (u.side x).inq.getLast? = some q ∧ q.inp = .time step acq rebase ∧ q.lt = s.c.lt + step) ∧
    (step = 0 → u.a = s.a ∧ u.b = s.b)) ∧
  (
  (∀ (s : State) (code : Nat), code ≠ 4 → silentTooLong s.c code = true →
    exec (.sourceLost code) s = .next (fin (loseSource s code))) ∧
  (∀ (s : State), (s.c.time.src 4).validSince.isSome = true →
    exec (.sourceLost 4) s = .next (fin (loseSource (s.updC fun c => { c with sys := { c.sys with ref10 := false } }) 4))) ∧
  (∀ (s : State) (code : Nat),
    let u := loseSource s code
    sameMachine s u ∧ srcValid u.variant u.c.time code = false ∧
    (s.c.time.source ≠ code → sameSides s u ∧ u.c.time.source = s.c.time.source ∧ u.c.regs = s.c.regs ∧ u.c.lt = s.c.lt) ∧
    (s.c.time.source = code → code ≠ 0 → u.c.time.source = bestSource u ∧
      rb u.c.regs Pg.LATH Reg.LATH_FLAGS flagSwitch = true ∧
      (s.c.time.unsync = false → sameSides s u ∧ u.c.lt = s.c.lt) ∧
      (bestSource u = 0 → u.c.time.holdover.isSome = true))) ∧
  (∀ (s : State) (k : Nat), revertible s = some k →
    ∃ u, exec .revertHoldoffExpiry s = .next (fin u) ∧ sameMachine s u ∧ u.c.time.source = k ∧
      rb u.c.regs Pg.LATH Reg.LATH_FLAGS flagSwitch = true ∧ (s.c.time.unsync = false → sameSides s u ∧ u.c.lt = s.c.lt)) ∧
  (∀ (s : State), revertible s = none → exec .revertHoldoffExpiry s = .next (fin s)) ∧
  (∀ (s : State) (r : Requester) (v : Word), wayFree s r → takesWrite s r Pg.PLUMB Reg.PLUMB_LOSS_CFG →
    ∃ t, exec (.lossCfgWrite r Reg.PLUMB_LOSS_CFG v 15) s = .next (fin (judgeSources t)) ∧ onlyRegs (posted s r) t ∧
      sameBut Pg.PLUMB Reg.PLUMB_LOSS_CFG (posted s r).c.regs t.c.regs ∧
      (s.c.writes.lt ≠ s.c.lt →
        rf t.c.regs Pg.PLUMB Reg.PLUMB_LOSS_CFG 7 0 = clampNat 2 240 (fld v 7 0) ∧
        rf t.c.regs Pg.PLUMB Reg.PLUMB_LOSS_CFG 23 16 = fld v 23 16 ∧
        rf t.c.regs Pg.PLUMB Reg.PLUMB_LOSS_CFG 31 24 = fld v 31 24)) ∧
  (∀ (t : State) (code : Nat), code = 1 ∨ code = 2 ∨ code = 3 ∨ code = 5 → silentTooLong t.c code = true →
    srcValid t.variant (judgeSources t).c.time code = false))

/-- TIMER_SLOT_ARM and TIMER_SLOT_EXPIRY (R40, R66, R71): arming a slot whose target lies ahead arms it and nothing else; a slot
whose target is past is late at once; a slot that is due clears ARM, and its expiry is one input with the slot's number. A slot
that is not due, or not armed, does nothing. TPO_CTRL_WRITE and TPO_EDGE (R65, R66, R72, R75, R77): ENABLE arms the output at
START, behind a pulse that is still in progress, and clearing it lets such a pulse end; at the edge that is due the output goes
active for WIDTH; one armed late is driven at once with LATE when its policy says so; a single pulse ends with ENABLE cleared; and
an edge that falls due during a hold is not driven and counts as missed. Where the spec is silent a clause follows the model's
choice, log entries 52 and 102. -/
def Obligations.TimersAndPulses : Prop :=
  (
  (∀ (s : State) (r : Requester) (n : Nat) (v : Word), n < 32 → wayFree s r →
    takesWrite s r Pg.LATH (tmrOff Reg.LATH_TMR_CTRL n) → bitOf v 0 = true →
    0 ≤ stDiff (tmrTarget s.c.regs n) (stOf s.c.lt) →
    ∃ u, exec (.timerSlotArm r n v) s = .next (fin u) ∧ sameSides s u ∧ tmrArmed u.c.regs n = true ∧
      tmrTarget u.c.regs n = tmrTarget s.c.regs n ∧ u.c.evt.slotPend = delNat n s.c.evt.slotPend ∧ u.c.lt = s.c.lt ∧
      sameBut Pg.LATH (tmrOff Reg.LATH_TMR_CTRL n) (posted s r).c.regs u.c.regs) ∧
  (∀ (s : State) (n : Nat), n < 32 → tmrArmed s.c.regs n = true → stDiff (tmrTarget s.c.regs n) (stOf s.c.lt) ≤ 0 →
    ∃ u, exec (.timerSlotExpiry n) s = .next (fin (u.offer .lath (.timerExpiry n false))) ∧ sameSides s u ∧
      tmrArmed u.c.regs n = false ∧ u.c.evt.slotPend = insNat n s.c.evt.slotPend ∧
      sameBut Pg.LATH (tmrOff Reg.LATH_TMR_CTRL n) s.c.regs u.c.regs ∧ u.c.lt = s.c.lt) ∧
  (∀ (s : State) (n : Nat), tmrArmed s.c.regs n = false ∨ 0 < stDiff (tmrTarget s.c.regs n) (stOf s.c.lt) →
    exec (.timerSlotExpiry n) s = .next (fin s)) ∧
  (∀ (s : State) (n : Nat), rb s.c.regs Pg.LATH (tmrOff Reg.LATH_TMR_CTRL n) 1 = false →
    ∃ u, slotExpire s n true = u.offer .lath (.timerExpiry n true) ∧ sameSides s u ∧
      rb u.c.regs Pg.LATH (tmrOff Reg.LATH_TMR_CTRL n) 2 = true) ∧
  (∀ (s : State) (n : Nat), rb s.c.regs Pg.LATH (tmrOff Reg.LATH_TMR_CTRL n) 1 = true →
    sameSides s (slotExpire s n true) ∧ rb (slotExpire s n true).c.regs Pg.LATH (tmrOff Reg.LATH_TMR_CTRL n) 3 = true)) ∧
  (
  (∀ (s : State) (r : Requester) (n : Nat) (v : Word), n < 4 → wayFree s r → takesWrite s r Pg.TPO (tpoOff Reg.TPO_CTRL n) →
    ∃ u, exec (.tpoCtrlWrite r n v) s = .next (fin u) ∧ sameSides s u ∧ u.c.lt = s.c.lt ∧
      rb u.c.regs Pg.TPO (tpoOff Reg.TPO_CTRL n) 0 = bitOf v 0 ∧
      let x := s.c.tpoAt n
      let st := tpoStart s.c n
      (bitOf v 0 = true → rb s.c.regs Pg.TPO (tpoOff Reg.TPO_CTRL n) 0 = false → u.c.tpoAt n =
        if x.inPulse then { x with clear := false, after := some (st, stPast s.c st) } else x.rise st (stPast s.c st)) ∧
      (bitOf v 0 = false → rb s.c.regs Pg.TPO (tpoOff Reg.TPO_CTRL n) 0 = true → u.c.tpoAt n =
        if x.inPulse then { x with clear := true, after := none } else TpoState.idle) ∧
      (bitOf v 0 = rb s.c.regs Pg.TPO (tpoOff Reg.TPO_CTRL n) 0 → u.c.tpoAt n = x)) ∧
  (∀ (s : State) (n e : Nat), n < 4 → commonsUp s = true → s.c.bezel.held = false →
    (s.c.tpoAt n).next = some e → stDue e (stOf s.c.lt) = true →
    ((s.c.tpoAt n).rising = true → (s.c.tpoAt n).late = false →
      ∃ u, exec (.tpoEdge n) s = .next (fin u) ∧ sameSides s u ∧ u.c.regs = s.c.regs ∧ u.c.lt = s.c.lt ∧
        u.c.tpoAt n = { s.c.tpoAt n with active := true, rising := false, began := e, next := some ((e + tpoWidth s.c n) % 2 ^ 40) }) ∧
    ((s.c.tpoAt n).rising = true → (s.c.tpoAt n).late = true → rb s.c.regs Pg.TPO (tpoOff Reg.TPO_CTRL n) 2 = false →
      rd s.c.regs Pg.TPO (tpoOff Reg.TPO_PERIOD n) = 0 →
      ∃ u, exec (.tpoEdge n) s = .next (fin u) ∧ sameSides s u ∧ (u.c.tpoAt n).active = true ∧ (u.c.tpoAt n).late = false ∧
        (u.c.tpoAt n).next = some ((stOf s.c.lt + tpoWidth s.c n) % 2 ^ 40) ∧
        rb u.c.regs Pg.TPO (tpoOff Reg.TPO_STAT n) 1 = true ∧ sameBut Pg.TPO (tpoOff Reg.TPO_STAT n) s.c.regs u.c.regs) ∧
    ((s.c.tpoAt n).rising = false → (s.c.tpoAt n).after = none → rd s.c.regs Pg.TPO (tpoOff Reg.TPO_PERIOD n) = 0 →
      ∃ u, exec (.tpoEdge n) s = .next (fin u) ∧ sameSides s u ∧ (u.c.tpoAt n).active = false ∧ (u.c.tpoAt n).next = none ∧
        rb u.c.regs Pg.TPO (tpoOff Reg.TPO_CTRL n) 0 = false ∧ sameBut Pg.TPO (tpoOff Reg.TPO_CTRL n) s.c.regs u.c.regs)) ∧
  (∀ (s : State) (n e : Nat), n < 4 → commonsUp s = true → s.c.bezel.held = true →
    (s.c.tpoAt n).next = some e → stDue e (stOf s.c.lt) = true →
    ∃ u, exec (.tpoEdge n) s = .next (fin u) ∧ sameSides s u ∧ (u.c.tpoAt n).active = (s.c.tpoAt n).active ∧
      rb u.c.regs Pg.TPO (tpoOff Reg.TPO_STAT n) 2 = true ∧
      ((s.c.tpoAt n).rising = true → rf u.c.regs Pg.TPO (tpoOff Reg.TPO_STAT n) 31 16 =
        min 0xFFFF (rf s.c.regs Pg.TPO (tpoOff Reg.TPO_STAT n) 31 16 + 1))))

/-- LO_FREQ_WRITE, RETUNE_START, RETUNE_END (R79, R80, R96): a value inside the tuning range waits, one outside is ignored and
sets LO_RANGE; the retune starts once no burst window is open, lasts 200 µs, closes every reception, and leaves no launch planned
that it covers. CH_WRITE and CH_READ (R82 to R87): the staged definition is committed whole or refused whole with the result of
its checks; a commit raises CHZ_COMMIT with the port and the entry; a read loads the entry into the staging registers. -/
def Obligations.RetuneAndChannels : Prop :=
  (
  (∀ (s : State) (r : Requester) (p : RPort) (v : Word), wayFree s r → takesWrite s r p.rfPage Reg.RF_LO_FREQ →
    (loInRange p (fld v 16 0) = true →
      ∃ u, exec (.loFreqWrite r p v) s = .next (fin u) ∧ onlyPort p (posted s r) u ∧
        u.c.port p = { s.c.port p with retuneReq := some (fld v 16 0) } ∧
        setsReg p.rfPage Reg.RF_LO_FREQ 0 (w32 (fld v 16 0)) (posted s r).c.regs u.c.regs) ∧
    (loInRange p (fld v 16 0) = false →
      exec (.loFreqWrite r p v) s = .next (fin ((posted s r).updC fun c => c.err p.rfPage 0)))) ∧
  (∀ (s : State) (p : RPort) (lo : Nat), portRun s p = true → (s.c.port p).retuneReq = some lo →
    (windowOpen s.c p = false → (s.c.port p).retuneEnd = none →
      ∃ u, exec (.retuneStart p) s = .next (fin u) ∧ onlyPort p s u ∧ (u.c.port p).lo = lo ∧ (u.c.port p).retuneReq = none ∧
        (u.c.port p).retuneEnd = some (s.c.lt + 200000) ∧ (u.c.port p).lanes = [] ∧
        ∀ n b, b ∈ ((u.c.port p).carrier n).bursts → b.isAck = true ∨ b.phase.started = true ∨
          (covered (u.c.port p) b.start = false ∧ b.listens u.c p = false)) ∧
    (windowOpen s.c p = true → exec (.retuneStart p) s = .next (fin s))) ∧
  (∀ (s : State) (p : RPort) (e : Nat), portRun s p = true → (s.c.port p).retuneEnd = some e →
    (e ≤ s.c.lt → ∃ u, exec (.retuneEnd p) s = .next (fin (reenter u p)) ∧ onlyPort p s u ∧
      u.c.port p = { s.c.port p with retuneEnd := none } ∧ u.c.regs = s.c.regs) ∧
    (s.c.lt < e → exec (.retuneEnd p) s = .next (fin s)))) ∧
  (
  ∀ (s : State) (r : Requester) (p : RPort), wayFree s r → takesWrite s r p.chzPage Reg.CHZ_CH_CMD →
    let idx := rf s.c.regs p.chzPage Reg.CHZ_CH_IDX 7 0
    let d : ChanDef := { cfg0 := rd s.c.regs p.chzPage Reg.CHZ_CH_CFG0, modes := rd s.c.regs p.chzPage Reg.CHZ_CH_MODES,
                         cfg1 := rd s.c.regs p.chzPage Reg.CHZ_CH_CFG1, suspended := false }
    (chResult s.c p idx d = 0 →
      ∃ u, exec (.chWrite r p) s = .next (fin (u.notice (.chzCommit p idx d))) ∧ onlyPort p (posted s r) u ∧
        (u.c.port p).chan idx = d ∧ (∀ j, j ≠ idx → (u.c.port p).chan j = (s.c.port p).chan j) ∧
        rd u.c.regs p.chzPage Reg.CHZ_CH_RESULT = 0 ∧ rb u.c.regs p.chzPage Reg.HDR_EVT_STAT 0 = true) ∧
    (chResult s.c p idx d ≠ 0 →
      ∃ u, exec (.chWrite r p) s = .next (fin u) ∧ onlyRegs (posted s r) u ∧
        setsReg p.chzPage Reg.CHZ_CH_RESULT 0 (w32 (chResult s.c p idx d)) (posted s r).c.regs u.c.regs) ∧
    (∃ u, exec (.chRead r p) s = .next (fin u) ∧ onlyRegs (posted s r) u ∧
      rd u.c.regs p.chzPage Reg.CHZ_CH_CFG0 = ((s.c.port p).chan idx).cfg0 ∧
      rd u.c.regs p.chzPage Reg.CHZ_CH_MODES = ((s.c.port p).chan idx).modes ∧
      rd u.c.regs p.chzPage Reg.CHZ_CH_CFG1 = ((s.c.port p).chan idx).cfg1))

/-- How a launch ends (R95 step 9, R97): its status is counted in its port's page and nowhere else, and its completion with the
launch LT and the airtime is one input for both sides. LAUNCH_ARRIVAL of the oldest launch at a carrier (R65, R66, R93 to R97):
the parameter check, then the late check. A launch that fails the first ends BAD_PARAM; a late one ends MISSED or is moved to the
earliest time, as its policy says; one whose time a retune or gap covers is held; any other is planned at its LT. Behind other
work of the carrier it queues. A launch for a port that is disabled or not powered ends ABORTED. Where the spec is silent a clause
follows the model's choice, log entries 55 and 104. -/
def Obligations.LaunchesQueue : Prop :=
  (
  ∀ (s : State) (l : Launch) (status lt air : Nat),
    ∃ u, completeLaunch s l status lt air = u.offer .units
        (.launchDone { id := l.id, port := l.port, carrier := l.carrier, ch := l.ch, status := status, lt := lt, airtime := air }) ∧
      onlyRegs s u ∧
      (∀ o, rd u.c.regs l.port.rfPage o = if o ∈ statusCounters status then oneMore (rd s.c.regs l.port.rfPage o)
        else rd s.c.regs l.port.rfPage o) ∧ samePages l.port.rfPage s.c.regs u.c.regs) ∧
  (
  (∀ (s : State) (p : RPort) (n : Nat) (l : Launch) (rest : List Launch), n < 4 → portRun s p = true →
    s.c.pd.leaving (portDomain p) = false → ((s.c.port p).carrier n).arrivals = l :: rest →
    let k := (s.c.port p).carrier n
    let d := (s.c.port p).chan l.ch
    let early := s.c.lt + setupNs s.c p d
    let at_ := max early l.lt
    let becomes (k' : Carrier) : Prop :=
      ∃ u, exec (.launchArrival p n) s = .next (fin u) ∧ onlyPort p s u ∧ (u.c.port p).carrier n = k' ∧
        (∀ m, m ≠ n → (u.c.port p).carrier m = (s.c.port p).carrier m) ∧ u.c.regs = s.c.regs
    let ends (status : Nat) : Prop :=
      ∃ u, exec (.launchArrival p n) s = .next (fin (completeLaunch u l status l.lt 0)) ∧ onlyPort p s u ∧
        (u.c.port p).carrier n = { k with arrivals := rest } ∧ u.c.regs = s.c.regs
    (unitOn s.c.regs p.rfPage = false → ends stAborted) ∧
    (unitOn s.c.regs p.rfPage = true → paramOk s.c p l = false → ends stBadParam) ∧
    (unitOn s.c.regs p.rfPage = true → paramOk s.c p l = true →
      ((carrierReady s.c p n && k.queue.isEmpty) = false → becomes { k with arrivals := rest, queue := k.queue ++ [(l, d)] }) ∧
      ((carrierReady s.c p n && k.queue.isEmpty) = true →
        (l.lt < early → l.discardLate = true → ends stMissed) ∧
        (early ≤ l.lt ∨ l.discardLate = false →
          (covered (s.c.port p) at_ = true →
            becomes { k with arrivals := rest, held := k.held ++ [⟨l, d, retuned (s.c.port p) at_⟩] }) ∧
          (covered (s.c.port p) at_ = false →
            becomes { k with arrivals := rest, bursts := k.bursts ++
              [{ isAck := false, launch := l, start := at_, air := l.air, phase := .planned, deferred := false,
                 late := decide (l.lt < early), cut := none, blanking := false, endLt := 0, chan := d }] }))))) ∧
  (∀ (s : State) (p : RPort) (n : Nat) (l : Launch) (rest : List Launch), commonsUp s = true → s.variant.hasPort p = true →
    s.c.pd.dom (portDomain p) ≠ .on → s.c.pd.leaving (portDomain p) = false → ((s.c.port p).carrier n).arrivals = l :: rest →
    exec (.launchArrival p n) s = .next (fin (completeLaunch
      (s.updC fun c => c.updCar p n fun k => { k with arrivals := rest }) l stAborted l.lt 0))))

/-- CARRIER_FREE and LAUNCH_CHECK_DUE (R94 to R96, R118, R120): a carrier that is not free, or holds an earlier launch, changes
nothing; a free one drops its past bursts and takes its next launch through the late check; at L − S a planned launch that a gap
or retune covers is held, and any other passes the dwell check and the duty-cycle check, or ends DWELL_VETO or DUTY_VETO, the
first that it fails. LBT_LISTEN and LBT_DEFER_EXPIRY (R95 step 4, R100, R121): a launch on a busy channel is deferred; on a clear
channel its start is settled, a deferred one's so that its lead and its blanking fit before it, unless it would then meet an
acknowledgement of its carrier, for which it is held; one still listening past MAX_DEFER ends LBT_BUSY. Where the spec is silent a
clause follows the model's choice, log entries 56 and 105. -/
def Obligations.LaunchesAreChecked : Prop :=
  (
  (∀ (s : State) (p : RPort) (n : Nat), n < 4 → portRun s p = true →
    let kept := ((s.c.port p).carrier n).bursts.filter fun b => !burstGone s.c p b
    (carrierReady s.c p n = false → exec (.carrierFree p n) s = .next (fin s)) ∧
    (carrierReady s.c p n = true → ((s.c.port p).carrier n).queue = [] →
      ∃ u, exec (.carrierFree p n) s = .next (fin u) ∧ onlyPort p s u ∧
        (u.c.port p).carrier n = { (s.c.port p).carrier n with bursts := kept } ∧ u.c.regs = s.c.regs) ∧
    (∀ l d rest, carrierReady s.c p n = true → ((s.c.port p).carrier n).queue = (l, d) :: rest →
      ∃ u, exec (.carrierFree p n) s = .next (fin (lateCheck u p n l d)) ∧ onlyPort p s u ∧
        (u.c.port p).carrier n = { (s.c.port p).carrier n with bursts := kept, queue := rest } ∧ u.c.regs = s.c.regs)) ∧
  (∀ (s : State) (p : RPort) (n i : Nat) (b : Burst), n < 4 → portRun s p = true →
    firstBurst ((s.c.port p).carrier n) (fun b => !b.isAck && decide (b.phase = .planned) &&
      decide (b.start ≤ s.c.lt + setupNs s.c p b.chan)) i b →
    let k := (s.c.port p).carrier n
    (covered (s.c.port p) b.start = true →
      ∃ u, exec (.launchCheckDue p n) s = .next (fin u) ∧ onlyPort p s u ∧ u.c.regs = s.c.regs ∧
        (u.c.port p).carrier n = { k with bursts := k.bursts.eraseIdx i,
                                          held := k.held ++ [⟨b.launch, b.chan, retuned (s.c.port p) b.start⟩] }) ∧
    (covered (s.c.port p) b.start = false →
      (dwellOk s.c p b.chan b.launch.ch b.air = false →
        ∃ u, exec (.launchCheckDue p n) s = .next (fin (completeLaunch u b.launch stDwellVeto b.start b.air)) ∧ onlyPort p s u ∧
          ((u.c.port p).carrier n).bursts = k.bursts.eraseIdx i) ∧
      (dwellOk s.c p b.chan b.launch.ch b.air = true → dutyOk s.c b.chan b.air = false →
        ∃ u, exec (.launchCheckDue p n) s = .next (fin (completeLaunch u b.launch stDutyVeto b.start b.air)) ∧ onlyPort p s u ∧
          ((u.c.port p).carrier n).bursts = k.bursts.eraseIdx i) ∧
      (dwellOk s.c p b.chan b.launch.ch b.air = true → dutyOk s.c b.chan b.air = true →
        ∃ u, exec (.launchCheckDue p n) s = .next (fin u) ∧ onlyPort p s u ∧
          ((u.c.port p).carrier n).bursts = k.bursts.set i { b with phase := .vetted } ∧
          u.c.regs = s.c.regs ∧ u.c.duty = s.c.duty)))) ∧
  (
  (∀ (s : State) (p : RPort) (n i code : Nat) (b : Burst), n < 4 → portRun s p = true →
    firstBurst ((s.c.port p).carrier n) (fun b => b.listens s.c p) i b →
    let k := (s.c.port p).carrier n
    let b' : Burst := { b with phase := .clear, start := clearStart s.c p b }
    let becomes (k' : Carrier) : Prop :=
      ∃ u, exec (.lbtListen p n code) s = .next (fin u) ∧ onlyPort p s u ∧ (u.c.port p).carrier n = k' ∧
        u.c.regs = s.c.regs ∧ u.c.duty = s.c.duty
    (lbtClear s.c p n b.chan code = false →
      becomes { k with bursts := k.bursts.set i { b with deferred := true, blanking := false } }) ∧
    (lbtClear s.c p n b.chan code = true → meetsAck s.c p n b' = false → becomes { k with bursts := k.bursts.set i b' }) ∧
    (lbtClear s.c p n b.chan code = true → meetsAck s.c p n b' = true →
      becomes { k with bursts := k.bursts.eraseIdx i, held := k.held ++ [⟨b.launch, b.chan, retuned (s.c.port p) b.start⟩] }) ∧
    (b.deferred = false → s.c.lt ≤ b.start → b'.start = b.start) ∧
    (b.deferred = true → s.c.lt + 8000 ≤ b'.start ∧ s.c.lt + burstLead s.c p b ≤ b'.start)) ∧
  (∀ (s : State) (p : RPort) (n i : Nat) (b : Burst), n < 4 → portRun s p = true →
    firstBurst ((s.c.port p).carrier n) (fun b => !b.isAck && decide (b.phase = .vetted) && b.chan.lbt &&
      decide (b.start + maxDeferNs s.c p < s.c.lt)) i b →
    ∃ u, exec (.lbtDeferExpiry p n) s = .next (fin (completeLaunch u b.launch stLbtBusy b.start b.air)) ∧ onlyPort p s u ∧
      ((u.c.port p).carrier n).bursts = ((s.c.port p).carrier n).bursts.eraseIdx i ∧ u.c.regs = s.c.regs))

/-- BLANKING_START, BURST_START, BURST_END, BLANKING_END (R95 steps 6 to 9, R97, R100, R102, R116): the blanking begins 8 µs
before the burst and closes the receptions on the channels it blanks; the burst goes on the air and its airtime is charged to its
channel's dwell window and its account, a deferred one after a second check of both, and with TX_EN cleared it ends ABORTED; it
ends LAUNCHED, LAUNCHED_LATE if it was moved, or PREEMPTED if it was cut. ACK_BURST_START and ACK_BURST_END (R118, R166, R168): a
prepared acknowledgement is sent, counted, and charged to its dwell window, and to its account unless that takes no
acknowledgements; at its end a TX_EN clear that waited takes effect. Where the spec is silent a clause follows the model's choice,
log entry 58. -/
def Obligations.BurstsAndAcknowledgements : Prop :=
  (
  (∀ (s : State) (p : RPort) (n i : Nat) (b : Burst), n < 4 → portRun s p = true →
    firstBurst ((s.c.port p).carrier n) (fun b => b.ready s.c p && !b.blanking && decide (b.start ≤ 8000 + s.c.lt)) i b →
    ∃ u, exec (.blankingStart p n) s = .next (fin u) ∧ onlyPort p s u ∧
      ((u.c.port p).carrier n).bursts = ((s.c.port p).carrier n).bursts.set i { b with blanking := true } ∧
      ∀ l, l ∈ (u.c.port p).lanes → blanksBins u.c p { b with blanking := true } l.chan.lowBin l.chan.highBin = false) ∧
  (∀ (s : State) (p : RPort) (n i : Nat) (b : Burst), n < 4 → portRun s p = true →
    firstBurst ((s.c.port p).carrier n) (fun b => !b.isAck && b.ready s.c p && decide (b.start ≤ s.c.lt)) i b →
    let pass := dwellOk s.c p b.chan b.launch.ch b.air && dutyOk s.c b.chan b.air
    (txEn s.c p = true → b.deferred = false ∨ pass = true →
      ∃ u, exec (.burstStart p n) s = .next (fin u) ∧ onlyPort p s u ∧
        ((u.c.port p).carrier n).bursts = ((s.c.port p).carrier n).bursts.set i { b with phase := .onAir } ∧
        chargesDwell s u p b ∧ (∀ k, b.chan.account = some k → chargesDuty s u k b.air) ∧
        (b.chan.account = none → u.c.duty = s.c.duty) ∧ u.c.regs = s.c.regs) ∧
    (txEn s.c p = true → b.deferred = true → pass = false →
      ∃ u, exec (.burstStart p n) s = .next (fin (completeLaunch u b.launch
          (if dwellOk s.c p b.chan b.launch.ch b.air then stDutyVeto else stDwellVeto) b.start b.air)) ∧ onlyPort p s u ∧
        ((u.c.port p).carrier n).bursts = ((s.c.port p).carrier n).bursts.eraseIdx i ∧ u.c.duty = s.c.duty) ∧
    (txEn s.c p = false →
      ∃ u, exec (.burstStart p n) s = .next (fin (completeLaunch u b.launch stAborted b.start 0)) ∧ onlyPort p s u ∧
        ((u.c.port p).carrier n).bursts = ((s.c.port p).carrier n).bursts.eraseIdx i ∧ u.c.regs = s.c.regs)) ∧
  (∀ (s : State) (p : RPort) (n i : Nat) (b : Burst), n < 4 → portRun s p = true →
    firstBurst ((s.c.port p).carrier n) (fun b => !b.isAck && decide (b.phase = .onAir) && decide (b.fin ≤ s.c.lt)) i b →
    let status := if b.cut.isSome then stPreempted else if b.late then stLate else stLaunched
    ∃ u, exec (.burstEnd p n) s = .next (fin (completeLaunch u b.launch status b.start b.air)) ∧ onlyPort p s u ∧
      ((u.c.port p).carrier n).bursts = ((s.c.port p).carrier n).bursts.set i { b with phase := .ended, endLt := b.fin } ∧
      u.c.regs = s.c.regs) ∧
  (∀ (s : State) (p : RPort) (n i : Nat) (b : Burst), n < 4 → portRun s p = true →
    firstBurst ((s.c.port p).carrier n) (fun b => decide (b.phase = .ended) && b.blanking &&
      decide (8000 + b.endLt ≤ s.c.lt)) i b →
    ∃ u, exec (.blankingEnd p n) s = .next (fin u) ∧ onlyPort p s u ∧
      ((u.c.port p).carrier n).bursts = ((s.c.port p).carrier n).bursts.set i { b with blanking := false } ∧
      u.c.regs = s.c.regs)) ∧
  (
  (∀ (s : State) (p : RPort) (n i : Nat) (b : Burst), n < 4 → portRun s p = true →
    firstBurst ((s.c.port p).carrier n) (fun b => b.isAck && decide (b.phase = .planned) && decide (b.start ≤ s.c.lt)) i b →
    ∃ u, exec (.ackBurstStart p n) s = .next (fin u) ∧ onlyPort p s u ∧
      ((u.c.port p).carrier n).bursts = ((s.c.port p).carrier n).bursts.set i { b with phase := .onAir } ∧
      chargesDwell s u p b ∧ (b.chan.account = none → u.c.duty = s.c.duty) ∧
      (∀ k, b.chan.account = some k → ackMode s.c k = 2 → u.c.duty = s.c.duty) ∧
      (∀ k, b.chan.account = some k → ackMode s.c k ≠ 2 → chargesDuty s u k b.air) ∧
      setsReg p.rfPage Reg.RF_ACK_SENT 0 (oneMore (rd s.c.regs p.rfPage Reg.RF_ACK_SENT)) s.c.regs u.c.regs) ∧
  (∀ (s : State) (p : RPort) (n i : Nat) (b : Burst), n < 4 → portRun s p = true →
    firstBurst ((s.c.port p).carrier n) (fun b => b.isAck && decide (b.phase = .onAir) && decide (b.fin ≤ s.c.lt)) i b →
    ∃ u, exec (.ackBurstEnd p n) s = .next (fin (reenterCarrier u p n)) ∧ onlyPort p s u ∧
      ((u.c.port p).carrier n).bursts = ((s.c.port p).carrier n).bursts.set i { b with phase := .ended, endLt := b.fin } ∧
      (ackDue (u.c.port p) = false → (u.c.port p).txOff = false) ∧ u.c.regs = s.c.regs))

/-- FE_LINE_EDGE and FE_CFG_APPLY (R109 to R112): a line takes the level that its source gives now; a written configuration takes
effect only outside every line window and burst window of its port and of the port it joins, and while the pins are not held.
PORT_CFG_WRITE and STARTUP_CAL_DONE (R113, R144, R308): clearing RX_EN closes every lane at once; the first enable of a port that
runs starts a calibration of 20 ms; after a keyless boot the enables stay as they are; the calibration's end re-enters the
launches held for it, and one that did not converge sets the error. Where the spec is silent a clause follows the model's choice,
log entries 46 and 55. -/
def Obligations.FrontEndsAndEnables : Prop :=
  (
  (∀ (s : State) (n : Nat), n < 24 → commonsUp s = true →
    ∃ u, exec (.feLineEdge n) s = .next (fin u) ∧ sameSides s u ∧ u.c = { s.c with sys := u.c.sys } ∧
      nbit u.c.sys.feOut n = feLevel s.c (feCfg s.c n) ∧ (∀ m, m ≠ n → nbit u.c.sys.feOut m = nbit s.c.sys.feOut m)) ∧
  (∀ (s : State) (n : Nat), n < 24 → commonsUp s = true →
    let v := rd s.c.regs Pg.RFM (Reg.RF_FE_CFG + 4 * n)
    let busy : Prop := ∃ p, (fePort (feCfg s.c n) = some p ∨ fePort v = some p) ∧ burstOpen s.c p = true
    (v ≠ feCfg s.c n → ¬ busy → lineOpen s.c (feCfg s.c n) = false → s.c.bezel.held = false →
      ∃ u, exec (.feCfgApply n) s = .next (fin u) ∧ sameSides s u ∧ u.c = { s.c with sys := u.c.sys } ∧ feCfg u.c n = v ∧
        ∀ m, m ≠ n → feCfg u.c m = feCfg s.c m ∧ nbit u.c.sys.feOut m = nbit s.c.sys.feOut m) ∧
    (busy ∨ lineOpen s.c (feCfg s.c n) = true ∨ s.c.bezel.held = true → exec (.feCfgApply n) s = .next (fin s)))) ∧
  (
  (∀ (s : State) (r : Requester) (p : RPort) (v : Word), wayFree s r → takesWrite s r p.rfPage Reg.RF_PORT_CFG →
    ∃ u, exec (.portCfgWrite r p v) s = .next (fin u) ∧ onlyPort p (posted s r) u ∧
      rf u.c.regs p.rfPage Reg.RF_PORT_CFG 3 2 = fld v 3 2 ∧
      (s.c.tamp.keylessBoot = true →
        rf u.c.regs p.rfPage Reg.RF_PORT_CFG 1 0 = rf s.c.regs p.rfPage Reg.RF_PORT_CFG 1 0) ∧
      (s.c.tamp.keylessBoot = false → rf u.c.regs p.rfPage Reg.RF_PORT_CFG 1 0 = fld v 1 0 ∧
        (rxEn s.c p = true → bitOf v 0 = false → (u.c.port p).lanes = []) ∧
        (bitOf v 0 = true → portRun s p = true → (s.c.port p).calDone = false → (s.c.port p).calEnd = none →
          (u.c.port p).calEnd = some (s.c.lt + 20000000)))) ∧
  (∀ (s : State) (p : RPort) (ok : Bool) (e : Nat), portRun s p = true → (s.c.port p).calEnd = some e → e ≤ s.c.lt →
    ∃ u, exec (.startupCalDone p ok) s = .next (fin (reenter u p)) ∧ onlyPort p s u ∧
      u.c.port p = { s.c.port p with calEnd := none, calDone := true, calFail := !ok, gapNext := nextGap s.c p s.c.lt } ∧
      (ok = true → u.c.regs = s.c.regs) ∧ (ok = false → rb u.c.regs p.rfPage Reg.HDR_ERR_STICKY 3 = true)))

/-- CAL_NOTICE, GAP_NOW, CAL_GAP_START, CAL_GAP_END (R114, R115): the notice comes once, with the gap's start and its 5 ms; a gap
starts once no burst window is open, closes every reception, leaves no launch planned that it covers and lasts 5 ms; one asked for
with GAP_NOW is announced as it starts; a gap that fails leaves the canceller degraded. DUTY_BUCKET_BOUNDARY,
DWELL_SUBBUCKET_BOUNDARY and ADC_CLIP (R89, R117, R120): at a boundary the window moves on by one bucket and drops what is older;
the clip is counted. Where the spec is silent a clause follows the model's choice, log entries 57 and 103. -/
def Obligations.GapsAndBuckets : Prop :=
  (
  (∀ (s : State) (p : RPort) (g : Nat), portRun s p = true → (s.c.port p).gapNext = some g → g ≤ 100000000 + s.c.lt →
    (s.c.port p).noticed = false →
    ∃ u, exec (.calNotice p) s = .next (fin (u.notice (.calNotice p g 5000))) ∧ onlyPort p s u ∧
      u.c.port p = { s.c.port p with noticed := true } ∧ rb u.c.regs p.rfPage Reg.HDR_EVT_STAT 1 = true) ∧
  (∀ (s : State) (r : Requester) (p : RPort), wayFree s r → takesWrite s r p.rfPage Reg.RF_CAL_CMD →
    ∃ u, exec (.gapNow r p) s = .next (fin u) ∧ onlyPort p (posted s r) u ∧
      u.c.port p = { s.c.port p with gapNow := true } ∧ u.c.regs = (posted s r).c.regs) ∧
  (∀ (s : State) (p : RPort) (g : Nat), portRun s p = true → (s.c.port p).gapNext = some g → g ≤ s.c.lt →
    (s.c.port p).calDone = true → (s.c.port p).gapEnd = none → (s.c.port p).retuneEnd = none →
    (windowOpen s.c p = false →
      ∃ u, exec (.calGapStart p) s = .next (fin u) ∧ onlyPort p s u ∧ (u.c.port p).gapEnd = some (s.c.lt + 5000000) ∧
        (u.c.port p).gapNext = none ∧ (u.c.port p).noticed = false ∧ (u.c.port p).lanes = [] ∧
        ∀ n b, b ∈ ((u.c.port p).carrier n).bursts → b.isAck = true ∨ b.phase.started = true ∨
          (covered (u.c.port p) b.start = false ∧ b.listens u.c p = false)) ∧
    (windowOpen s.c p = true → exec (.calGapStart p) s = .next (fin s))) ∧
  (∀ (s : State) (p : RPort), portRun s p = true → (∀ g, (s.c.port p).gapNext = some g → s.c.lt < g) → (s.c.port p).gapNow = true →
    (s.c.port p).calDone = true → (s.c.port p).gapEnd = none → (s.c.port p).retuneEnd = none → windowOpen s.c p = false →
    ∃ u, exec (.calGapStart p) s = .next (fin (u.notice (.calNotice p s.c.lt 5000))) ∧ onlyPort p s u ∧
      (u.c.port p).gapEnd = some (s.c.lt + 5000000) ∧ (u.c.port p).gapNow = false ∧
      (u.c.port p).gapNext = (s.c.port p).gapNext ∧ (u.c.port p).noticed = (s.c.port p).noticed ∧ (u.c.port p).lanes = [] ∧
      rb u.c.regs p.rfPage Reg.HDR_EVT_STAT 1 = true) ∧
  (∀ (s : State) (p : RPort) (ok : Bool) (e : Nat), portRun s p = true → (s.c.port p).gapEnd = some e → e ≤ s.c.lt →
    ∃ u, exec (.calGapEnd p ok) s = .next (fin (reenter u p)) ∧ sameSides s u ∧ (u.c.port p).gapEnd = none ∧
      (u.c.port p).cancOk = ok ∧ (∀ q, q ≠ p → u.c.port q = s.c.port q) ∧ u.c.lt = s.c.lt ∧
      (ok = false → rb u.c.regs p.rfPage Reg.HDR_ERR_STICKY 2 = true))) ∧
  (
  (∀ (s : State), commonsUp s = true →
    (s.c.duty.next ≤ s.c.lt →
      ∃ u, exec .dutyBucketBoundary s = .next (fin u) ∧ sameSides s u ∧ u.c = { s.c with duty := u.c.duty } ∧
        u.c.duty.idx = (s.c.duty.idx + 1) % 60 ∧ u.c.duty.next = s.c.duty.next + 60000000000 ∧
        (∀ k i, i < 64 → u.c.duty.use.find (k * 64 + i) =
          if i = (s.c.duty.idx + 1) % 60 then none else s.c.duty.use.find (k * 64 + i))) ∧
    (s.c.lt < s.c.duty.next → exec .dutyBucketBoundary s = .next (fin s))) ∧
  (∀ (s : State) (p : RPort), portRun s p = true → (s.c.port p).dwellNext ≤ s.c.lt →
    ∃ u, exec (.dwellSubbucketBoundary p) s = .next (fin u) ∧ onlyPort p s u ∧
      (u.c.port p).dwellIdx = ((s.c.port p).dwellIdx + 1) % 16 ∧
      (u.c.port p).dwellNext = (s.c.port p).dwellNext + 1000000 * rf s.c.regs p.chzPage Reg.CHZ_DWELL_WIN 15 0 / 16 ∧
      u.c.regs = s.c.regs ∧ u.c.duty = s.c.duty ∧
      (∀ ch i, i < 16 → (u.c.port p).dwell.find (ch * 16 + i) =
        if i = ((s.c.port p).dwellIdx + 1) % 16 then none else (s.c.port p).dwell.find (ch * 16 + i))) ∧
  (∀ (s : State) (p : RPort), portRun s p = true →
    ∃ u, exec (.adcClip p) s = .next (fin u) ∧ onlyRegs s u ∧
      setsReg p.rfPage Reg.RF_ADC_CLIP 0 (oneMore (rd s.c.regs p.rfPage Reg.RF_ADC_CLIP)) s.c.regs u.c.regs))

/-- DETECTION (R130, R132, R134, R136): a context that may not detect changes nothing. A detection is counted; with WIN = 0 its
winner seeks a lane at once; otherwise it joins the group it may join, or opens one. MERGE_WINDOW_CLOSE (R132): the groups whose
window has closed leave; every member but the winners counts in MERGED; the winners seek lanes in the order of service. Where the
spec is silent a clause follows the model's choice, log entries 106 and 107. -/
def Obligations.DetectionsMerge : Prop :=
  (
  ∀ (s : State) (p : RPort) (ch mode freq quality power : Nat), portRun s p = true →
    let q := s.c.port p
    let d : Det := { ch := ch, mode := mode, chan := q.chan ch, centreHz := centreHz p q.lo (q.chan ch).centre, freq := freq,
                     quality := quality, power := power, lt := s.c.lt }
    let counted (t : Tab Word) : Prop :=
      rd t p.facetPage Reg.FACET_DETECT = oneMore (rd s.c.regs p.facetPage Reg.FACET_DETECT) ∧
      rdI t p.facetPage Reg.FACET_CHSEL_DET ch = oneMore (rdI s.c.regs p.facetPage Reg.FACET_CHSEL_DET ch)
    (canDetect s.c p ch mode power = false → exec (.detection p ch mode freq quality power) s = .next (fin s)) ∧
    (canDetect s.c p ch mode power = true →
      (rf s.c.regs p.facetPage Reg.FACET_MERGE_CFG 7 0 = 0 →
        ∃ u, exec (.detection p ch mode freq quality power) s = .next (fin (u.updC fun c => seekLane c p d)) ∧
          onlyRegs s u ∧ counted u.c.regs) ∧
      (rf s.c.regs p.facetPage Reg.FACET_MERGE_CFG 7 0 ≠ 0 → joinable s.c p d q.groups = none →
        ∃ u, exec (.detection p ch mode freq quality power) s = .next (fin u) ∧ onlyPort p s u ∧ counted u.c.regs ∧
          u.c.port p = { q with groups := q.groups ++ [{ openLt := s.c.lt, opener := d, members := [] }] }) ∧
      (∀ g, rf s.c.regs p.facetPage Reg.FACET_MERGE_CFG 7 0 ≠ 0 → joinable s.c p d q.groups = some g →
        ∃ u, exec (.detection p ch mode freq quality power) s = .next (fin u) ∧ onlyPort p s u ∧ counted u.c.regs ∧
          u.c.port p = { q with groups := q.groups.map fun h => if h = g then { h with members := h.members ++ [d] } else h }))) ∧
  (
  ∀ (s : State) (p : RPort), portRun s p = true →
    let closed := (s.c.port p).groups.filter fun g => !groupOpen s.c p g
    ∃ u, exec (.mergeWindowClose p) s = .next (fin (u.updC fun c => serveWinners c p (closed.map MergeGroup.winner))) ∧
      onlyPort p s u ∧ u.c.port p = { s.c.port p with groups := (s.c.port p).groups.filter fun g => groupOpen s.c p g } ∧
      rd u.c.regs p.facetPage Reg.FACET_MERGED =
        w32 (min (2 ^ 32 - 1) ((rd s.c.regs p.facetPage Reg.FACET_MERGED).toNat +
          closed.foldl (fun n g => n + g.members.length) 0)))

/-- Who gets a lane (R132, R135, R138 to R141): a winner whose channel is at its limit counts in CH_FULL and one without an
available lane in LANE_STARVED, from when its context needs a whole minimum preamble; any other is bound to a free powered lane,
and is the channel last served; a lane bound while the port does not receive or a retune has begun closes ABORTED at once, and one
bound in a gap or on a blanked channel BLANKED. CH_LANES_WRITE and PORT_LIMIT_WRITE (R143): a write that would make the
reservations exceed the limit is refused with RSV_OVER and the register keeps its value; any other is stored. Where the spec is
silent a clause follows the model's choice, log entries 18 and 108. -/
def Obligations.LanesBindAndReserve : Prop :=
  (
  ∀ (c : Commons) (p : RPort) (d : Det),
    let u := seekLane c p d
    let limit := effLimit (chLanes c p d.ch)
    let room : Prop := owedOthers c p d.ch + 1 ≤ lanesAvail c p ∧ freeLanes c p ≠ []
    (limit ≤ boundOn (c.port p) d.ch → u = { c with regs := u.regs } ∧
      rd u.regs p.facetPage Reg.FACET_CH_FULL = oneMore (rd c.regs p.facetPage Reg.FACET_CH_FULL)) ∧
    (boundOn (c.port p) d.ch < limit → ¬ room →
      u.port p = { c.port p with rearm := (c.port p).rearm.put (d.ch * 32 + d.mode) (c.lt + minPreambleNs d.mode) } ∧
      (∀ q, q ≠ p → u.port q = c.port q) ∧ u.lt = c.lt ∧
      rd u.regs p.facetPage Reg.FACET_LANE_STARVED = oneMore (rd c.regs p.facetPage Reg.FACET_LANE_STARVED) ∧
      rb u.regs p.facetPage Reg.HDR_EVT_STAT 0 = true) ∧
    (boundOn (c.port p) d.ch < limit → room →
      (u.port p).lastServed = d.ch ∧ u.lt = c.lt ∧ (∀ q, q ≠ p → u.port q = c.port q) ∧
      rd u.regs p.facetPage Reg.FACET_BOUND = oneMore (rd c.regs p.facetPage Reg.FACET_BOUND) ∧
      (rxEn c p = true → (c.port p).retuneEnd = none → (c.port p).gapEnd = none →
        blanked c p d.chan.lowBin d.chan.highBin = false →
        ∃ l, (u.port p).lanes = (c.port p).lanes ++ [l] ∧ l.no ∈ freeLanes c p ∧ l.ch = d.ch ∧ l.mode = d.mode ∧
          l.power = d.power ∧ l.chan = d.chan ∧ l.bindLt = d.lt ∧ l.sfdLt = none) ∧
      (rxEn c p = false ∨ (c.port p).retuneEnd.isSome = true → (u.port p).lanes = (c.port p).lanes ∧
        rd u.regs p.facetPage Reg.FACET_ABORTED = oneMore (rd c.regs p.facetPage Reg.FACET_ABORTED)) ∧
      (rxEn c p = true → (c.port p).retuneEnd = none →
        (c.port p).gapEnd.isSome = true ∨ blanked c p d.chan.lowBin d.chan.highBin = true →
        (u.port p).lanes = (c.port p).lanes ∧
        rd u.regs p.rfPage Reg.RF_BLANKED = oneMore (rd c.regs p.rfPage Reg.RF_BLANKED)))) ∧
  (
  ∀ (s : State) (r : Requester) (p : RPort) (v : Word), wayFree s r →
    let ch := rf s.c.regs p.facetPage Reg.FACET_CH_SEL 7 0
    let tc := wrI (posted s r).c.regs p.facetPage Reg.FACET_CH_LANES ch (setFld (setFld 0#32 1 0 (fld v 1 0)) 5 4 (fld v 5 4))
    let tl := wr (posted s r).c.regs p.facetPage Reg.FACET_PORT_LIMIT (w32 (fld v 8 0))
    (takesWrite s r p.facetPage Reg.FACET_CH_LANES →
      (rsvSum { s.c with regs := tc } p ≤ portLimit s.c p →
        exec (.chLanesWrite r p v) s = .next (fin ((posted s r).updR fun _ => tc))) ∧
      (portLimit s.c p < rsvSum { s.c with regs := tc } p →
        exec (.chLanesWrite r p v) s = .next (fin ((posted s r).updC fun c => c.err p.facetPage 0)))) ∧
    (takesWrite s r p.facetPage Reg.FACET_PORT_LIMIT →
      (rsvSum (posted s r).c p ≤ portLimit { s.c with regs := tl } p →
        exec (.portLimitWrite r p v) s = .next (fin ((posted s r).updR fun _ => tl))) ∧
      (portLimit { s.c with regs := tl } p < rsvSum (posted s r).c p →
        exec (.portLimitWrite r p v) s = .next (fin ((posted s r).updC fun c => c.err p.facetPage 0)))))

/-- SFD_FOUND, SFD_TIMEOUT, PHR_RECEIVED, SYNC_LOST (R64, R108, R128, R131, R137, R145, R607): the SFD gives the frame its
timestamp; a lane without one releases after SFD_TO octet periods; a good PHR gives the frame's end, of which a protected channel
gives notice, a bad one closes it PHR_BAD; a lane that loses synchronisation closes LOST. -/
def Obligations.LaneProgress : Prop :=
  ∀ (s : State) (p : RPort) (no : Nat) (l : Lane), portRun s p = true → (s.c.port p).lane no = some l →
    let others := (s.c.port p).lanes.filter fun k => !decide (k.no = no)
    let gone := ((s.c.port p).lanes.filter fun k => decide (k.no = no)).length
    let closes (i : Instr) (off : Nat) : Prop :=
      ∃ u, exec i s = .next (fin u) ∧ onlyPort p s u ∧ u.c.port p = { s.c.port p with lanes := others } ∧
        setsReg p.facetPage off 0 (w32 (min (2 ^ 32 - 1) ((rd s.c.regs p.facetPage off).toNat + gone))) s.c.regs u.c.regs
    (∀ lt, l.sfdLt = none →
      ∃ u, exec (.sfdFound p no lt) s = .next (fin u) ∧ onlyPort p s u ∧ u.c.regs = s.c.regs ∧
        (u.c.port p).lanes = (s.c.port p).lanes.map (fun k => if k.no = l.no then
          { l with sfdLt := some ((lt : Int) + signed 16 (rf s.c.regs p.rfPage Reg.RF_RX_TRIM 15 0)).toNat } else k)) ∧
    (l.sfdLt = none → l.bindLt + rf s.c.regs p.facetPage Reg.FACET_SFD_TO 9 0 * octetNs l.mode ≤ s.c.lt →
      closes (.sfdTimeout p no) Reg.FACET_SFD_TIMEOUT) ∧
    (l.sfdLt = none → s.c.lt < l.bindLt + rf s.c.regs p.facetPage Reg.FACET_SFD_TO 9 0 * octetNs l.mode →
      exec (.sfdTimeout p no) s = .next (fin s)) ∧
    (∀ h, l.sfdLt.isSome = true → l.phr = none → phrOk l.mode h = false → closes (.phrReceived p no h) Reg.FACET_PHR_BAD) ∧
    (∀ h t, l.sfdLt = some t → l.phr = none → phrOk l.mode h = true → l.chan.protect = false →
      ∃ u, exec (.phrReceived p no h) s = .next (fin u) ∧ onlyPort p s u ∧ u.c.regs = s.c.regs ∧
        (u.c.port p).lanes = (s.c.port p).lanes.map (fun k => if k.no = l.no then
          { l with phr := some { h with phyOpt := optMask l.mode h.phyOpt },
                   endLt := some (t + afterSfdNs l.mode (optMask l.mode h.phyOpt) h.len) } else k)) ∧
    (∀ h t, l.sfdLt = some t → l.phr = none → phrOk l.mode h = true → l.chan.protect = true →
      ∃ u, exec (.phrReceived p no h) s = .next (fin (u.notice (.rxBusy p l.ch
          (t + afterSfdNs l.mode (optMask l.mode h.phyOpt) h.len)))) ∧ onlyPort p s u ∧
        rb u.c.regs p.rfPage Reg.HDR_EVT_STAT 0 = true) ∧
    (l.sfdLt.isSome = true → closes (.syncLost p no) Reg.FACET_LOST)

/-- FCS_DECISION (R104, R145 to R147, R160 to R163): at the end of the frame the lane releases. A bad FCS closes it FCS_BAD and
nothing goes to the sides unless the port forwards such frames; a good frame that the filter drops is counted by its filter step;
one that passes and calls for no acknowledgement waits in the receive buffer with its class, if there is room. Where the spec is
silent a clause follows the model's choice, log entry 12. -/
def Obligations.FramesAreFiltered : Prop :=
  ∀ (s : State) (p : RPort) (no : Nat) (l : Lane) (h : PhrData) (t : Nat) (e : RxEnd), portRun s p = true →
    (s.c.port p).lane no = some l → l.phr = some h → l.endLt = some t →
    let others := (s.c.port p).lanes.filter fun k => !decide (k.no = no)
    let verdict := filterFrame s.c (beforeFcs e.psdu (fcsLen l.mode h.phyOpt))
    let near (u : State) : Prop := rd u.c.regs p.rfPage Reg.RF_NEAR_TX =
      if l.nearTx then oneMore (rd s.c.regs p.rfPage Reg.RF_NEAR_TX) else rd s.c.regs p.rfPage Reg.RF_NEAR_TX
    let buffered (status cls : Nat) : Prop :=
      ∃ u f, exec (.fcsDecision p no e) s = .next (fin u) ∧ sameSides s u ∧ (u.c.port p).lanes = others ∧ near u ∧
        u.c.air.rxbuf = s.c.air.rxbuf ++ [f] ∧ f.psdu = e.psdu ∧ f.rx.airClass = cls ∧ f.rx.sfdLt = l.sfdLt.getD 0 ∧
        f.rx.endLt = t ∧ f.rx.ackSent = false ∧ f.rx.rxStatus = status ∧ f.rx.nearTx = l.nearTx
    let counted (off : Nat) : Prop :=
      ∃ u, exec (.fcsDecision p no e) s = .next (fin u) ∧ onlyPort p s u ∧ (u.c.port p).lanes = others ∧ near u ∧
        rd u.c.regs Pg.AIR off = oneMore (rd s.c.regs Pg.AIR off)
    (s.c.lt < t → exec (.fcsDecision p no e) s = .next (fin s)) ∧
    (t ≤ s.c.lt → e.fcsOk = false → rb s.c.regs p.facetPage Reg.FACET_CFG 0 = false →
      ∃ u, exec (.fcsDecision p no e) s = .next (fin u) ∧ onlyPort p s u ∧ (u.c.port p).lanes = others) ∧
    (t ≤ s.c.lt → e.fcsOk = false → rb s.c.regs p.facetPage Reg.FACET_CFG 0 = true →
      (s.c.air.cellsUsed < rxCells → buffered 1 3) ∧ (rxCells ≤ s.c.air.cellsUsed → counted Reg.AIR_RX_OVERRUN)) ∧
    (t ≤ s.c.lt → e.fcsOk = true →
      (∀ off, verdict = .drop off → counted off) ∧
      (∀ cls promisc hd, verdict = .pass cls promisc hd →
        (rxCells ≤ s.c.air.cellsUsed → counted Reg.AIR_RX_OVERRUN) ∧
        (s.c.air.cellsUsed < rxCells → ackWanted s.c p cls promisc hd = false → buffered 0 cls)))

/-- PENDING_LIST_SET, CLEAR, CLEAR_ALL, QUERY (R29, R173, R176): the oldest passed update changes the list as its operation says
and its completion, with its status, is one input for both sides; a query answers from the list with every update that has passed
and changes nothing of it. -/
def Obligations.PendingList : Prop :=
  (∀ (s : State) (ext : Bool) (a : Nat) (rest : List PlOp), commonsUp s = true → s.c.air.updates = .set ext a :: rest →
    let k := plKey ext a
    (k ∈ s.c.air.list →
      ∃ u, exec .pendingListSet s = .next (fin (u.offer .units (.plDone (.set ext a) 1))) ∧ sameSides s u ∧
        u.c.air.list = s.c.air.list ∧ u.c.air.updates = rest) ∧
    (k ∉ s.c.air.list → s.c.air.list.length < plMax →
      ∃ u, exec .pendingListSet s = .next (fin (u.offer .units (.plDone (.set ext a) 0))) ∧ sameSides s u ∧
        (∀ j, j ∈ u.c.air.list ↔ j = k ∨ j ∈ s.c.air.list) ∧ u.c.air.updates = rest) ∧
    (k ∉ s.c.air.list → plMax ≤ s.c.air.list.length →
      ∃ u, exec .pendingListSet s = .next (fin (u.offer .units (.plDone (.set ext a) 3))) ∧ sameSides s u ∧
        u.c.air.list = s.c.air.list ∧ u.c.air.updates = rest)) ∧
  (∀ (s : State) (ext : Bool) (a : Nat) (rest : List PlOp), commonsUp s = true → s.c.air.updates = .clear ext a :: rest →
    let k := plKey ext a
    ∃ u, exec .pendingListClear s =
        .next (fin (u.offer .units (.plDone (.clear ext a) (if s.c.air.list.contains k then 0 else 2)))) ∧ sameSides s u ∧
      (∀ j, j ∈ u.c.air.list ↔ j ≠ k ∧ j ∈ s.c.air.list) ∧ u.c.air.updates = rest) ∧
  (∀ (s : State) (rest : List PlOp), commonsUp s = true → s.c.air.updates = .clearAll :: rest →
    ∃ u, exec .pendingListClearAll s = .next (fin (u.offer .units (.plDone .clearAll 0))) ∧ sameSides s u ∧ u.c.air.list = [] ∧
      u.c.air.updates = rest) ∧
  (∀ (s : State) (r : Requester) (v : Word), wayFree s r → takesWrite s r Pg.AIR Reg.AIR_PL_QCMD → bitOf v 1 = true →
    ∃ u, exec (.pendingListQuery r v) s = .next (fin u) ∧ sameSides s u ∧ u.c.air.list = s.c.air.list ∧
      u.c.air.qres = some (s.c.air.listNow.contains (plKey (bitOf v 0) (rd64 s.c.regs Pg.AIR Reg.AIR_PL_QADDR_LO))))

/-- The work of a side that falls due at its time inputs (R180, R181, R187, R190, R210, R223): parked frames that are too old
expire, refused SETs are repeated every second, an acknowledgement that did not come ends its launch or its window, a due window
is over for its record, a flood heard often enough is suppressed, reassemblies time out, and Skim's live entries are counted. What
is not due does nothing. Where the spec is silent a clause follows the model's choice, log entries 59, 60 and 73. -/
def Obligations.SideTimedWork : Prop :=
  (∀ x, sideDoes (.parkedFrameExpiry x) x fun _ lt _ d => d.expireParked lt) ∧
  (∀ (d : Side) (lt : Nat),
    let age := 1000000000 * (rf d.regs Pg.PEND Reg.PEND_MAX_AGE 23 0)
    let old (e : Parked) : Bool := !e.inFlight && decide (age < d.now - e.since)
    let e := d.expireParked lt
    (age = 0 → e = d) ∧
    (age ≠ 0 → e.pend.pool = d.pend.pool.filter (fun p => !(d.pend.pool.any fun o => old o && decide (o.f.id = p.f.id))) ∧
      rd e.regs Pg.PEND Reg.PEND_EXPIRED =
        w32 (min (2 ^ 32 - 1) ((rd d.regs Pg.PEND Reg.PEND_EXPIRED).toNat + (d.pend.pool.filter old).length)))) ∧
  (∀ x, sideDoes (.pendingSetRetry x) x fun _ _ _ d => d.retrySets) ∧
  (∀ d : Side, let due := d.pend.unann.filter fun e => decide (e.2 ≤ d.now)
    (due = [] → d.retrySets = d) ∧
    (∀ m t a, due = [(m, t)] → d.pend.addrs.find m = some a →
      d.retrySets.outq.map Txn.body = d.outq.map Txn.body ++ [.plUpdate (.set a.1 a.2)] ∧
      d.retrySets.pend = { d.pend with unann := d.pend.unann.put m (t + 1000000000) } ∧ d.retrySets.regs = d.regs)) ∧
  (∀ x, sideDoes (.ackWaitExpiry x) x fun _ lt c d => d.ackExpiry c lt) ∧
  (∀ (d : Side) (c : Commons) (lt : Nat),
    let due := d.trowel.released.filter fun r => match r.ackBy with
      | some t => decide (t ≤ d.tick)
      | none => false
    let e := d.ackExpiry c lt
    (due = [] → e = d) ∧
    (∀ r, due = [r] → r.win = none → counts Pg.TROWEL Reg.TROWEL_NOACK d.regs e.regs ∧ e.pend = d.pend ∧
      e.trowel.released = d.trowel.released.filter fun k => decide (k.f.id ≠ r.f.id)) ∧
    (∀ r w, due = [r] → r.win = some w → w.record = none → rf d.regs Pg.PEND Reg.PEND_CFG 11 8 ≤ w.tries →
      rf d.regs Pg.PEND Reg.PEND_MAX_WINDOWS 7 0 = 0 → counts Pg.PEND Reg.PEND_WIN_NOACK d.regs e.regs ∧
      e.pend.pool = d.pend.pool.map (fun k => if k.f.id = r.f.id then { k with inFlight := false, windows := k.windows + 1 }
        else k) ∧ e.outq = d.outq)) ∧
  (∀ x, sideDoes (.scheduledWindow x) x fun _ _ c d => d.scheduled c) ∧
  (∀ (d : Side) (c : Commons), let due := d.pend.recs.filter fun e => d.winDue e.2
    (due = [] → d.scheduled c = d) ∧
    (∀ n r, due = [(n, r)] → d.pend.recs.find n = some r → d.oldest r.mesh = none →
      d.scheduled c = { d with pend := { d.pend with recs := d.pend.recs.put n { r with k := r.k + 1 } } })) ∧
  (∀ x, sideDoes (.relayDecision x) x fun v lt c d => d.decideRelays v c lt) ∧
  (∀ (d : Side) (v : Variant) (c : Commons) (lt : Nat),
    let due := d.mesh.relays.filter fun r => match r.due with
      | some t => decide (t ≤ d.tick)
      | none => false
    let k := rf d.regs Pg.DML Reg.DML_SUPP_K 3 0
    let e := d.decideRelays v c lt
    (due = [] → e = d) ∧
    (∀ r h, due = [r] → d.mesh.skim.find r.place = some h → k ≠ 0 → k ≤ h.heard →
      counts Pg.DML Reg.DML_SUPPRESSED d.regs e.regs ∧ e.outq = d.outq ∧ e.trowel = d.trowel ∧
      e.mesh.relays = (d.mesh.relays.filter fun x => decide (x.place ≠ r.place)) ∧
      e.mesh.skim.find r.place = some { h with pend := false }) ∧
    (∀ r h, due = [r] → d.mesh.skim.find r.place = some h → k = 0 ∨ h.heard < k → d.ownEui = 0 →
      counts Pg.DML Reg.DML_RELAY_DROP d.regs e.regs ∧ e.outq = d.outq ∧ e.mesh.skim.find r.place = some { h with pend := false })) ∧
  (∀ x, sideDoes (.reassemblyTimeout x) x fun _ _ _ d => d.reasmTimeouts) ∧
  (∀ d : Side, let limit := 1000000000 * clampNat 1 60 (rf d.regs Pg.LOWPAN Reg.LOWPAN_REASM_TO 7 0)
    let old := d.mesh.reasm.filter fun r => decide (r.opened + limit ≤ d.now)
    d.reasmTimeouts.mesh.reasm = d.mesh.reasm.filter (fun r => !(old.any fun o => r.is o.orig o.tag o.size)) ∧
    rd d.reasmTimeouts.regs Pg.LOWPAN Reg.LOWPAN_REASM_TIMEOUT =
      w32 (min (2 ^ 32 - 1) ((rd d.regs Pg.LOWPAN Reg.LOWPAN_REASM_TIMEOUT).toNat + old.length)) ∧
    d.reasmTimeouts.outq = d.outq) ∧
  (∀ x, sideDoes (.skimSweep x) x fun _ _ _ d => d.skimSweep) ∧
  (∀ d : Side, (d.now < d.mesh.sweepNext → d.skimSweep = d) ∧
    (d.mesh.sweepNext ≤ d.now →
      rd d.skimSweep.regs Pg.SKIM Reg.SKIM_OCC = w32 (d.mesh.skim.filter fun e => d.skimLive e.2).length ∧
      d.skimSweep.mesh = { d.mesh with sweepNext := 1000000000 * (d.now / 1000000000 + 1) } ∧
      d.now < d.skimSweep.mesh.sweepNext))

/-- SANDER_VISIT, RESTART, SANDER_EN_WRITE, HASH_SEED_WRITE, CAM_MOVES_DONE, LOCK_LONG (R230, R239, R240, R246, R249): the table
"Sander visit" for one entry, the pass, the hash seed of an empty table alone, the moves of a CAM command ending once the lookups
before it are complete, and the one event of a lock held too long. WIN_READ, WIN_WRITE, WIN_DELETE, CTX_READ, CTX_WRITE (R195,
R219): a record or a context is read into its staging registers, or committed from them whole; a window record that breaks a rule
is refused with its result code and stays as it was. -/
def Obligations.TablesAndStagedRecords : Prop :=
  (
  (∀ (s : State) (x : SideId) (q : Seqd) (acq rebase : Bool), nextInput s x = some q → q.inp = .time 0 acq rebase →
    exec (.sanderVisit x) s = .next (fin (s.upd x fun d => d.visitNext s.c.lt q.lt))) ∧
  (∀ (d : Side) (lt at_ p : Nat), rb d.regs Pg.SANDER Reg.SANDER_CFG 0 = true → d.node.passAt = some p →
    let i := d.sanderPos
    let len := if d.node.passLen = 0 then max 1 (rf d.regs Pg.SANDER Reg.SANDER_PASS 16 0) else d.node.passLen
    let u := d.visitNext lt at_
    (at_ < visitLt p len i → u.node.nodes = d.node.nodes ∧ u.regs = d.regs ∧ u.node.passAt = some p) ∧
    (visitLt p len i ≤ at_ →
      (i + 1 < tableSize → rd u.regs Pg.SANDER Reg.SANDER_POS = w32 (i + 1) ∧ u.node.passAt = some p ∧ u.node.passLen = len) ∧
      (i + 1 = tableSize → rd u.regs Pg.SANDER Reg.SANDER_POS = 0 ∧
        u.node.passAt = some (p + 1000000000 * len) ∧ counts Pg.SANDER Reg.SANDER_PASSES d.regs u.regs) ∧
      counts Pg.SANDER Reg.SANDER_VISITED d.regs u.regs ∧
      ((d.node.nodes.filter fun e => decide (e.1 = i)) = [] → u.node.nodes = d.node.nodes) ∧
      (∀ e, (d.node.nodes.filter fun e => decide (e.1 = i)) = [(i, e)] →
        (∀ n, n ≠ i → u.node.nodes.find n = d.node.nodes.find n) ∧
        (e.lock = true → u.node.nodes = d.node.nodes ∧ counts Pg.SANDER Reg.SANDER_SKIP_LOCK d.regs u.regs) ∧
        (e.lock = false → e.static_ = true → u.node.nodes.find i = some { e with hit := false, age := 0 } ∧
          counts Pg.SANDER Reg.SANDER_KEPT_STATIC d.regs u.regs) ∧
        (e.lock = false → e.static_ = false → e.hit = true → u.node.nodes.find i = some { e with hit := false, age := 0 } ∧
          counts Pg.SANDER Reg.SANDER_CLEARED d.regs u.regs) ∧
        (e.lock = false → e.static_ = false → e.hit = false → e.age = 0 →
          u.node.nodes.find i = some { e with age := 1 } ∧ counts Pg.SANDER Reg.SANDER_MARKED d.regs u.regs) ∧
        (e.lock = false → e.static_ = false → e.hit = false → e.age ≠ 0 →
          u.node.nodes.find i = none ∧ counts Pg.SANDER Reg.SANDER_REMOVED d.regs u.regs)))) ∧
  (∀ (d : Side) (lt at_ : Nat), rb d.regs Pg.SANDER Reg.SANDER_CFG 0 = false ∨ d.node.passAt = none →
    (d.visitNext lt at_).node.nodes = d.node.nodes ∧ (d.visitNext lt at_).regs = d.regs) ∧
  sideRegister .restart Pg.SANDER Reg.SANDER_CMD 1 (fun _ _ _ d => if rb d.regs Pg.SANDER Reg.HDR_CTRL 1 then d.startPass else d) ∧
  (∀ (v : Word), let w := setFld (setFld (setFld 0#32 0 0 (fld v 0 0)) 1 1 (fld v 1 1)) 13 8 (fld v 13 8)
    sideRegister (fun r => .sanderEnWrite r v) Pg.SANDER Reg.SANDER_CFG v (fun _ _ _ d =>
      let e := d.updR fun t => wr t Pg.SANDER Reg.SANDER_CFG w
      if bitOf v 0 && !rb d.regs Pg.SANDER Reg.SANDER_CFG 0 then e.startPass else e)) ∧
  (∀ d : Side, d.startPass.node = { d.node with passAt := some d.now, passLen := max 1 (rf d.regs Pg.SANDER Reg.SANDER_PASS 16 0) } ∧
    setsReg Pg.SANDER Reg.SANDER_POS 0 0 d.regs d.startPass.regs) ∧
  (∀ (v : Word) (s : State) (x : SideId), ownWay s x →
    ((s.side x).node.nodes = [] → ∃ u, exec (.hashSeedWrite (.core x) v) s = .next (fin u) ∧ onlySideRegs x s u ∧
      setsReg Pg.NODE Reg.NODE_HASH_SEED 0 (if rb (s.side x).regs Pg.NODE Reg.HDR_LOCK 0 then
        rd (s.side x).regs Pg.NODE Reg.NODE_HASH_SEED else v) (s.side x).regs (u.side x).regs) ∧
    ((s.side x).node.nodes ≠ [] →
      exec (.hashSeedWrite (.core x) v) s = .next (fin (s.upd x fun d => d.err Pg.NODE 0)))) ∧
  (∀ x, sideDoes (.camMovesDone x) x fun _ _ _ d => d.camMovesDone) ∧
  (∀ d : Side, (d.movesAwaited = false → d.camMovesDone = { d with node := { d.node with camOld := none } }) ∧
    (d.movesAwaited = true → d.camMovesDone = d)) ∧
  (∀ x slot, sideDoes (.lockLong x slot) x fun _ _ _ d => d.lockLong slot) ∧
  (∀ (d : Side) (slot : Nat) (l : LockSlot), d.node.locks[slot]? = some l →
    let limit := rf d.regs Pg.NODE Reg.NODE_LOCK_TO 15 0
    (limit ≠ 0 → l.warned = false → 1000000 * limit < d.now - l.since →
      (d.lockLong slot).node = { d.node with locks := d.node.locks.set slot { l with warned := true } } ∧
      rb (d.lockLong slot).regs Pg.NODE Reg.HDR_EVT_STAT 0 = true) ∧
    (limit = 0 ∨ l.warned = true ∨ d.now - l.since ≤ 1000000 * limit → d.lockLong slot = d))) ∧
  (
  sideRegister .winRead Pg.PEND Reg.PEND_WIN_CMD 1 (fun _ _ _ d => d.cmdWinRead) ∧
  sideRegister .winWrite Pg.PEND Reg.PEND_WIN_CMD 2 (fun _ _ _ d => d.cmdWinWrite) ∧
  sideRegister .winDelete Pg.PEND Reg.PEND_WIN_CMD 4 (fun _ _ _ d => d.cmdWinDelete) ∧
  sideRegister .ctxRead Pg.LOWPAN Reg.LOWPAN_CTX_CMD 1 (fun _ _ _ d => d.ctxRead) ∧
  sideRegister .ctxWrite Pg.LOWPAN Reg.LOWPAN_CTX_CMD 2 (fun _ _ _ d => d.ctxWrite) ∧
  (∀ (d : Side) (r : WinRec), d.pend.recs.find d.winIdx = some r →
    let u := d.cmdWinRead
    u.pend = { d.pend with winResult := 0 } ∧ rd u.regs Pg.PEND Reg.PEND_WIN_MESH = w32 r.mesh ∧
    rd u.regs Pg.PEND Reg.PEND_WIN_PERIOD = w32 r.period ∧ rd u.regs Pg.PEND Reg.PEND_WIN_LEN = w32 r.len ∧
    (r.nom < 2 ^ 64 → rd64 u.regs Pg.PEND Reg.PEND_WIN_NOM_LO = r.nom) ∧
    (r.anchor < 2 ^ 64 → rd64 u.regs Pg.PEND Reg.PEND_WIN_ANCHOR_LO = r.anchor) ∧
    rd u.regs Pg.PEND Reg.PEND_WIN_EPS = w32 (unsignedOf 32 r.eps)) ∧
  (∀ d : Side,
    let period := d.pendReg Reg.PEND_WIN_PERIOD
    let len := rf d.regs Pg.PEND Reg.PEND_WIN_LEN 19 0
    let known := (d.nodeAt (d.pendReg Reg.PEND_WIN_MESH)).isSome
    let full := (d.pend.recs.find d.winIdx).isNone && decide (16384 ≤ d.pend.recs.length)
    let u := d.cmdWinWrite
    u = { d with pend := u.pend } ∧
    (period < 1000 ∨ len = 0 → u.pend = { d.pend with winResult := 1 }) ∧
    (1000 ≤ period → len ≠ 0 → known = false → u.pend = { d.pend with winResult := 2 }) ∧
    (1000 ≤ period → len ≠ 0 → known = true → full = true → u.pend = { d.pend with winResult := 3 }) ∧
    (1000 ≤ period → len ≠ 0 → known = true → full = false → u.pend.winResult = 0 ∧
      (∀ n, n ≠ d.winIdx → u.pend.recs.find n = d.pend.recs.find n) ∧
      ∃ r, u.pend.recs.find d.winIdx = some r ∧ r.mesh = d.pendReg Reg.PEND_WIN_MESH ∧ r.period = period ∧ r.len = len ∧
        r.nom = rd64 d.regs Pg.PEND Reg.PEND_WIN_NOM_LO ∧ r.anchor = rd64 d.regs Pg.PEND Reg.PEND_WIN_ANCHOR_LO ∧
        r.eps = signed 32 (d.pendReg Reg.PEND_WIN_EPS) ∧ r.noack = false)) ∧
  (∀ d : Side, d.cmdWinDelete.pend.recs.find d.winIdx = none ∧ d.cmdWinDelete.pend.winResult = 0 ∧
    ∀ n, n ≠ d.winIdx → d.cmdWinDelete.pend.recs.find n = d.pend.recs.find n) ∧
  (∀ d : Side, let i := rf d.regs Pg.LOWPAN Reg.LOWPAN_CTX_IDX 3 0
    let u := d.ctxWrite
    u.regs = d.regs ∧ (∀ n, n ≠ i → u.mesh.ctxs.find n = d.mesh.ctxs.find n) ∧
    ∃ c, u.mesh.ctxs.find i = some c ∧ c.len = rf d.regs Pg.LOWPAN Reg.LOWPAN_CTX_CFG 7 0 ∧
      c.en = rb d.regs Pg.LOWPAN Reg.LOWPAN_CTX_CFG 8 ∧ c.comp = rb d.regs Pg.LOWPAN Reg.LOWPAN_CTX_CFG 9 ∧
      ∀ j, j < 4 → w32 (c.prefix_ / 2 ^ (96 - 32 * j)) = rd d.regs Pg.LOWPAN (Reg.LOWPAN_CTX_PFX + 4 * j)) ∧
  (∀ (d : Side) (c : LpCtx), d.mesh.ctxs.find (rf d.regs Pg.LOWPAN Reg.LOWPAN_CTX_IDX 3 0) = some c →
    d.ctxRead.mesh = d.mesh ∧
    (∀ j, j < 4 → rd d.ctxRead.regs Pg.LOWPAN (Reg.LOWPAN_CTX_PFX + 4 * j) = w32 (c.prefix_ / 2 ^ (96 - 32 * j))) ∧
    rd d.ctxRead.regs Pg.LOWPAN Reg.LOWPAN_CTX_CFG = w32 (c.len + 256 * b2n c.en + 512 * b2n c.comp)))

/-- RX_FRAME_CONSUME and PENDING_UPDATE_COMPLETION (R119, R163, R177, R180, R185 to R187, R198, R201): a frame received with a bad
status is not used; an acknowledgement frame that matches no launch is counted; a frame for the mesh passes the table "DML receive
steps", counts at the step that refuses it, and nothing else happens; a copy of a message that Skim holds is dropped and counted;
an acknowledgement that was sent charges the copies. A SET that the list refuses is tried again a second later. Where the spec is
silent a clause follows the model's choice, log entries 59, 62 and 109. -/
def Obligations.ReceivedFrames : Prop :=
  (∀ x f, sideTakes (.rxFrameConsume x) x (.rxFrame f) fun v lt c q d => d.rxFrame v c lt q f) ∧
  (∀ (v : Variant) (c : Commons) (d : Side) (lt : Nat) (q : Seqd) (f : RxFrame),
    let u := d.rxFrame v c lt q f
    let h := parseMhr (beforeFcs f.psdu (fcsLen f.rx.mode f.rx.phyOpt))
    (f.rx.rxStatus ≠ 0 → u = d) ∧
    (∀ m, f.rx.rxStatus = 0 → f.rx.airClass = 2 → h = some m →
      (d.trowel.released.find? (d.ackMatches f.rx (if m.seqSup then none else some m.seq))) = none →
      u = { d with regs := u.regs } ∧ counts Pg.PEND Reg.PEND_ACK_UNMATCHED d.regs u.regs) ∧
    (f.rx.rxStatus = 0 → f.rx.airClass = 0 → f.rx.ackPend = false →
      let b := d.chargeAck c f.rx
      (unitOn d.regs Pg.DML = false → u = { b with reports := d.reports ++ [Report.disDrop] }) ∧
      (unitOn d.regs Pg.DML = true → parseFrame f = none →
        u = { b with regs := u.regs } ∧ setsReg Pg.DML Reg.DML_SHORT 0 (oneMore (rd d.regs Pg.DML Reg.DML_SHORT)) d.regs u.regs) ∧
      (∀ p off, unitOn d.regs Pg.DML = true → parseFrame f = some p → d.dmlRefusal p.dml = some off →
        u = { b with regs := u.regs } ∧ setsReg Pg.DML off 0 (oneMore (rd d.regs Pg.DML off)) d.regs u.regs) ∧
      (∀ p n e, unitOn d.regs Pg.DML = true → parseFrame f = some p → d.dmlRefusal p.dml = none → unitOn d.regs Pg.SKIM = true →
        d.skimFind p.dml.orig p.dml.seq = some (n, e) → e.pend = false →
        counts Pg.SKIM Reg.SKIM_DUP d.regs u.regs ∧ counts Pg.DML Reg.DML_RX_OK d.regs u.regs ∧
        (f.rx.ackSent = true → counts Pg.PEND Reg.PEND_DUP_ACKED d.regs u.regs) ∧
        u.mesh = { d.mesh with skim := d.mesh.skim.put n { e with copies := min 255 (e.copies + 1) } } ∧ u.outq = d.outq ∧
        u.strand = d.strand))) ∧
  (∀ (c : Commons) (d : Side) (m : RxMeta), m.ackSent = false → d.chargeAck c m = d) ∧
  (∀ (d : Side) (m : Dml),
    (m.ver ≠ 1 → d.dmlRefusal m = some Reg.DML_VERSION) ∧
    (m.ver = 1 → m.ty = 1 → d.dmlRefusal m = some Reg.DML_DIR) ∧
    (m.ver = 1 → 5 ≤ m.ty → d.dmlRefusal m = some Reg.DML_TYPE) ∧
    (∀ off, d.dmlRefusal m = some off → off = Reg.DML_TENANT →
      rb d.regs Pg.DML (Reg.DML_TEN_EN + 4 * (m.tenant / 32)) (m.tenant % 32) = false) ∧
    (d.dmlRefusal m = none → m.ver = 1 ∧ m.ty ≠ 1 ∧ m.ty < 5 ∧ m.orig ≠ 0 ∧ m.orig ≠ 2 ^ 32 - 1 ∧ m.orig ≠ d.ownId ∧
      (rb d.regs Pg.DML Reg.DML_HOP_CHK 4 = true → m.ttl + m.hops ≤ rf d.regs Pg.DML Reg.DML_HOP_CHK 3 0))) ∧
  (∀ x op st, sideTakes (.pendingUpdateCompletion x) x (.plDone op st) fun _ _ _ _ d => d.plDone op st) ∧
  (∀ (d : Side) (ext : Bool) (addr m : Nat), d.pend.nodeOf ext addr = some m →
    (let u := d.plDone (.set ext addr) 3;
      counts Pg.PEND Reg.PEND_UNANNOUNCED d.regs u.regs ∧ u = { d with regs := u.regs, pend := u.pend } ∧
      u.pend.pool = d.pend.pool ∧ u.pend.addrs = d.pend.addrs ∧
      u.pend.unann.find m = some ((d.pend.unann.find m).getD (d.now + 1000000000))) ∧
    ∀ st, st ≠ 3 → d.plDone (.set ext addr) st = { d with pend := { d.pend with unann := d.pend.unann.del m } })

/-- The table commands (R242 to R249, R380, R389, R392): a command item is taken from its strand, its unit answers it with a
RESULT that carries its status and octets, and it is counted. A refused command changes nothing of the tables. While entry moves
run the prefix commands wait. Where the spec is silent a clause follows the model's choice, log entries 63, 73 and 116. -/
def Obligations.TableCommands : Prop :=
  let command (i : SideId → Nat → Instr) (code unit : Nat) (f : Side → List Byte → Nat × List Byte × Side) : Prop :=
    ∀ x n, sideDoes (i x n) x fun _ lt _ d => d.runCommand lt n code unit Pg.NODE Reg.NODE_CMD_OK Reg.NODE_CMD_FAIL f
  let moves (i : SideId → Nat → Instr) (code : Nat) (f : Side → List Byte → Nat × List Byte × Side) : Prop :=
    ∀ (x : SideId) (n : Nat) (s : State),
      ((s.side x).node.camOld.isSome = true → exec (i x n) s = .next (fin s)) ∧
      ((s.side x).node.camOld = none → sideRun s x = true → exec (i x n) s = .next (fin (s.upd x fun d =>
        d.runCommand s.c.lt n code Pg.PCAM Pg.NODE Reg.NODE_CMD_OK Reg.NODE_CMD_FAIL f)))
  command .ntRead 1 Pg.NODE Side.cmdNtRead ∧ command .ntLock 2 Pg.NODE Side.cmdNtLock ∧
  command .ntWrite 3 Pg.NODE Side.cmdNtWrite ∧ command .ntDelete 4 Pg.NODE Side.cmdNtDelete ∧
  command .ntScan 5 Pg.NODE Side.cmdNtScan ∧ command .skimRead 11 Pg.SKIM Side.cmdSkimRead ∧
  moves .pcRead 8 Side.cmdPcRead ∧ moves .pcInsert 9 Side.cmdPcInsert ∧ moves .pcDelete 10 Side.cmdPcDelete ∧
  (∀ (d : Side) (lt n code unit page ok fail : Nat) (f : Side → List Byte → Nat × List Byte × Side) (h : Desc),
    let u := d.runCommand lt n code unit page ok fail f
    (d.nextItem n = none → u = d) ∧
    (d.nextItem n = some h → (h.ty ≠ tyCommand ∨ h.code ≠ code) → u = d) ∧
    (∀ t e, d.nextItem n = some h → h.ty = tyCommand → h.code = code → d.takeItem n = (some t, e) → t.ok = true →
      let b := e.freeCellsOf t.cells
      let r := f b t.data
      (unitOn b.regs unit = true → u = (r.2.2.countCmd page ok fail r.1).result lt n h r.1 r.2.1) ∧
      (unitOn b.regs unit = false → u = (b.countCmd page ok fail 1).result lt n h Config.refusalStatus [])) ∧
    (∀ t e, d.nextItem n = some h → h.ty = tyCommand → h.code = code → d.takeItem n = (some t, e) → t.ok = false →
      u = e.badItem lt n t)) ∧
  (∀ (d : Side) (a : List Byte),
    (∀ f, f = Side.cmdNtRead ∨ f = Side.cmdNtScan ∨ f = Side.cmdSkimRead ∨ f = Side.cmdPcRead → (f d a).2.2 = d) ∧
    (∀ f, f = Side.cmdNtLock ∨ f = Side.cmdNtWrite ∨ f = Side.cmdNtDelete ∨ f = Side.cmdPcDelete → (f d a).1 ≠ 0 → (f d a).2.2 = d) ∧
    (∀ n e, d.nodeAt (leAt a 0 4) = some (n, e) →
      (e.lock = false → d.node.locks.length < 16 → (d.cmdNtLock a).1 = 0 ∧
        (d.cmdNtLock a).2.1 = packNode { e with lock := true } ∧
        (d.cmdNtLock a).2.2.node.nodes.find n = some { e with lock := true } ∧
        (d.cmdNtLock a).2.2.node.locks = d.node.locks ++ [{ entry := n, ul := 0, dl := 0, since := d.now, warned := false }]) ∧
      (e.lock = true ∨ 16 ≤ d.node.locks.length → (d.cmdNtLock a).1 = 4) ∧
      (d.cmdNtDelete a).1 = 0 ∧ (d.cmdNtDelete a).2.2.node.nodes = d.node.nodes.del n ∧
      (d.cmdNtDelete a).2.2.node.locks = d.node.locks.filter fun l => decide (l.entry ≠ n)) ∧
    (∀ e, byteAt a 0 = 0 → d.nodeAt (leAt a 1 4) = some e → d.cmdNtRead a = (0, packNode e.2, d)) ∧
    (byteAt a 0 = 0 → d.nodeAt (leAt a 1 4) = none → d.cmdNtRead a = (1, [], d)) ∧
    (∀ n e, d.nodeAt (unpackNode a).mesh = some (n, e) →
      ((unpackNode a).lock = true → e.lock = false → (d.cmdNtWrite a).1 = 8) ∧
      ((d.cmdNtWrite a).1 = 0 → (unpackNode a).epoch = e.epoch → ∃ g, (d.cmdNtWrite a).2.2.node.nodes.find n = some g ∧
        e.ulFc ≤ g.ulFc ∧ e.dlFc ≤ g.dlFc ∧ (unpackNode a).ulFc ≤ g.ulFc ∧ (unpackNode a).dlFc ≤ g.dlFc ∧
        g.pend = if e.lock && !(unpackNode a).lock then d.hasParked (unpackNode a).mesh else e.pend)) ∧
    (tableSize ≤ leAt a 0 4 ∨ byteAt a 4 = 0 ∨ 64 < byteAt a 4 → (d.cmdNtScan a).1 = 6) ∧
    (leAt a 0 4 < tableSize → byteAt a 4 ≠ 0 → byteAt a 4 ≤ 64 → d.cmdNtScan a =
      (0, ((d.node.nodes.filter fun e => decide (leAt a 0 4 ≤ e.1) && decide (e.1 < leAt a 0 4 + byteAt a 4)).map fun e =>
        packNode e.2).flatten, d)) ∧
    (let e := unpackCam a;
      (e.bad = true ∨ 4 < e.dest → d.cmdPcInsert a = (6, [], d)) ∧
      (e.bad = false → e.dest ≤ 4 → d.node.cam.any e.same = true → d.cmdPcInsert a = (2, [], d)) ∧
      (e.bad = false → e.dest ≤ 4 → d.node.cam.any e.same = false → 4096 ≤ d.node.cam.length → (d.cmdPcInsert a).1 = 7 ∧
        (d.cmdPcInsert a).2.2.node = d.node) ∧
      (e.bad = false → e.dest ≤ 4 → d.node.cam.any e.same = false → d.node.cam.length < 4096 → (d.cmdPcInsert a).1 = 0 ∧
        (d.cmdPcInsert a).2.2.node.camOld = some d.node.cam ∧
        ∃ l r, l ++ r = d.node.cam ∧ (d.cmdPcInsert a).2.2.node.cam = l ++ e :: r ∧ (∀ g, g ∈ l → g.before e = true) ∧
          (∀ g, r.head? = some g → g.before e = false) ∧
          counts Pg.PCAM Reg.PCAM_INSERT d.regs (d.cmdPcInsert a).2.2.regs)) ∧
    ((d.cmdPcDelete a).1 = 0 → (d.cmdPcDelete a).2.2.node.camOld = some d.node.cam ∧
      (d.cmdPcDelete a).2.2.node.cam.length + 1 = d.node.cam.length ∧ counts Pg.PCAM Reg.PCAM_DELETE d.regs (d.cmdPcDelete a).2.2.regs))

/-- ENROL, REMASK_PASS, DERIVATION_COMPLETE, TEN_MAP_WRITE (R257, R268, R269, R273, R275, R603): a side enrols once, from four
TRNG words; a re-mask pass draws two, changes every mask and no key; a draw takes the words that are there and waits for the
others; the oldest derivation completes into the set of its key; a write of TEN_MAP advances the tenant's generation. The key
commands (R275, R277 to R280, R301 to R305): what each answers, which generations it advances, and that none of them but
KEY_EXPORT gives a key's octets. An update message is applied only after every check, counted, and its counter kept. Where the
spec is silent a clause follows the model's choice, log entries 63, 71 and 119. -/
def Obligations.KeyUpkeepAndCommands : Prop :=
  (
  sideRegister .enrol Pg.LOCKET Reg.LOCKET_ENROL 1 (fun _ _ _ d =>
    if d.mram.helper.isSome || d.waitsFor .enrol then d.err Pg.LOCKET 0 else d.ask .enrol) ∧
  (∀ (d : Side) (use : DrawFor), d.draws = [] →
    (use.words ≤ d.trng.length →
      d.ask use = Side.drawn { d with trng := d.trng.drop use.words } use (d.trng.take use.words)) ∧
    (d.trng.length < use.words → d.ask use = { d with trng := [], draws := [{ use := use, got := d.trng }] })) ∧
  (∀ (d : Side) (ws : List Word64), let octets := (ws.map fun w => beBytes 8 w.toNat).flatten
    let u := d.drawn .remask ws
    d.drawn .enrol ws = { d with key := { d.key with enrolled := some octets } } ∧
    u.key.mp = octets ∧ counts Pg.LOCKET Reg.LOCKET_REMASK_PASSES d.regs u.regs ∧
    ∀ n k, d.key.slots.find n = some k → (maskOf d.key.mp n k.key.length).length = k.key.length →
      (maskOf u.key.mp n k.key.length).length = k.key.length →
      ∃ g, u.key.slots.find n = some g ∧ u.key.mask n g.key = d.key.mask n k.key ∧ g.attr = k.attr ∧ g.ty = k.ty) ∧
  (∀ x, sideDoes (.remaskPass x) x fun _ _ _ d => d.remaskPass) ∧
  (∀ d : Side, (d.now < d.key.remaskNext → d.remaskPass = d) ∧
    (d.key.remaskNext ≤ d.now →
      d.remaskPass = ({ d with key := { d.key with remaskNext := d.nextRemask d.now } } : Side).ask .remask ∧
      d.now < d.nextRemask d.now)) ∧
  (∀ x, sideDoes (.derivationComplete x) x fun v lt c d => d.derived v c lt) ∧
  (∀ (d : Side) (v : Variant) (c : Commons) (lt : Nat),
    (d.node.held = [] → d.derived v c lt = d.completeFlight) ∧ (d.key.flights = [] → d.completeFlight = d) ∧
    ∀ e rest, d.key.flights = e :: rest → d.completeFlight.key.flights = rest ∧
      (∀ i, i / 4 ≠ cacheSet e.entry.kind e.entry.tenant e.entry.epoch e.entry.eui →
        d.completeFlight.key.cache.find i = d.key.cache.find i) ∧
      (∃ i g, i / 4 = cacheSet e.entry.kind e.entry.tenant e.entry.epoch e.entry.eui ∧
        d.completeFlight.key.cache.find i = some g ∧
        g.is e.entry.kind e.entry.tenant e.entry.epoch e.entry.eui = true ∧ g.attr = e.entry.attr) ∧
      d.completeFlight.outq = d.outq) ∧
  (∀ v : Word, sideRegister (fun r => .tenMapWrite r v) Pg.FILIG Reg.FILIG_TEN_MAP v (fun _ _ _ d =>
    let t := rf d.regs Pg.FILIG Reg.FILIG_TEN_IDX 9 0
    (d.updR fun k => wrI k Pg.FILIG Reg.FILIG_TEN_MAP t (setFld (setFld 0#32 10 0 (fld v 10 0)) 31 31 (fld v 31 31))).bumpTenGen t)) ∧
  (∀ (d : Side) (t : Nat), (d.bumpTenGen t).tenGen t = (if d.tenGen t = 2 ^ 32 - 1 then 1 else d.tenGen t + 1) ∧
    (∀ n, n ≠ t → (d.bumpTenGen t).tenGen n = d.tenGen n) ∧
    (d.tenGen t = 2 ^ 32 - 1 → (d.bumpTenGen t).key.cache = []))) ∧
  (
  let command (i : SideId → Nat → Instr) (code : Nat) (f : Side → List Byte → Nat × List Byte × Side) : Prop :=
    ∀ x n, sideDoes (i x n) x fun _ lt _ d => d.runCommand lt n code Pg.FILIG Pg.FILIG Reg.FILIG_CMD_OK Reg.FILIG_CMD_FAIL f
  command .keyInfo 16 Side.cmdKeyInfo ∧ command .keyInvalidate 17 Side.cmdKeyInvalidate ∧
  command .tenInvalidate 18 Side.cmdTenInvalidate ∧ command .nodeInvalidate 19 Side.cmdNodeInvalidate ∧
  command .cacheFlush 20 (fun d _ => d.cmdCacheFlush) ∧ command .keyExport 21 Side.cmdKeyExport ∧
  command .keyUpdate 22 Side.cmdKeyUpdate ∧
  ∀ (d : Side) (a : List Byte),
    (2048 ≤ leAt a 0 2 → d.cmdKeyInfo a = (6, [], d) ∧ d.cmdKeyInvalidate a = (6, [], d)) ∧
    (leAt a 0 2 < 2048 → d.key.root = none → d.cmdKeyInfo a = (5, [], d)) ∧
    (leAt a 0 2 < 2048 → d.key.root.isSome = true →
      (d.key.slots.find (leAt a 0 2) = none → d.cmdKeyInfo a = (1, [], d)) ∧
      (∀ k, d.key.slots.find (leAt a 0 2) = some k → d.cmdKeyInfo a =
        (0, [b8 k.ty, b8 k.attr] ++ leBytes 2 k.tenant ++ [b8 (b2n k.any), b8 k.dattr] ++ leBytes 4 (d.slotGen (leAt a 0 2)), d))) ∧
    (leAt a 0 2 < 2048 → (d.cmdKeyInvalidate a).1 = 0 ∧ (d.cmdKeyInvalidate a).2.2.slotGen (leAt a 0 2) =
        (if d.slotGen (leAt a 0 2) = 2 ^ 32 - 1 then 1 else d.slotGen (leAt a 0 2) + 1) ∧
      ∀ n, n ≠ leAt a 0 2 → (d.cmdKeyInvalidate a).2.2.slotGen n = d.slotGen n) ∧
    (1024 ≤ leAt a 0 2 → d.cmdTenInvalidate a = (6, [], d) ∧ d.cmdNodeInvalidate a = (6, [], d)) ∧
    (leAt a 0 2 < 1024 → d.cmdTenInvalidate a = (0, [], d.bumpTenGen (leAt a 0 2)) ∧ (d.cmdNodeInvalidate a).1 = 0 ∧
      (∀ i e, (i, e) ∈ (d.cmdNodeInvalidate a).2.2.key.cache ↔ (i, e) ∈ d.key.cache ∧
        ¬ (e.kind = 2 ∧ e.tenant = leAt a 0 2 ∧ e.eui = leAt a 2 8)) ∧
      (d.cmdNodeInvalidate a).2.2.key.slots = d.key.slots) ∧
    (d.cmdCacheFlush.1 = 0 ∧ d.cmdCacheFlush.2.2 = { d with key := { d.key with cache := [], flights := [] } }) ∧
    ((d.cmdKeyExport a).1 ≠ 0 → (d.cmdKeyExport a).2.1 = [] ∧ (d.cmdKeyExport a).2.2 = d) ∧
    (byteAt a 0 = 0 → ∀ k w, leAt a 1 2 < 2048 → leAt a 3 2 < 2048 → d.key.root.isSome = true →
      d.key.slots.find (leAt a 1 2) = some k → d.key.slots.find (leAt a 3 2) = some w → k.ty ≠ 3 →
      (nbit k.attr 6 = false → (d.cmdKeyExport a).1 = 4) ∧
      (nbit k.attr 6 = true → nbit w.attr 4 = false ∨ w.ty = 3 → (d.cmdKeyExport a).1 = 2) ∧
      (nbit k.attr 6 = true → nbit w.attr 4 = true → w.ty ≠ 3 → w.any = false → w.tenant ≠ k.tenant → (d.cmdKeyExport a).1 = 3) ∧
      (nbit k.attr 6 = true → nbit w.attr 4 = true → w.ty ≠ 3 → (w.any = true ∨ w.tenant = k.tenant) →
        d.cmdKeyExport a = (0, kwWrap (d.key.mask (leAt a 3 2) w.key) (d.key.mask (leAt a 1 2) k.key), d))) ∧
    (∀ st, d.checkUpdate a = .error st → (d.cmdKeyUpdate a).1 = st ∧ (d.cmdKeyUpdate a).2.2.mram = d.mram ∧
      (d.cmdKeyUpdate a).2.2.key = { d.key with lastStatus := st } ∧
      counts Pg.HALL Reg.HALL_UPD_REFUSED d.regs (d.cmdKeyUpdate a).2.2.regs) ∧
    (∀ g, d.checkUpdate a = .ok g → (d.cmdKeyUpdate a).1 = 0 ∧ counts Pg.HALL Reg.HALL_UPD_OK d.regs (d.cmdKeyUpdate a).2.2.regs ∧
      d.hallCtr < g.counter ∧
      (d.key.loupe = false → g.counter ∈ (d.cmdKeyUpdate a).2.2.mram.ring) ∧
      (d.key.loupe = true → (d.cmdKeyUpdate a).2.2.key.testCtr = g.counter ∧ (d.cmdKeyUpdate a).2.2.mram.ring = d.mram.ring) ∧
      (g.op = 3 → (d.cmdKeyUpdate a).2.2.key.slots.find g.target = none ∧ (d.cmdKeyUpdate a).2.2.mram.keyImages.find g.target = none)))

/-- TAMPER_TRIP and SIDE_TAMPER (R281, R306, R307, R309, R311): a source that is not enabled only shows in the status; an enabled
one destroys every key of both sides, records its cause, its time as AON counts it and the count, and a Locket in retention goes
off; the sides note the event, and a shadow that the trip took out restarts. LOUPE_CHALLENGE, LOUPE_OPEN, LOUPE_CLOSE,
LOUPE_LOCKOUT_END, SIDE_LOUPE_OPEN, SIDE_LOUPE_CLOSE (R259, R260, R305, R312, R314 to R316): a challenge makes a nonce of four
TRNG words unless a lockout runs; an attempt uses the nonce up and gives its result; a failed one counts, and from the third on
locks; a good one opens Loupe, and the sides work under the test root until it closes, unless tamper forbids any root. Where the
spec is silent a clause follows the model's choice, log entries 82, 83 and 118. -/
def Obligations.TamperAndLoupe : Prop :=
  (
  (∀ (s : State) (n : Nat), n < 7 → s.c.sys.porstLow = false → rb s.c.regs Pg.TAMP Reg.TAMP_SRC_EN n = false →
    exec (.tamperTrip n) s = .next (fin { s with c := { s.c with tamp := { s.c.tamp with
      status := setNBit s.c.tamperActive n true, statusAt := s.c.lt } } })) ∧
  (∀ (s : State) (n : Nat), n < 7 → s.c.sys.porstLow = false → rb s.c.regs Pg.TAMP Reg.TAMP_SRC_EN n = true →
    ∃ u, exec (.tamperTrip n) s = .next (fin u) ∧
      (∀ x, (u.side x).key.root = none ∧ (u.side x).key.kek = [] ∧ (u.side x).key.slots = [] ∧ (u.side x).key.cache = [] ∧
        (u.side x).key.flights = [] ∧ (u.side x).key.keyless = true ∧
        counts Pg.LOCKET Reg.LOCKET_ZEROIZE (s.side x).regs (u.side x).regs) ∧
      u.c.tamp.zeroized = true ∧ nbit u.c.tamp.status n = true ∧ u.c.lt = s.c.lt ∧
      rb u.c.regs Pg.TAMP Reg.TAMP_CAUSE n = true ∧
      (locketSleeps s .a = true ∨ locketSleeps s .b = true → rb u.c.regs Pg.TAMP Reg.TAMP_CAUSE 9 = true) ∧
      (locketSleeps s .a = false → locketSleeps s .b = false → keyBusy s = true → rb u.c.regs Pg.TAMP Reg.TAMP_CAUSE 8 = true) ∧
      (∀ x, locketSleeps s x = true → u.c.pd.dom (locketDomain x) = .off) ∧
      counts Pg.TAMP Reg.TAMP_COUNT s.c.regs u.c.regs ∧
      (rd s.c.regs Pg.TAMP Reg.TAMP_CAUSE = 0 → rd u.c.regs Pg.TAMP Reg.TAMP_CAUSE_LT = w32 (coarseLt s.c.lt)) ∧
      (rd s.c.regs Pg.TAMP Reg.TAMP_CAUSE ≠ 0 →
        rd u.c.regs Pg.TAMP Reg.TAMP_CAUSE_LT = rd s.c.regs Pg.TAMP Reg.TAMP_CAUSE_LT)) ∧
  (∀ x, sideTakes (.sideTamper x) x (.notice .tamper) fun _ _ _ _ d => d) ∧
  (∀ (s : State) (x : SideId) (r : Refill), nextInput s x = none → s.c.bezel.refill = some r → r.side = x → r.phase = 0 →
    r.retryAt = none → s.variant.full = true → s.c.bezel.st x.other = .alone →
    ∃ u, exec (.sideTamper x) s = .next (fin u) ∧ u.c.bezel.st x = .boot ∧ u.c.bezel.refill =
      some { side := x, tries := 0, phase := 1, fwu := false, retryAt := none, copy := 0 } ∧ u.side x.other = s.side x.other ∧
      (u.side x).mram.images = (s.side x).mram.images ∧ (u.side x).strand.rings = [])) ∧
  (
  (∀ (s : State) (r : Requester), wayFree s r → takesWrite s r Pg.LOUPE Reg.LOUPE_CMD →
    (∀ t, s.c.tamp.lockEnd = some t → s.c.lt < t → exec (.loupeChallenge r) s =
      .next (fin ((posted s r).updC fun c => { c with tamp := { c.tamp with result := 6 } }))) ∧
    ((∀ t, s.c.tamp.lockEnd = some t → t ≤ s.c.lt) →
      ∃ u, exec (.loupeChallenge r) s = .next (fin u) ∧ sameSides s u ∧ u.c = { (posted s r).c with tamp := u.c.tamp } ∧
        (4 ≤ s.c.tamp.trng.length → u.c.tamp.asked = none ∧ u.c.tamp.trng = s.c.tamp.trng.drop 4 ∧
          u.c.tamp.nonce = some (((s.c.tamp.trng.take 4).map fun w => beBytes 8 w.toNat).flatten, s.c.lt)) ∧
        (s.c.tamp.trng.length < 4 → u.c.tamp = { s.c.tamp with asked := some s.c.lt }))) ∧
  (∀ (s : State) (r : Requester), wayFree s r → takesWrite s r Pg.LOUPE Reg.LOUPE_CMD →
    let v := loupeVerdict s.c
    ∃ u, exec (.loupeOpen r) s = .next (fin u) ∧ u.c.tamp.nonce = none ∧ u.c.tamp.result = v ∧ u.c.lt = s.c.lt ∧
      (v ≠ 0 → sameSides s u ∧ u.c = { (posted s r).c with tamp := u.c.tamp } ∧ u.c.tamp.opened = s.c.tamp.opened ∧
        u.c.tamp.fails = min 0xFFFF (s.c.tamp.fails + 1) ∧
        (s.c.tamp.fails < 2 → u.c.tamp.lockEnd = s.c.tamp.lockEnd) ∧
        (∀ n, n ≤ 16 → s.c.tamp.fails = n + 2 → u.c.tamp.lockEnd = some (s.c.lt + 1000000000 * 2 ^ n))) ∧
      (v = 0 → u.c.tamp.opened = some (rf s.c.regs Pg.LOUPE Reg.LOUPE_RESP_SEL 3 0, rb s.c.regs Pg.LOUPE Reg.LOUPE_RESP_SEL 8) ∧
        u.c.tamp.fails = 0 ∧ u.c.tamp.lockEnd = none)) ∧
  (∀ c : Commons, c.tamp.nonce = none → loupeVerdict c = 1) ∧
  (∀ (c : Commons) (nonce : List Byte) (at_ : Nat), c.tamp.nonce = some (nonce, at_) →
    at_ + 1000000000 * (clampNat 1 255 (rf c.regs Pg.LOUPE Reg.LOUPE_NONCE_TTL 7 0)) ≤ c.lt → loupeVerdict c = 2) ∧
  (∀ (s : State) (r : Requester), wayFree s r → takesWrite s r Pg.LOUPE Reg.LOUPE_CMD →
    (s.c.tamp.opened = none → exec (.loupeClose r) s = .next (fin (posted s r))) ∧
    (s.c.tamp.opened.isSome = true →
      ∃ u, exec (.loupeClose r) s = .next (fin u) ∧ u.c.tamp = { s.c.tamp with opened := none } ∧ u.c.lt = s.c.lt)) ∧
  (∀ s : State,
    (∀ t, s.c.tamp.lockEnd = some t → t ≤ s.c.lt →
      exec .loupeLockoutEnd s = .next (fin { s with c := { s.c with tamp := { s.c.tamp with lockEnd := none } } })) ∧
    (∀ t, s.c.tamp.lockEnd = some t → s.c.lt < t → exec .loupeLockoutEnd s = .next (fin s))) ∧
  (∀ (s : State) (x : SideId) (q : Seqd), nextInput s x = some q →
    (q.inp = .notice .loupeOpen →
      exec (.sideLoupeOpen x) s = .next (fin (s.upd x fun d => (d.consume q).loupeOpens (rootBlocked s.c)))) ∧
    (q.inp = .notice .loupeClose →
      exec (.sideLoupeClose x) s = .next (fin (s.upd x fun d => (d.consume q).loupeCloses x (rootBlocked s.c))))) ∧
  (∀ (d : Side) (blocked : Bool), let e := d.loupeOpens blocked
    e.key.cache = [] ∧ e.key.testCtr = 0 ∧ e.key.loupe = true ∧ e.outq = d.outq ∧
    (blocked = false → e.key.root = some (List.replicate 32 0x5A#8) ∧ e.key.testRoot = true) ∧
    (blocked = true → e.key.root = none ∧ e.key.keyless = true ∧ e.key.slots = [])) ∧
  (∀ (x : SideId) (d : Side), (d.loupeCloses x true).key.root = none ∧ (d.loupeCloses x true).key.keyless = true ∧
    (d.loupeCloses x true).key.loupe = false ∧ (d.loupeCloses x false).key.loupe = false ∧
    (d.mram.helper = none → (d.loupeCloses x false).key.root = none ∧ (d.loupeCloses x false).key.rootFail = true)))

/-- HOST_FRAME_ITEM, ETH_FRAME_CONSUME and LAUNCH_COMPLETION (R34, R183, R186, R214, R249, R348, R379, R392, R506): what a side
does with a host item (which waits while TX_SEQ is not loaded or CAM moves it comes after run), with an Ethernet frame, and with
the completion of a launch: a frame on the air awaits its acknowledgement or is complete, one that did not go out returns to its
queue or its pool, or completes with its status. RELEASE_DECISION and HOST_PORT_RELEASE (R326, R328 to R332): carriers decide once
at a time input, in increasing port number; a carrier that is not enabled or is booked, and a second in which the limit is
reached, release nothing; what is released is a head that passed every check and has its credit, it is counted, and its launch,
its Ethernet frame or its delivery is offered. Where the spec is silent a clause follows the model's choice, log entries 63, 75,
76 and 121. -/
def Obligations.DownlinkAndReleases : Prop :=
  (
  (∀ x n, sideDoes (.hostFrameItem x n) x fun v lt c d => d.hostItem v c lt n) ∧
  (∀ (v : Variant) (c : Commons) (d : Side) (lt n : Nat),
    (d.nextItem n = none → d.hostItem v c lt n = d) ∧
    (∀ h, d.nextItem n = some h → h.ty = tyCommand → knownCode h.code = true → d.hostItem v c lt n = d) ∧
    (∀ h, d.nextItem n = some h → d.mesh.seqLoaded = false ∨ d.behindMoves n = true → d.hostItem v c lt n = d) ∧
    (∀ h t e, d.nextItem n = some h → d.mesh.seqLoaded = true → d.behindMoves n = false → d.takeItem n = (some t, e) → t.ok = true →
      (h.ty = tyCommand → knownCode h.code = false →
        d.hostItem v c lt n = (e.freeCellsOf t.cells).result lt n h (badArgOf h.code) []) ∧
      (h.ty ≠ tyCommand → d.hostItem v c lt n = e.hostFrame v c lt n t)) ∧
    (∀ h t e, d.nextItem n = some h → ¬ (h.ty = tyCommand ∧ knownCode h.code = true) → d.mesh.seqLoaded = true → d.behindMoves n = false →
      d.takeItem n = (some t, e) → t.ok = false → d.hostItem v c lt n = e.badItem lt n t)) ∧
  (∀ x f, sideTakes (.ethFrameConsume x) x (.ethFrame f) fun v lt c q d => d.ethFrame v c lt q f) ∧
  (∀ (v : Variant) (c : Commons) (d : Side) (lt : Nat) (q : Seqd) (f : EthFrame),
    let cls := rd c.regs (ethPage f.second) Reg.ETH_CLASS
    let n := if f.cls = 0 then fld cls 21 16 else fld cls 13 8
    (f.cls = 1 → (ip6Trim (ethPayload f.bytes)).length < 40 → d.ethFrame v c lt q f = d) ∧
    (f.cls ≠ 1 → (d.strand.marks.any fun m => decide (m.flow = 0)) = false → (d.strandOn n = false ∨ d.strandDir n = 1) →
      d.ethFrame v c lt q f = { d with reports := d.reports ++ [Report.disDrop] })) ∧
  (∀ x e, sideTakes (.launchCompletion x) x (.launchDone e) fun _ lt c _ d => d.launchDone c lt e) ∧
  (∀ (c : Commons) (d : Side) (lt : Nat) (e : LaunchDone) (r : Released), d.trowel.flight e.id = some r →
    let u := d.launchDone c lt e
    let went := e.status = stLaunched ∨ e.status = stLate
    let others := d.trowel.released.filter fun k => decide (k.f.id ≠ r.f.id)
    (went → r.f.ar = true → u.regs = d.regs ∧ u.pend = d.pend ∧ u.outq = d.outq ∧ u.trowel.queues = d.trowel.queues ∧
      u.trowel.released = d.trowel.released.map (fun k => if k.f.id = r.f.id then
        { k with burstEnd := some (e.lt + 1000 * e.airtime)
                 ackBy := some (e.lt + 1000 * e.airtime + 1000 * (d.ackWaitUs r.f.mode r.f.phyOpt + 32)) } else k)) ∧
    (went → r.f.ar = false → u.trowel.released = others ∧ (r.win = none → u.pend = d.pend) ∧
      (r.win.isSome = true → u.pend.pool = (d.pend.pool.filter fun k => decide (k.f.id ≠ r.f.id)) ∧
        counts Pg.PEND Reg.PEND_DELIVERED d.regs u.regs)) ∧
    (¬ went → r.win.isSome = true → u.trowel.released = others ∧ counts Pg.PEND Reg.PEND_WIN_LOST d.regs u.regs ∧
      u.pend.pool = d.pend.pool.map fun k => if k.f.id = r.f.id then { k with inFlight := false } else k) ∧
    (¬ went → r.win = none → u.trowel.released = others ∧ u.pend = d.pend ∧
      (e.status ≠ stAborted → e.status ≠ stBadParam → r.f.relaunches < rf d.regs Pg.TROWEL Reg.TROWEL_CFG 12 10 →
        unitOn d.regs Pg.TROWEL = true → counts Pg.TROWEL Reg.TROWEL_REQUEUED d.regs u.regs ∧
        u.trowel.frames r.f.queue = { r.f with relaunches := r.f.relaunches + 1 } :: d.trowel.frames r.f.queue) ∧
      (e.status ≠ stAborted → e.status ≠ stBadParam → rf d.regs Pg.TROWEL Reg.TROWEL_CFG 12 10 ≤ r.f.relaunches →
        counts Pg.TROWEL Reg.TROWEL_RELAUNCH_EXH d.regs u.regs ∧ u.trowel.queues = d.trowel.queues)))) ∧
  (
  (∀ x k, sideDoes (.releaseDecision x k) x fun v _ c d => d.decide_ v c k) ∧
  (∀ (v : Variant) (c : Commons) (d : Side) (k : Nat) (p : RPort), RPort.ofNum (k / 4) = some p →
    let t := d.tick + d.relLead
    let u := d.decide_ v c k
    ((v.hasPort p && d.carEn k && d.rateOk) = false ∨ k < d.trowel.deciding ∨
      ((d.trowel.booked k).any fun b => decide (b.1 ≤ t) && decide (t < b.2)) = true → u = d) ∧
    (∀ j, j < k → d.decides v j = true → u = d) ∧
    (d.decides v k = true → (∀ j, j < k → d.decides v j = false) →
      let d1 : Side := { d with trowel := { d.trowel with deciding := k + 1 } }
      let e := (d1.trowel.heads p.num).foldl (fun a f => a.noteSkip k f (d1.check c k t f)) d1
      let cands := (e.trowel.heads p.num).filterMap fun f => if d1.check c k t f = .no then (d1.creditClass f k).map (·, f) else none
      (e.bestCand k cands = none → u = e ∧ u.outq = d.outq ∧ u.trowel.released = d.trowel.released) ∧
      (∀ cls f, e.bestCand k cands = some (cls, f) →
        d1.check c k t f = .no ∧ d1.creditClass f k = some cls ∧ f ∈ e.trowel.heads p.num ∧
        (∃ l, u.outq.map Txn.body = d.outq.map Txn.body ++ [.launch l] ∧ l.id = f.id ∧ l.port = p ∧ l.carrier = k % 4 ∧
          l.ch = f.ch ∧ l.mode = f.mode ∧ l.lt = t ∧ l.discardLate = true ∧ l.psdu = f.psdu) ∧
        (∃ r, u.trowel.released = d.trowel.released ++ [r] ∧ r.f = f ∧ r.port = k ∧ r.t = t ∧ r.air = d.frameAir f) ∧
        counts Pg.TROWEL Reg.TROWEL_RELEASED d.regs u.regs ∧ u.pend = d.pend) ∧
      u.trowel.deciding = k + 1)) ∧
  (∀ x k, sideDoes (.hostPortRelease x k) x fun v lt _ d => d.decideHost v lt k) ∧
  (∀ (v : Variant) (d : Side) (lt k : Nat),
    let open_ : Bool := groupPresent v (trowelGroup k) && decide (12 ≤ k) && decide (k < 16) && d.rateOk && d.roomAt k
    let cands := (d.trowel.heads (trowelGroup k)).filterMap fun f => if d.isHeld f then none else (d.creditClass f k).map (·, f)
    let u := d.decideHost v lt k
    (open_ = false → u = d) ∧ (open_ = true → d.bestCand k cands = none → u = d) ∧
    (∀ cls f, open_ = true → d.bestCand k cands = some (cls, f) →
      d.isHeld f = false ∧ d.creditClass f k = some cls ∧ counts Pg.TROWEL Reg.TROWEL_RELEASED d.regs u.regs ∧
      (k < 14 → u.outq.map Txn.body = d.outq.map Txn.body ++ [.eth (decide (k = 13)) f.id f.tenant f.psdu] ∧
        ∃ r, u.trowel.released = d.trowel.released ++ [r] ∧ r.f = f ∧ r.port = k) ∧
      (14 ≤ k → u.trowel.released = d.trowel.released ∧
        ∃ rest, u.outq.map Txn.body = d.outq.map Txn.body ++ .hostFrame (decide (k = 15)) f.psdu :: rest))))

/-- GATE_SWAP, GATE_ABORT, GATE_EN_WRITE, GATE_SWAP_APPLY (R333 to R337, R340): a swap is scheduled at the new schedule's base
time when that lies SWAP_LAT ahead; a late one goes by LATE_POL; a schedule that breaks a rule, or a second swap, is refused and
recorded; at its time the banks change places. Where the spec is silent a clause follows the model's choice, log entry 122. -/
def Obligations.GateSwaps : Prop :=
  (∀ (s : State) (x : SideId), ownWay s x →
    let d := s.side x
    let k := d.carIdx
    let g := d.gate k
    let at_ := d.now + d.swapLat
    let leaves (i : Instr) (g' : GateState) (regs : Tab Word) : Prop :=
      ∃ u, exec i s = .next (fin u) ∧ onlySide x s u ∧ (u.side x).gate k = g' ∧ (u.side x).regs = regs ∧
        (∀ j, j ≠ k → (u.side x).gate j = d.gate j) ∧ (u.side x).outq = d.outq
    carrierPresent s.variant k = true →
    (g.pend.isSome = true → leaves (.gateSwap (.core x)) g (d.err Pg.GATE 1).regs) ∧
    (g.pend = none → g.adm.len = 0 ∨ g.adm.cycle < 1000000 → leaves (.gateSwap (.core x)) g (d.err Pg.GATE 0).regs) ∧
    (g.pend = none → g.adm.len ≠ 0 → 1000000 ≤ g.adm.cycle →
      (notPast g.adm.base at_ = true →
        leaves (.gateSwap (.core x)) { g with pend := some g.adm.base, rebase := false, swapLt := g.adm.base } d.regs) ∧
      (notPast g.adm.base at_ = false → g.latePol = true →
        let n := g.adm.base + ceilDiv (at_ - g.adm.base) g.adm.cycle * g.adm.cycle
        leaves (.gateSwap (.core x)) { g with pend := some n, rebase := false, swapLt := n, missed := true } d.regs) ∧
      (notPast g.adm.base at_ = false → g.latePol = false →
        leaves (.gateSwap (.core x)) { g with pend := some at_, rebase := true, swapLt := at_, late := true } d.regs)) ∧
    leaves (.gateAbort (.core x)) { g with pend := none, rebase := false } d.regs ∧
    (∀ v, bitOf v 2 = false → bitOf v 3 = false → ∃ u, exec (.gateEnWrite (.core x) v) s = .next (fin u) ∧ onlySide x s u ∧
      (u.side x).gate k = { g with en := bitOf v 0, latePol := bitOf v 1 } ∧
      (∀ j, j ≠ k → (u.side x).gate j = d.gate j) ∧
      (bitOf v 0 = g.en → (u.side x).outq = d.outq ∧ (u.side x).regs = d.regs))) ∧
  (∀ base from_ : Nat, notPast base from_ = true ↔ from_ ≤ base ∧ base / 256 - from_ / 256 < 2 ^ 39) ∧
  (∀ x k, sideDoes (.gateSwapApply x k) x fun _ lt c d => d.gateApply c lt k) ∧
  (∀ (c : Commons) (d : Side) (lt k : Nat),
    let u := d.gateApply c lt k
    ((d.gate k).pend = none → u = d) ∧
    (∀ t, (d.gate k).pend = some t → d.now < t → u = d) ∧
    (∀ t, (d.gate k).pend = some t → t ≤ d.now →
      (u.gate k).oper = (d.gate k).next t ∧ (u.gate k).adm = (d.gate k).oper ∧ (u.gate k).bank = !(d.gate k).bank ∧
      (u.gate k).pend = none ∧ (u.gate k).en = (d.gate k).en ∧ (∀ j, j ≠ k → u.gate j = d.gate j) ∧
      rdI u.regs Pg.GATE Reg.GATE_SWAPS k = oneMore (rdI d.regs Pg.GATE Reg.GATE_SWAPS k)))

/-- The firmware slots and node images (R354 to R366, R392): what each command answers, which bytes of MRAM it writes and which it
leaves, that a write takes a slot's verification away, that the SVN floor never falls, when TRIAL_EXPIRED and the background
verification come, and that an update accepted is asked for after its answer. Where the spec is silent a clause follows the
model's choice, log entries 63, 77 and 123. -/
def Obligations.FirmwareAndImages : Prop :=
  let run (d : Side) (lt n code : Nat) (f : Side → List Byte → Nat × List Byte × Side) : Side :=
    d.runCommand lt n code Pg.MRAM Pg.MRAM Reg.MRAM_CMD_OK Reg.MRAM_CMD_FAIL f
  let wrote (t t' : Tab Byte) (off : Nat) (bs : List Byte) : Prop :=
    (∀ i b, bs[i]? = some b → t'.find (off + i) = some b) ∧ ∀ j, j < off ∨ off + bs.length ≤ j → t'.find j = t.find j
  (∀ x n, sideDoes (.fwWrite x n) x fun _ lt _ d => run d lt n 32 Side.cmdFwWrite) ∧
  (∀ x n, sideDoes (.fwCommit x n) x fun _ lt _ d => run d lt n 33 Side.cmdFwCommit) ∧
  (∀ x n (s : State), (sideRun s x = true → exec (.fwUpdate x n) s =
      .next (fin (s.upd x fun d => d.asksUpdate (run d s.c.lt n 34 fun d _ => d.cmdFwUpdate s.variant.full (single s))))) ∧
    (sideRun s x = false → exec (.fwUpdate x n) s = .next (fin s))) ∧
  (∀ x n, sideDoes (.fwConfirm x n) x fun _ lt _ d => run d lt n 35 fun d _ => d.cmdFwConfirm) ∧
  (∀ x n, sideDoes (.imgWrite x n) x fun _ lt _ d => run d lt n 40 Side.cmdImgWrite) ∧
  (∀ x n, sideDoes (.imgCommit x n) x fun _ lt _ d => run d lt n 41 Side.cmdImgCommit) ∧
  (∀ x n, sideDoes (.imgErase x n) x fun _ lt _ d => run d lt n 42 Side.cmdImgErase) ∧
  (∀ x n, sideDoes (.imgRead x n) x fun _ lt _ d => run d lt n 43 Side.cmdImgRead) ∧
  (∀ (d : Side) (a : List Byte), let n := byteAt a 0
    let off := leAt a 1 4
    let bs := a.drop 5
    let r := d.cmdFwWrite a
    let bad := 2 ≤ n ∨ bs.length < 8 ∨ 1024 < bs.length ∨ bs.length % 8 ≠ 0 ∨ slotBytes < off + bs.length
    (bad → r = (1, [], d)) ∧ (¬ bad → d.slotBusy n = true → r = (2, [], d)) ∧
    (¬ bad → d.slotBusy n = false → r.1 = 0 ∧ r.2.2.fw.ok (decide (n = 1)) = false ∧
      wrote (d.mram.slot (decide (n = 1))) (r.2.2.mram.slot (decide (n = 1))) off bs ∧
      r.2.2.mram.slot (decide (n ≠ 1)) = d.mram.slot (decide (n ≠ 1)) ∧ r.2.2.mram.images = d.mram.images ∧
      r.2.2.fw.ok (decide (n ≠ 1)) = d.fw.ok (decide (n ≠ 1)))) ∧
  (∀ (d : Side) (a : List Byte), let b := decide (byteAt a 0 = 1)
    (2 ≤ byteAt a 0 → d.cmdFwCommit a = (1, [], d)) ∧
    (byteAt a 0 < 2 → d.slotBusy (byteAt a 0) = true → d.cmdFwCommit a = (2, [], d)) ∧
    (byteAt a 0 < 2 → d.slotBusy (byteAt a 0) = false →
      (d.mram.slot b ≠ [] → fwSigOk (d.mram.slot b) = false → d.cmdFwCommit a = (3, [], d)) ∧
      (d.mram.slot b ≠ [] → fwSigOk (d.mram.slot b) = true → fwSvn (d.mram.slot b) < d.mram.svnFloor →
        d.cmdFwCommit a = (4, [], d)) ∧
      (d.mram.slot b ≠ [] → fwSigOk (d.mram.slot b) = true → d.mram.svnFloor ≤ fwSvn (d.mram.slot b) →
        (d.cmdFwCommit a).1 = 0 ∧ (d.cmdFwCommit a).2.2.fw.ok b = true ∧ (d.cmdFwCommit a).2.2.mram = d.mram))) ∧
  (∀ (d : Side) (full one : Bool), let st := d.fwRefusal full one
    (st ≠ 0 → d.cmdFwUpdate full one = (st, [], d)) ∧
    (st = 0 → d.fw.ok d.otherSlot = true ∧ (d.cmdFwUpdate full one).1 = 0 ∧ (d.cmdFwUpdate full one).2.2.fw.phase = 1 ∧
      (d.cmdFwUpdate full one).2.2.outq = d.outq ∧ d.fw.phase ≠ 1)) ∧
  (∀ before d : Side,
    (before.fw.phase ≠ 1 → d.fw.phase = 1 → (before.asksUpdate d).outq.map Txn.body = d.outq.map Txn.body ++ [.fwUpdate]) ∧
    (before.fw.phase = 1 ∨ d.fw.phase ≠ 1 → before.asksUpdate d = d)) ∧
  (∀ d : Side, d.cmdFwConfirm.1 = 0 ∧ d.cmdFwConfirm.2.2.fw.trial = false ∧ d.mram.svnFloor ≤ d.cmdFwConfirm.2.2.mram.svnFloor ∧
    (d.fw.run < 2 → d.cmdFwConfirm.2.2.mram.bootSel = d.fw.run) ∧ (2 ≤ d.fw.run → d.cmdFwConfirm.2.2.mram = d.mram)) ∧
  (∀ (d : Side) (a : List Byte), let n := byteAt a 0
    let off := leAt a 1 4
    let bs := a.drop 5
    let bad := 8 ≤ n ∨ bs.length < 8 ∨ 1024 < bs.length ∨ imageBytes < off + bs.length
    (bad → d.cmdImgWrite a = (1, [], d)) ∧ (¬ bad → d.imageInUse n = true → d.cmdImgWrite a = (5, [], d)) ∧
    (¬ bad → d.imageInUse n = false → (d.cmdImgWrite a).1 = 0 ∧ (d.cmdImgWrite a).2.2.imageValid n = false ∧
      wrote d.mram.images (d.cmdImgWrite a).2.2.mram.images (n * imageBytes + off) bs ∧
      (∀ m, m ≠ n → (d.cmdImgWrite a).2.2.mram.imgMeta.find m = d.mram.imgMeta.find m)) ∧
    (n < 8 → d.imageInUse n = false → (d.cmdImgErase a).1 = 0 ∧ (d.cmdImgErase a).2.2.imageValid n = false ∧
      (d.cmdImgErase a).2.2.mram.images = d.mram.images) ∧
    (d.imageInUse n = true → n < 8 → d.cmdImgErase a = (5, [], d)) ∧
    (n < 8 → leAt a 5 2 ≠ 0 → leAt a 5 2 ≤ 1024 → off + leAt a 5 2 ≤ imageBytes →
      d.cmdImgRead a = (0, d.imageData n off (leAt a 5 2), d))) ∧
  (∀ (d : Side) (a : List Byte), let n := byteAt a 0
    let len := leAt a 1 4
    n < 8 → len ≠ 0 → len ≤ imageBytes → leAt a 5 2 < 1024 → 41 ≤ a.length → d.imageInUse n = false →
    (sha256 (d.imageData n 0 len) ≠ slice a 9 32 → d.cmdImgCommit a = (9, [], d)) ∧
    (sha256 (d.imageData n 0 len) = slice a 9 32 → (d.cmdImgCommit a).1 = 0 ∧
      (d.cmdImgCommit a).2.2.mram.imgMeta.find n = some (len, leAt a 5 2, leAt a 7 2))) ∧
  (∀ x, sideDoes (.trialExpired x) x fun _ _ _ d => d.trialEnd) ∧
  (∀ (d : Side) (t : Nat), d.fw.doneAt = some t → let limit := rf d.regs Pg.MRAM Reg.MRAM_TRIAL_TO 15 0
    (limit ≠ 0 → d.fw.trial = true → d.fw.expired = false → t + 1000000000 * limit ≤ d.tick →
      d.trialEnd.fw = { d.fw with expired := true } ∧ rb d.trialEnd.regs Pg.MRAM Reg.HDR_EVT_STAT 0 = true) ∧
    (limit = 0 ∨ d.fw.trial = false ∨ d.fw.expired = true ∨ d.tick < t + 1000000000 * limit → d.trialEnd = d)) ∧
  (∀ x, sideDoes (.slotVerifyDone x) x fun _ _ _ d => d.slotVerify) ∧
  (∀ (d : Side) (t : Nat), d.fw.verifyAt = some t → (d.tick < t → d.slotVerify = d) ∧
    (t ≤ d.tick → d.slotVerify.fw.verifyAt = none ∧ d.slotVerify.mram = d.mram ∧
      (nbit d.fw.verify 0 = false → d.slotVerify.fw.okA = d.fw.okA) ∧
      (nbit d.fw.verify 0 = true → d.mram.fwA ≠ [] → d.slotVerify.fw.okA = d.fwVerifies d.mram.fwA) ∧
      (nbit d.fw.verify 1 = true → d.mram.fwB ≠ [] → d.slotVerify.fw.okB = d.fwVerifies d.mram.fwB)))

/-- IBE_START, IBE_STOP, IBE_LOAD_DONE, SYM_NEXT, REPORT_ADD, IBE_STOP_LT (R368 to R372): a session starts only while none runs; a
request gets the next symbol of the block whose turn it is, the sides get it as one input, and it is counted as source or repair;
the session ends with its cause when the reports reach their target, when LT reaches STOP_LT, or when its symbols are spent. Where
the spec is silent a clause follows the model's choice, log entries 16 and 78. -/
def Obligations.BroadcastSessions : Prop :=
  let run (d : Side) (lt n code : Nat) (f : Side → List Byte → Nat × List Byte × Side) : Side :=
    d.runCommand lt n code Pg.MRAM Pg.MRAM Reg.MRAM_CMD_OK Reg.MRAM_CMD_FAIL f
  let ends (s u : State) (cause : Nat) : Prop :=
    u.c.ibe.phase = 3 ∧ u.c.ibe.ended = cause ∧ rb u.c.regs Pg.IBE Reg.HDR_EVT_STAT 0 = true ∧ u.c.lt = s.c.lt
  (∀ x n, sideDoes (.ibeStart x n) x fun v lt _ d => run d lt n 44 fun d a =>
    if unitOn d.view.regs Pg.IBE then Side.cmdIbeStart v.full d.view.ibe.phase d a else (Config.refusalStatus, [], d)) ∧
  (∀ x n, sideDoes (.ibeStop x n) x fun v lt _ d => run d lt n 45 (Side.cmdIbeStop v.full lt)) ∧
  (∀ (d : Side) (phase : Nat) (a : List Byte),
    d.cmdIbeStart false phase a = (8, [], d) ∧
    (d.sess.active = true ∨ phase = 1 ∨ phase = 2 → d.cmdIbeStart true phase a = (5, [], d)) ∧
    ((d.cmdIbeStart true phase a).1 ≠ 0 → (d.cmdIbeStart true phase a).2.2 = d) ∧
    ((d.cmdIbeStart true phase a).1 = 0 → d.imageValid (byteAt a 0) = true ∧
      (d.cmdIbeStart true phase a).2.2.sess.active = true ∧
      ∃ k, (d.cmdIbeStart true phase a).2.2.outq.map Txn.body = d.outq.map Txn.body ++ [.ibeStart k] ∧ k.image = byteAt a 0)) ∧
  (∀ (d : Side) (lt : Nat) (a : List Byte), d.cmdIbeStop false lt a = (8, [], d) ∧
    (2 ≤ byteAt a 0 → d.cmdIbeStop true lt a = (1, [], d)) ∧
    (byteAt a 0 = 0 → (d.cmdIbeStop true lt a).1 = 0 ∧ (d.cmdIbeStop true lt a).2.2.sess = { d.sess with active := false } ∧
      (d.cmdIbeStop true lt a).2.2.outq.map Txn.body = d.outq.map Txn.body ++ [.ibeStop]) ∧
    (byteAt a 0 = 1 → (d.cmdIbeStop true lt a).1 = 0 ∧
      ∀ k l f, (k, l) ∈ (d.cmdIbeStop true lt a).2.2.trowel.queues → f ∈ l → f.session = false)) ∧
  (∀ s : State, ibeRun s = true → let k := s.c.ibe
    let before : Prop := ∀ t, k.stopLt = some t → s.c.lt < t
    (k.phase = 1 → exec .ibeLoadDone s = .next (fin { s with c := { s.c with ibe := { k with phase := 2 } } })) ∧
    (k.phase ≠ 1 → exec .ibeLoadDone s = .next (fin s)) ∧
    (∀ b, before → k.phase = 2 → k.nextBlock = some b →
      let k' := { k with sent := k.sent.put b ((k.sent.find b).getD 0 + 1), turn := (b + 1) % max 1 k.args.z }
      let off := if k.kOf b ≤ k.esiOf b then Reg.IBE_SYM_REP else Reg.IBE_SYM_SRC
      ∃ u, sameSides s u ∧ u.c = { s.c with ibe := k', regs := u.c.regs } ∧
        setsReg Pg.IBE off 0 (oneMore (rd s.c.regs Pg.IBE off)) s.c.regs u.c.regs ∧
        let w := u.offer .units (.symbol b (k.esiOf b) (some (k.octets b (k.esiOf b))))
        (k'.nextBlock.isSome = true → exec .symNext s = .next (fin w)) ∧
        (k'.nextBlock = none → exec .symNext s = .next (fin (ibeFinish w 1)))) ∧
    (k.phase = 3 ∨ k.phase = 4 →
      ∃ u, exec .symNext s = .next (fin (u.offer .units (.symbol 0 0 none))) ∧ onlyRegs s u ∧
        setsReg Pg.IBE Reg.IBE_REQ_ENDED 0 (oneMore (rd s.c.regs Pg.IBE Reg.IBE_REQ_ENDED)) s.c.regs u.c.regs) ∧
    let most : Nat := min 0xFFFFFFFF (k.reports + 1)
    (∀ v, before → k.args.target = 0 ∨ most < k.args.target → exec (.reportAdd v) s =
      .next (fin { s with c := { s.c with ibe := { k with reports := most } } })) ∧
    (∀ v, before → k.phase = 2 → k.args.target ≠ 0 → k.args.target ≤ most →
      ∃ u, exec (.reportAdd v) s = .next (fin u) ∧ ends s u 3 ∧ u.c.ibe.reports = most) ∧
    (∀ t v, k.stopLt = some t → t ≤ s.c.lt → k.phase = 2 →
      (∃ u, exec .symNext s = .next (fin (u.offer .units (.symbol 0 0 none))) ∧ ends s u 2 ∧
        counts Pg.IBE Reg.IBE_REQ_ENDED s.c.regs u.c.regs) ∧
      ∃ u, exec (.reportAdd v) s = .next (fin u) ∧ ends s u 2 ∧ u.c.ibe.reports = most) ∧
    (∀ t, k.stopLt = some t → s.c.lt < t → exec .ibeStopLt s = .next (fin s)) ∧
    (∀ t, k.stopLt = some t → t ≤ s.c.lt → k.phase = 1 ∨ k.phase = 2 →
      ∃ u, exec .ibeStopLt s = .next (fin u) ∧ ends s u 2)) ∧
  (∀ s : State, ibeRun s = false → exec .symNext s = .next (fin s) ∧ exec .ibeLoadDone s = .next (fin s))

/-- The consumer controls (R383, R386, R389, R390) of the selected strand: a control of MODE 1 in MODE 0 is an error and nothing
else; a pop of an idle strand only counts; a pop takes the descriptor at the read point, and in MODE 0 its place is free; MARK,
REWIND, RELEASE, DROP_REST and FLUSH move the read point and the release point as R386 says. STRAND_PUSH, CELL_WRITE,
STRAND_ENABLE, STRAND_POP_UNBLOCK, STRAND_PUSH_RESUME (R375 to R377, R384, R388, R390, R497): a push stands at the end of its
ring, or waits and is counted while the ring is full; a strand that does not fit in the places or cells left is refused with
DEPTH_OVER; a write to a place window is host data for both sides; what waits goes on once there is room. Where the spec is silent
a clause follows the model's choice, log entries 64 and 66. -/
def Obligations.Strands : Prop :=
  (
  let sel (d : Side) : Nat := rf d.regs Pg.STRAND Reg.STRAND_SEL 5 0
  sideRegister .pop Pg.STRAND Reg.STRAND_CMD 1 (fun _ lt _ d => d.control lt (sel d) 0) ∧
  sideRegister .mark Pg.STRAND Reg.STRAND_CMD 2 (fun _ lt _ d => d.control lt (sel d) 1) ∧
  sideRegister .rewind Pg.STRAND Reg.STRAND_CMD 4 (fun _ lt _ d => d.control lt (sel d) 2) ∧
  sideRegister .release Pg.STRAND Reg.STRAND_CMD 8 (fun _ lt _ d => d.control lt (sel d) 3) ∧
  sideRegister .dropRest Pg.STRAND Reg.STRAND_CMD 16 (fun _ lt _ d => d.control lt (sel d) 4) ∧
  sideRegister .flush Pg.STRAND Reg.STRAND_CMD 32 (fun _ lt _ d => d.control lt (sel d) 5) ∧
  (∀ (d : Side) (lt n bit : Nat), d.strandOn n = false → (d.ring n).closing = false → d.control lt n bit = d) ∧
  (∀ (d : Side) (lt n bit : Nat), d.strandOn n = true → d.strandHeld n = false → bit = 1 ∨ bit = 2 ∨ bit = 3 →
    d.control lt n bit = d.err Pg.STRAND 1) ∧
  (∀ (d : Side) (lt n : Nat), d.strandOn n = true → (d.ring n).closing = false →
    let r := d.ring n
    let u (bit : Nat) : Side := d.control lt n bit
    (r.ended ≤ r.rp → (u 0) = { d with regs := (u 0).regs } ∧
      rdI (u 0).regs Pg.STRAND Reg.STRAND_IDLE_READS n = oneMore (rdI d.regs Pg.STRAND Reg.STRAND_IDLE_READS n)) ∧
    (∀ q rest, d.strandDir n ≠ 1 → d.strandHeld n = false → r.rp = 0 → 0 < r.ended → r.slots = q :: rest →
      ((u 0).ring n).slots = rest ∧ ((u 0).ring n).ended = r.ended - 1 ∧ ((u 0).ring n).rp = 0 ∧
      (q.d.last = true → rdI (u 0).regs Pg.STRAND Reg.STRAND_POPPED n = oneMore (rdI d.regs Pg.STRAND Reg.STRAND_POPPED n) ∧
        ((u 0).ring n).itemAt = none) ∧ (q.d.last = false → (u 0).regs = d.regs) ∧ (u 0).outq = d.outq) ∧
    (∀ q, d.strandDir n ≠ 1 → d.strandHeld n = true → r.rp < r.ended → r.slots[r.rp]? = some q →
      ((u 0).ring n).rp = r.rp + 1 ∧ ((u 0).ring n).slots = r.slots ∧ ((u 0).ring n).ended = r.ended ∧ (u 0).outq = d.outq) ∧
    (∀ q, d.strandDir n = 1 → r.rp < r.ended → r.slots[r.rp]? = some q → d.strand.cellsFree < d.popCells 1 →
      ((u 0).ring n) = { r with popWait := some true } ∧ (u 0).regs = d.regs) ∧
    (d.strandHeld n = true →
      (u 1).ring n = { r with mark := some (r.itemAt.getD r.rp) } ∧
      (∀ m, r.mark = some m → (u 2).ring n = { r with rp := m, itemAt := none }) ∧
      (r.mark = none → u 2 = d.err Pg.STRAND 2) ∧
      (let k := r.itemAt.getD r.rp;
        ((u 3).ring n).slots = r.slots.drop k ∧ ((u 3).ring n).rp = r.rp - k ∧ ((u 3).ring n).ended = r.ended - k ∧
        ((u 3).ring n).mark = none)) ∧
    (r.itemAt = none → u 4 = d) ∧
    (∀ i, r.itemAt = some i → d.strandHeld n = true → ((u 4).ring n).rp = r.rp + (firstItem (r.slots.drop r.rp)).length ∧
      ((u 4).ring n).slots = r.slots ∧ ((u 4).ring n).itemAt = none ∧
      rdI (u 4).regs Pg.STRAND Reg.STRAND_DROPPED n = oneMore (rdI d.regs Pg.STRAND Reg.STRAND_DROPPED n)) ∧
    (d.strandDir n ≠ 1 → ((u 5).ring n).slots = [] ∧ ((u 5).ring n).rp = 0 ∧ ((u 5).ring n).ended = 0 ∧
      ((u 5).ring n).absorb = (r.absorb || decide (r.ended < r.slots.length)) ∧
      rdI (u 5).regs Pg.STRAND Reg.STRAND_FLUSHED n = w32 (min (2 ^ 32 - 1)
        ((rdI d.regs Pg.STRAND Reg.STRAND_FLUSHED n).toNat + (itemHeads true (r.slots.take r.ended)).length)) ∧
      (u 5).outq = d.outq))) ∧
  (
  let sel (d : Side) : Nat := rf d.regs Pg.STRAND Reg.STRAND_SEL 5 0
  (∀ (s : State) (x : SideId) (v : Word), ownWay s x → exec (.strandPush (.core x) v) s =
    .next (fin (s.upd x fun d => d.writePush s.c.lt (sel d) (.core x) 7 v))) ∧
  (∀ (r : Requester) (v : Word) (s : State),
    exec (.strandPush r v) s = exec (.pairedWindowWrite r (regAddr r Pg.STRAND (Reg.STRAND_PUSH + 28)) v 15) s) ∧
  (∀ (r : Requester) (v : Word) (s : State), mayAccess s r (regAddr r Pg.STRAND (Reg.STRAND_PUSH + 28)) = true → r.isCore = false →
    exec (.strandPush r v) s =
      .next (fin ((posted s r).offer r.source (.hostWord r (regAddr r Pg.STRAND (Reg.STRAND_PUSH + 28)) v)))) ∧
  (∀ (d : Side) (lt n : Nat) (r : Requester) (v : Word),
    let u := d.writePush lt n r 7 v
    let q := d.ring n
    let may := if r.isCore then d.strandDir n ≠ 1 else d.strandDir n = 1
    (d.strandOn n = false ∨ ¬ may → u = d) ∧
    (d.strandOn n = true → may → q.absorb = true → u.ring n = { q with absorb := !(d.staged r v).last } ∧ u.regs = d.regs) ∧
    (d.strandOn n = true → may → q.absorb = false → q.openBy = none → q.stalled = [] →
      (q.slots.length < d.strandDepth n → ∃ e, (u.ring n).slots = q.slots ++ [e] ∧ e.d = d.staged r v ∧ e.by_ = some r ∧
        (u.ring n).ended = (if (d.staged r v).last then q.slots.length + 1 else q.ended)) ∧
      (d.strandDepth n ≤ q.slots.length → (u.ring n).slots = q.slots ∧ (u.ring n).stalled.length = 1 ∧
        rdI u.regs Pg.STRAND Reg.STRAND_STALLS n = oneMore (rdI d.regs Pg.STRAND Reg.STRAND_STALLS n)))) ∧
  (∀ (s : State) (r : Requester) (off : Nat) (data : List Byte), r.presentOn s.variant.full = true → r.isHost.isSome = true →
    (bar2Ok off data.length = false → exec (.cellWrite r off data) s = .next (fin (hostCount s r Reg.HOST_UR))) ∧
    (bar2Ok off data.length = true → off < 0x800000 →
      exec (.cellWrite r off data) s =
        .next (fin ((hostCount s r Reg.HOST_WR_TLP).offer r.source (.cellWrite r off data)))) ∧
    (bar2Ok off data.length = true → 0x800000 ≤ off → exec (.cellWrite r off data) s = .next (fin (hostCount s r Reg.HOST_WR_TLP)))) ∧
  (∀ (v : Word) (s : State) (x : SideId), ownWay s x →
    let d := s.side x
    let n := sel d
    let depth := clampNat 4 1024 (fld v 26 16)
    let fits := d.strand.depthSum + depth ≤ 2048 ∧ (fld v 1 0 = 1 → depth ≤ d.strand.cellsFree)
    d.strandOn n = false → (d.ring n).closing = false →
    (bitOf v 31 = true → fits → ∃ u, exec (.strandEnable (.core x) v) s = .next (fin u) ∧ onlySide x s u ∧
      (u.side x).strandOn n = true ∧ fld ((u.side x).strandCfg n) 1 0 = fld v 1 0 ∧ (u.side x).strandDepth n = depth ∧
      (u.side x).strandHeld n = bitOf v 2 ∧ ((u.side x).ring n).slots = [] ∧ ((u.side x).ring n).rp = 0 ∧
      ∀ m, m ≠ n → (u.side x).ring m = d.ring m) ∧
    (bitOf v 31 = true → ¬ fits →
      exec (.strandEnable (.core x) v) s = .next (fin (s.upd x fun d => d.err Pg.STRAND 0))) ∧
    (bitOf v 31 = false → ∃ u, exec (.strandEnable (.core x) v) s = .next (fin u) ∧ onlySideRegs x s u ∧
      (u.side x).strandOn n = false)) ∧
  (∀ x n, sideDoes (.strandPopUnblock x n) x fun _ _ _ d => d.unblockPop n) ∧
  (∀ (d : Side) (n : Nat),
    ((d.ring n).popWait = none → d.unblockPop n = d) ∧
    ((d.ring n).popWait.isSome = true → d.strand.cellsFree < d.popCells 1 → d.unblockPop n = d) ∧
    ((d.ring n).popWait = some true → d.popCells 1 ≤ d.strand.cellsFree → d.unblockPop n = d.cmdPop n) ∧
    ((d.ring n).popWait = some false → d.popCells 1 ≤ d.strand.cellsFree →
      (d.unblockPop n).ring n = { d.ring n with popWait := none } ∧ (d.unblockPop n).regs = d.regs)) ∧
  (∀ x n, sideDoes (.strandPushResume x n) x fun _ lt _ d => d.resumePushes lt n (d.ring n).stalled.length) ∧
  (∀ (d : Side) (lt n fuel : Nat), ((d.ring n).stalled = [] → d.resumePushes lt n fuel = d) ∧
    (d.strandDepth n ≤ (d.ring n).slots.length → d.resumePushes lt n fuel = d) ∧
    (∀ p rest e, (d.ring n).stalled = p :: rest → d.pushNow lt n p = some e →
      d.resumePushes lt n (fuel + 1) = (e.updRing n fun r => { r with stalled := rest }).resumePushes lt n fuel)))

/-- The dispatcher operations (R396 to R410): a core that is on does its operation on its own side, after the timeouts due at the
last time input, with its arguments in DARG0 and DARG1; one whose thread is marked by CANCEL fails with STATE. What each does:
CREATE, RESUME, WAIT (which blocks, or times out at once), TRYWAIT, SIGNAL, CANCEL, DELETE, YIELD, EXIT, SETPRIO, OBJ_INIT; an
operation that fails changes nothing but its result and the count. Where the spec is silent a clause follows the model's choice,
log entries 22 and 68. -/
def Obligations.DispatcherOperations : Prop :=
  let op (i : SideId → Nat → Instr) (args : State → SideId → Nat → Nat × Nat) (f : Nat → Side → Nat → Side) : Prop :=
    ∀ (x : SideId) (n : Nat) (s : State),
      (coresRun s x = true → n < 8 → (s.side x).coreOn n = true →
        let a := args s x n
        let d := ((s.side x).timeouts s.c.lt).updDisp fun k => k.setCore n fun c => { c with darg0 := a.1, darg1 := a.2 }
        ((d.dropMarked n).1 = false → exec (i x n) s = .next (fin (s.upd x fun _ => f s.c.lt d n))) ∧
        ((d.dropMarked n).1 = true → exec (i x n) s = .next (fin (s.upd x fun _ => (d.dropMarked n).2.opFail n resState)))) ∧
      (coresRun s x = false ∨ 8 ≤ n ∨ (s.side x).coreOn n = false → exec (i x n) s = .next (fin s))
  let kept (s : State) (x : SideId) (n : Nat) : Nat × Nat := (((s.side x).disp.core n).darg0, ((s.side x).disp.core n).darg1)
  (∀ a b, op (fun x n => .create x n a b) (fun _ _ _ => (a, b)) (fun _ d n => d.opCreate n a)) ∧
  (∀ a b, op (fun x n => .resume x n a b) (fun _ _ _ => (a, b)) (fun lt d n => d.opResume lt n a)) ∧
  (∀ a b, op (fun x n => .wait x n a b) (fun _ _ _ => (a, b)) (fun _ d n => d.opWait n a b)) ∧
  (∀ a b, op (fun x n => .trywait x n a b) (fun _ _ _ => (a, b)) (fun _ d n => d.opTrywait n a)) ∧
  (∀ a b, op (fun x n => .signal x n a b) (fun _ _ _ => (a, b)) (fun lt d n => d.opSignal lt n a)) ∧
  (∀ a b, op (fun x n => .cancel x n a b) (fun _ _ _ => (a, b)) (fun lt d n => d.opCancel lt n a)) ∧
  (∀ a b, op (fun x n => .delete x n a b) (fun _ _ _ => (a, b)) (fun _ d n => d.opDelete n a)) ∧
  op .yield kept (fun lt d n => d.opYield lt n) ∧
  op .exit kept (fun _ d n => d.opExit n) ∧
  (∀ a b, op (fun x n => .setprio x n a b) (fun _ _ _ => (a, b)) (fun _ d n => d.opSetprio n a b)) ∧
  (∀ a b, op (fun x n => .objInit x n a b) (fun _ _ _ => (a, b)) (fun _ d n => d.opObjInit n a b)) ∧
  ∀ (d : Side) (lt n : Nat), n < 8 →
    let cur := (d.disp.core n).cur
    let fails (u : Side) (res : Nat) : Prop :=
      u = { d with disp := u.disp, regs := u.regs } ∧ (u.disp.core n).dres = res ∧ u.disp.ready = d.disp.ready ∧
      u.disp.waiters = d.disp.waiters ∧ u.disp.objs = d.disp.objs ∧ counts Pg.DISP Reg.DISP_OP_FAIL d.regs u.regs ∧
      ∀ t, cur ≠ some t → u.disp.threads.find t = d.disp.threads.find t
    (∀ a, d.disp.freeSlots = [] → fails (d.opCreate n a) resNoThread) ∧
    (∀ a, d.disp.freeSlots ≠ [] → ∃ t th, t ∈ d.disp.freeSlots ∧ (d.opCreate n a).disp.threads.find t = some th ∧
      th.st = .suspended ∧ th.prio = a % 64 ∧ th.aff = a / 256 % 256 ∧ ((d.opCreate n a).disp.core n).dres = 65536 * t ∧
      (d.opCreate n a).disp.ready = d.disp.ready ∧
      ∀ m, m ≠ t → cur ≠ some m → (d.opCreate n a).disp.threads.find m = d.disp.threads.find m) ∧
    (∀ a th, a < 1024 → d.disp.threads.find a = some th →
      (th.st = .suspended → (d.opResume lt n a).disp.ready = d.disp.ready ++ [a] ∧
        ((d.opResume lt n a).disp.threads.find a).map (·.st) = some .ready ∧ ((d.opResume lt n a).disp.core n).dres = resOk) ∧
      (th.st ≠ .suspended → fails (d.opResume lt n a) resState) ∧
      (th.st = .cancelled ∨ th.st = .suspended → cur ≠ some a → (d.opDelete n a).disp.threads.find a = none ∧
        ((d.opDelete n a).disp.core n).dres = resOk) ∧
      (th.st ≠ .cancelled → th.st ≠ .suspended → fails (d.opDelete n a) resState) ∧
      (th.st = .waiting → (d.opCancel lt n a).disp.ready = d.disp.ready ++ [a] ∧ a ∉ (d.opCancel lt n a).disp.waiters ∧
        counts Pg.DISP Reg.DISP_CANCELS d.regs (d.opCancel lt n a).regs) ∧
      (th.st = .suspended → ((d.opCancel lt n a).disp.threads.find a).map (·.st) = some .cancelled ∧
        counts Pg.DISP Reg.DISP_CANCELS d.regs (d.opCancel lt n a).regs) ∧
      (th.st = .ready → a ∉ (d.opCancel lt n a).disp.ready ∧
        ((d.opCancel lt n a).disp.threads.find a).map (·.st) = some .cancelled) ∧
      (th.st = .running → ((d.opCancel lt n a).disp.threads.find a).map (·.marked) = some true ∧
        (d.opCancel lt n a).disp.ready = d.disp.ready) ∧
      (th.st = .cancelled → fails (d.opCancel lt n a) resState) ∧
      (∀ b, th.st ≠ .cancelled → ((d.opSetprio n a b).disp.threads.find a).map (·.prio) = some (b % 64) ∧
        ((d.opSetprio n a b).disp.core n).dres = resOk) ∧
      (∀ b, th.st = .cancelled → fails (d.opSetprio n a b) resState)) ∧
    (∀ a b, 1024 ≤ a → fails (d.opResume lt n a) resBadArg ∧ fails (d.opDelete n a) resBadArg ∧
      fails (d.opCancel lt n a) resBadArg ∧ fails (d.opSetprio n a b) resBadArg) ∧
    (∀ a b o, d.disp.obj (a % 4096) = some o →
      (∀ t, cur = some t → o.count ≠ 0 →
        (d.opWait n a b).disp.obj (a % 4096) = some { o with count := if o.counting then o.count - 1 else 0 } ∧
        ((d.opWait n a b).disp.core n).dres = resOk ∧ (d.opWait n a b).disp.waiters = d.disp.waiters) ∧
      (∀ t th, cur = some t → o.count = 0 → d.disp.threads.find t = some th →
        let target := (d.st + b) % 2 ^ 40
        let due : Bool := decide (b ≠ 0) && stDue target d.st
        (due = false ∨ nbit a 12 = true →
          (d.opWait n a b).disp.waiters = d.disp.waiters ++ [t] ∧ ((d.opWait n a b).disp.core n).cur = none ∧
          (d.opWait n a b).disp.threads.find t = some { th with st := .waiting, obj := a % 4096, latePol := nbit a 12, missed := due
                                                                deadline := if b = 0 ∨ due then none else some target }) ∧
        (due = true → nbit a 12 = false → ((d.opWait n a b).disp.core n).dres = resTimeout + 256 ∧
          (d.opWait n a b).disp.waiters = d.disp.waiters ∧ counts Pg.DISP Reg.DISP_TIMEOUTS d.regs (d.opWait n a b).regs)) ∧
      (o.count = 0 → fails (d.opTrywait n a) resBusy) ∧
      (o.count ≠ 0 → (d.opTrywait n a).disp.obj (a % 4096) = some { o with count := if o.counting then o.count - 1 else 0 } ∧
        ((d.opTrywait n a).disp.core n).dres = resOk) ∧
      (d.disp.firstWaiter (a % 4096) = none → o.counting = true → o.count < 65535 →
        (d.opSignal lt n a).disp.obj (a % 4096) = some { o with count := o.count + 1 } ∧
        ((d.opSignal lt n a).disp.core n).dres = resOk) ∧
      (d.disp.firstWaiter (a % 4096) = none → o.counting = false →
        (d.opSignal lt n a).disp.obj (a % 4096) = some { o with count := 1 }) ∧
      (∀ t th, d.disp.firstWaiter (a % 4096) = some t → o.counting = true → d.disp.threads.find t = some th →
        (d.opSignal lt n a).disp.ready = d.disp.ready ++ [t] ∧ t ∉ (d.opSignal lt n a).disp.waiters ∧
        (d.opSignal lt n a).disp.obj (a % 4096) = some o)) ∧
    (∀ a, d.disp.obj (a % 4096) = none → fails (d.opTrywait n a) resBadArg ∧ fails (d.opSignal lt n a) resBadArg) ∧
    (∀ t th, cur = some t → d.disp.threads.find t = some th →
      (d.opYield lt n).disp.ready = d.disp.ready ++ [t] ∧ ((d.opYield lt n).disp.core n).cur = none ∧
      ((d.opExit n).disp.threads.find t) = none ∧ ((d.opExit n).disp.core n).cur = none ∧
      (d.opExit n).disp.ready = d.disp.ready.filter (· ≠ t)) ∧
    (cur = none → fails (d.opYield lt n) resState ∧ fails (d.opExit n) resState) ∧
    (∀ a b, 96 ≤ a → a < 4096 →
      (d.disp.firstWaiter a = none → (d.opObjInit n a b).disp.obj a =
        some ⟨nbit b 16, if nbit b 16 then b % 65536 else min 1 (b % 65536)⟩) ∧
      (d.disp.firstWaiter a ≠ none → fails (d.opObjInit n a b) resState)) ∧
    (∀ a b, a < 96 ∨ 4096 ≤ a → fails (d.opObjInit n a b) resBadArg)

/-- DNEXT, CORE_EN_WRITE, WAIT_TIMEOUT, TSLICE_EXPIRY (R397, R402, R403, R405 to R407): a core runs the best ready thread that may
run on it; a core put in reset gives its thread back to the head of its ready list; waits that are due end with TIMEOUT; a thread
whose slice is over is interrupted once, if another of its priority waits. SEM_ACQ, SEM_REL, SEM_FORCE (R411 to R416): a free
semaphore takes its writer's ID, a taken one only counts, but among those who ask in the cycle in which it was taken the lowest
number has it; its owner alone releases it, and FORCE releases any; where the cycle has not asked for it before. NOTIFY stays, and
so does every other semaphore. Where the spec is silent a clause follows the model's choice, log entries 37 and 49. -/
def Obligations.CoresTimeAndSemaphores : Prop :=
  (
  (∀ (x : SideId) (n : Nat) (s : State),
    (coresRun s x = true → n < 8 → (s.side x).coreOn n = true →
      exec (.dnext x n) s = .next (fin (s.upd x fun d => ((d.timeouts s.c.lt).dropMarked n).2.dispatch s.c.lt n)) ∧
      exec (.tsliceExpiry x n) s = .next (fin (s.upd x fun d => d.sliceEnd n))) ∧
    (coresRun s x = false ∨ 8 ≤ n ∨ (s.side x).coreOn n = false →
      exec (.dnext x n) s = .next (fin s) ∧ exec (.tsliceExpiry x n) s = .next (fin s)) ∧
    (coresRun s x = true → exec (.waitTimeout x) s = .next (fin (s.upd x fun d => d.timeouts s.c.lt))) ∧
    (coresRun s x = false → exec (.waitTimeout x) s = .next (fin s))) ∧
  (∀ (d : Side) (lt n : Nat), n < 8 → (d.disp.core n).cur = none →
    let may (t : Nat) : Prop := t ∈ d.disp.ready ∧ ∃ th, d.disp.threads.find t = some th ∧ nbit th.aff n = true
    let u := d.dispatch lt n
    ((∀ t, ¬ may t) → (u.disp.core n).cur = none ∧ u.disp.ready = d.disp.ready ∧ (u.disp.core n).dnext = 0xFFFFFFFF#32) ∧
    (∀ t, (u.disp.core n).cur = some t → may t ∧
      (u.disp.core n).dnext = w32 (t % 1024 + 65536 * (d.disp.prio t % 64)) ∧ (∀ r, may r → d.disp.prio r ≤ d.disp.prio t) ∧
      u.disp.ready = d.disp.ready.filter (· ≠ t) ∧ (u.disp.threads.find t).map (·.st) = some .running) ∧
    ((∃ t, may t) → (u.disp.core n).cur.isSome = true) ∧ u.regs = d.regs ∧ u.outq = d.outq) ∧
  (∀ v : Word, sideRegister (fun r => .coreEnWrite r v) Pg.DISP Reg.DISP_CORE_EN v (fun _ lt _ d =>
    (d.updR fun t => wr t Pg.DISP Reg.DISP_CORE_EN (w32 (fld v 7 0))).coreEnWritten lt)) ∧
  (∀ (d : Side) (lt n t : Nat), n < 8 → d.coreOn n = false → (∀ m, m ≠ n → m < 8 → d.coreOn m = true) →
    (d.disp.core n).cur = some t →
    ((d.coreEnWritten lt).disp.core n).cur = none ∧ (d.coreEnWritten lt).disp.ready = t :: d.disp.ready ∧
    (d.coreEnWritten lt).regs = d.regs) ∧
  (∀ (d : Side) (lt : Nat), ((∀ t, t ∈ d.disp.waiters → d.waitDue t = false) → d.timeouts lt = d) ∧
    ∀ t, d.disp.waiters.filter d.waitDue = [t] →
      (d.timeouts lt).disp.ready = d.disp.ready ++ [t] ∧ t ∉ (d.timeouts lt).disp.waiters ∧
      ((d.timeouts lt).disp.threads.find t).map (·.res) = some resTimeout ∧
      counts Pg.DISP Reg.DISP_TIMEOUTS d.regs (d.timeouts lt).regs) ∧
  (∀ (d : Side) (n : Nat), n < 8 →
    let slice := rf d.regs Pg.DISP Reg.DISP_TSLICE 15 0
    (slice = 0 ∨ (d.disp.core n).cur = none ∨ stSince (d.disp.core n).since d.st < slice ∨ (d.disp.core n).sliced = true →
      d.sliceEnd n = d) ∧
    (∀ t r th, (d.disp.core n).cur = some t → slice ≠ 0 → slice ≤ stSince (d.disp.core n).since d.st →
      (d.disp.core n).sliced = false → r ∈ d.disp.ready → d.disp.threads.find r = some th → th.prio = d.disp.prio t →
      nbit th.aff n = true → ((d.sliceEnd n).disp.core n).irq = true ∧ ((d.sliceEnd n).disp.core n).sliced = true ∧
      (d.sliceEnd n).disp.ready = d.disp.ready))) ∧
  (
  (∀ (r : Requester) (n : Nat) (s : State), n < 64 →
    exec (.semAcq r n) s = exec (.registerWrite r (regAddr r Pg.SEM (Reg.SEM_SEM + 4 * n)) 1 1) s ∧
    exec (.semRel r n) s = exec (.registerWrite r (regAddr r Pg.SEM (Reg.SEM_SEM + 4 * n)) 2 1) s) ∧
  ∀ (s : State) (r : Requester) (n id : Nat), n < 64 → wayFree s r → ownerId r = some id →
    let off := Reg.SEM_SEM + 4 * n
    let owner := rf s.c.regs Pg.SEM off 10 8
    let leaves (i : Instr) (o : Nat) : Prop :=
      ∃ u, exec i s = .next (fin u) ∧ rf u.c.regs Pg.SEM off 10 8 = o ∧ rb u.c.regs Pg.SEM off 16 = rb s.c.regs Pg.SEM off 16 ∧
        (∀ m, m < 64 → m ≠ n → rd u.c.regs Pg.SEM (Reg.SEM_SEM + 4 * m) = rd s.c.regs Pg.SEM (Reg.SEM_SEM + 4 * m)) ∧
        u.c.lt = s.c.lt
    let only (i : Instr) (cnt o : Nat) : Prop :=
      ∃ u, exec i s = .next (fin u) ∧ sameSides s u ∧ rf u.c.regs Pg.SEM off 10 8 = o ∧ counts Pg.SEM cnt s.c.regs u.c.regs
    let fresh : Prop := ∀ k, s.c.sys.semAt.find n = some k → k.lt ≠ s.c.lt
    takesWrite s r Pg.SEM off →
    (owner = 0 → leaves (.semAcq r n) id ∧ only (.semAcq r n) Reg.SEM_ACQ_OK id) ∧
    (owner ≠ 0 → fresh → leaves (.semAcq r n) owner ∧ only (.semAcq r n) Reg.SEM_ACQ_BUSY owner) ∧
    (∀ k, owner ≠ 0 → s.c.sys.semAt.find n = some k → k.lt = s.c.lt → k.taken = true → owner ≠ id →
      only (.semAcq r n) Reg.SEM_CONTEND (min id owner) ∧ only (.semAcq r n) Reg.SEM_ACQ_BUSY (min id owner)) ∧
    (owner = id → fresh → leaves (.semRel r n) 0) ∧
    (owner ≠ id → leaves (.semRel r n) owner ∧ only (.semRel r n) Reg.SEM_NOT_OWNER owner) ∧
    (takesWrite s r Pg.SEM Reg.SEM_FORCE → (fresh → leaves (.semForce r (w32 (256 + n))) 0) ∧
      leaves (.semForce r (w32 n)) owner))

/-- What a grant is (R414, R418, R419, R422): all three replicas name the new holder, the next TOKEN and an EXPIRY one lease
ahead; it is counted; every semaphore of a side goes to the new holder; and both sides are told by one sequenced input. SREADY and
GRANT_WAIT_EXPIRY give the first lease to the preferred side, or to the other when GRANT_WAIT has passed, and the units of the
commons begin to act. Where the spec is silent a clause follows the model's choice, log entry 11. -/
def Obligations.LeaseGrants : Prop :=
  (∀ (s : State) (x : SideId) (marker : Bool), let u := grant s x marker
    let r : Replica := { holder := x.num, token := nextToken s.c.clasp.token, expiry := s.c.lt + leaseNs s.c }
    u.c.clasp.r0 = r ∧ u.c.clasp.r1 = r ∧ u.c.clasp.r2 = r ∧ u.c.clasp.holder = some x ∧ u.c.lt = s.c.lt ∧
    u.c.bezel.seq = s.c.bezel.seq + 1 ∧ counts Pg.CLASP Reg.CLASP_GRANTS s.c.regs u.c.regs ∧
    ∀ n, n < 64 → let old := rf s.c.regs Pg.SEM (Reg.SEM_SEM + 4 * n) 10 8
      rf u.c.regs Pg.SEM (Reg.SEM_SEM + 4 * n) 10 8 = if old = 3 ∨ old = 4 then x.num + 2 else old) ∧
  (∀ (s : State) (x : SideId), coresRun s x = true → s.c.bezel.st x = .boot → s.c.sys.boot x = 1 →
    (s.c.bezel.refill = none → s.c.clasp.holder = none → s.c.bezel.dead = false →
      (preferred s = x →
        ∃ u, exec (.sready x) s = .next (fin u) ∧ u.c.clasp.holder = some x ∧ u.c.clasp.token = nextToken s.c.clasp.token ∧
          u.c.sys.commonsEn = true ∧ u.c.lt = s.c.lt ∧
          (s.c.clasp.ready x.other = true → u.c.bezel.stA = .compared ∧ u.c.bezel.stB = .compared) ∧
          (s.c.clasp.ready x.other = false → u.c.bezel.st x = .alone)) ∧
      (preferred s ≠ x → s.c.clasp.ready x.other = false → s.c.clasp.waitPassed = false → s.c.sys.boot x.other ≠ 2 →
        exec (.sready x) s = .next (fin { s with c := { s.c with clasp := s.c.clasp.setReady x true } }))) ∧
    (∀ r, s.c.bezel.refill = some r → r.side = x → r.phase = 1 → exec (.sready x) s =
      .next (fin { s with c := { s.c with bezel := { s.c.bezel with refill := some { r with phase := 2 } } } }))) ∧
  (∀ s : State,
    (s.c.clasp.grantDue = none → exec .grantWaitExpiry s = .next (fin s)) ∧
    (∀ t, s.c.clasp.grantDue = some t → s.c.lt < t → exec .grantWaitExpiry s = .next (fin s)) ∧
    (∀ t x, s.c.clasp.grantDue = some t → t ≤ s.c.lt → s.c.clasp.holder = none → s.c.bezel.dead = false → preferred s = x.other →
      s.c.clasp.ready x = true → s.c.clasp.ready x.other = false →
      ∃ u, exec .grantWaitExpiry s = .next (fin u) ∧ u.c.clasp.holder = some x ∧ u.c.bezel.st x = .alone ∧
        u.c.clasp.token = nextToken s.c.clasp.token ∧ u.c.sys.commonsEn = true))

/-- RENEW, LEASE_EXPIRY, CLASP_SWAP, SWAP_MARKER, DRILL_START, DRILL_DWELL_END (R420, R421, R423, R424, R436): a renewal with the
TOKEN sets EXPIRY one lease ahead, and any other changes nothing; an expiry, by the coarse LT of AON, is a mismatch while the
sides are compared and the loss of the lease otherwise; a swap is refused while R424 names something in progress, and moves the
lease at its marker. Where the spec is silent a clause follows the model's choice, log entries 53 and 86. -/
def Obligations.LeaseKept : Prop :=
  (∀ (s : State) (v : Word) (h : SideId) (r : Replica), s.c.clasp.holder = some h → s.c.clasp.vote = some r →
    (s.c.bezel.held = true → exec (.renew v) s = .next (fin s)) ∧
    (s.c.bezel.held = false → takesWrite s (.core h) Pg.CLASP Reg.CLASP_RENEW →
      (fld v 15 0 = r.token → exec (.renew v) s = .next (fin { s with c := { s.c with
        clasp := s.c.clasp.write { r with expiry := s.c.lt + leaseNs s.c } } })) ∧
      (fld v 15 0 ≠ r.token → exec (.renew v) s = .next (fin s)))) ∧
  (∀ (s : State) (v : Word), s.c.clasp.holder = none → exec (.renew v) s = .next (fin s)) ∧
  (∀ (s : State) (r : Replica) (x : SideId), s.c.clasp.r0 = r → s.c.clasp.r1 = r → s.c.clasp.r2 = r → s.c.clasp.holder = some x →
    (coarseLt s.c.lt < r.expiry ∨ s.variant.full = false ∨ s.c.bezel.held = true ∨ s.c.pd.dom x.num ≠ .on →
      exec .leaseExpiry s = .next (fin s)) ∧
    (r.expiry ≤ coarseLt s.c.lt → s.variant.full = true → s.c.bezel.held = false → s.c.pd.dom x.num = .on →
      (s.c.bezel.compares = true →
        exec .leaseExpiry s = .next (fin (mismatch s 3 (s.side x).point none none none none))) ∧
      (s.c.bezel.compares = false → ∃ u, exec .leaseExpiry s = .next (fin u) ∧ u.c.bezel.dead = true ∧ u.c.clasp.holder = none ∧
        u.c.clasp.token = r.token ∧ counts Pg.CLASP Reg.CLASP_EXPIRED s.c.regs u.c.regs ∧
        rb u.c.regs Pg.CLASP Reg.HDR_EVT_STAT 2 = true))) ∧
  (∀ (s : State) (r : Requester), wayFree s r → takesWrite s r Pg.CLASP Reg.CLASP_CMD →
    (swapMay s = true → exec (.claspSwap r) s =
      .next (fin ((posted s r).updC fun c => { c with clasp := { c.clasp with swapTo := some (shadowNum s) } }))) ∧
    (swapMay s = false → exec (.claspSwap r) s = .next (fin ((posted s r).updC fun c => c.err Pg.CLASP 1)))) ∧
  (∀ s : State,
    (s.c.clasp.swapTo = none ∨ s.c.bezel.compares = false ∨ s.c.bezel.hold.isSome = true → exec .swapMarker s = .next (fin s)) ∧
    (∀ x, s.c.clasp.swapTo = some x.num → s.c.bezel.compares = true → s.c.bezel.hold = none → s.c.clasp.drillHome = none →
      let t := grant { s with c := { s.c with clasp := { s.c.clasp with swapTo := none, swapOut := none } } } x true
      (s.c.clasp.swapOut = none → exec .swapMarker s = .next (fin t)) ∧
      (∀ y, s.c.clasp.swapOut = some y → exec .swapMarker s = .next (fin (leave t y))))) ∧
  (∀ s : State, let k := s.c.clasp
    let due := match k.drillNext with
      | some t => decide (t ≤ s.c.lt)
      | none => false
    let free := swapMay s && decide (s.c.pd.dom 1 = .on ∧ s.c.pd.dom 2 = .on)
    (due = false → k.drillWait = false → exec .drillStart s = .next (fin s)) ∧
    (due = true ∨ k.drillWait = true → free = true → ∃ u, exec .drillStart s = .next (fin u) ∧ sameSides s u ∧
      u.c = { s.c with clasp := u.c.clasp } ∧ u.c.clasp.swapTo = some (shadowNum s) ∧
      u.c.clasp.drillHome = k.holder.map SideId.num ∧ u.c.clasp.drillWait = false ∧
      (due = true → u.c.clasp.drillNext = nextDrill s.c s.c.lt)) ∧
    (due = true → free = false → k.drillWait = false → ∃ u, exec .drillStart s = .next (fin u) ∧ sameSides s u ∧
      u.c.clasp = { k with drillNext := nextDrill s.c s.c.lt, drillWait := true } ∧
      setsReg Pg.CLASP Reg.CLASP_DRILL_SKIP 0 (oneMore (rd s.c.regs Pg.CLASP Reg.CLASP_DRILL_SKIP)) s.c.regs u.c.regs)) ∧
  (∀ (s : State) (home t : Nat), s.c.clasp.drillHome = some home → s.c.clasp.drillEnd = some t →
    (t ≤ s.c.lt → exec .drillDwellEnd s =
      .next (fin { s with c := { s.c with clasp := { s.c.clasp with drillEnd := none, swapTo := some home } } })) ∧
    (s.c.lt < t → exec .drillDwellEnd s = .next (fin s)))

/-- SELF_CHECK_REPORT and SELF_CHECK_TIMEOUT (R428, R429): a result is kept until both are known; then, as the table "Verdicts"
says, the shadow takes the lease and its member passes, or the shadow is out and the active's member passes, or both go on (with
the shadow out after a DATA mismatch), or both sides stop; each with its count and event, and the side that is out is refilled. -/
def Obligations.Verdicts : Prop :=
  (∀ (s : State) (x : SideId) (ok : SelfCheck) (m : Mismatch), s.c.bezel.hold = some m →
    (s.c.bezel.st x ≠ .selfCheck →
      exec (.selfCheckReport x ok) s = .next (fin s) ∧ exec (.selfCheckTimeout x) s = .next (fin s)) ∧
    (s.c.lt < 200000 + m.start → exec (.selfCheckTimeout x) s = .next (fin s)) ∧
    (s.c.bezel.st x = .selfCheck →
      let goes (i : Instr) (b : Bool) : Prop :=
        let m' := m.setRes x b
        let t : State := { s with c := { s.c with bezel := { s.c.bezel with hold := some m' } } }
        (m'.res x.other = none → exec i s = .next (fin t)) ∧
        (∀ h p q, s.c.clasp.holder = some h → m'.res h = some p → m'.res h.other = some q →
          exec i s = .next (fin (verdict t m' h p q)))
      goes (.selfCheckReport x ok) (ok.digestOk && ok.logicOk && ok.scanOk) ∧
      (200000 + m.start ≤ s.c.lt → goes (.selfCheckTimeout x) false))) ∧
  (∀ (s : State) (m : Mismatch) (h : SideId), s.variant.full = true → s.c.clasp.holder = some h → s.c.bezel.stA = .selfCheck →
    s.c.bezel.stB = .selfCheck → s.c.bezel.dead = false → s.c.bezel.refill = none →
    let refills (u : State) (x : SideId) : Prop := (u.c.bezel.refill.map fun r => (r.side, r.phase)) = some (x, 1)
    let passes (u : State) (x : SideId) : Prop := ∀ t, m.member x = some t → (u.c.bezel.heldOf x).head? = some (s.c.lt, t)
    (let u := verdict s m h false false;
      u.c.bezel.dead = true ∧ u.c.clasp.holder = none ∧ u.c.bezel.stA = .stopped ∧ u.c.bezel.stB = .stopped ∧
      counts Pg.BEZEL Reg.BEZEL_BOTH_FAIL s.c.regs u.c.regs ∧ rb u.c.regs Pg.BEZEL Reg.HDR_EVT_STAT 3 = true) ∧
    (let u := verdict s m h false true;
      u.c.bezel.held = false ∧ u.c.clasp.holder = some h.other ∧ u.c.bezel.st h.other = .alone ∧ u.c.bezel.st h = .boot ∧
      u.c.clasp.token = nextToken s.c.clasp.token ∧ counts Pg.BEZEL Reg.BEZEL_TAKEOVERS s.c.regs u.c.regs ∧
      rb u.c.regs Pg.BEZEL Reg.HDR_EVT_STAT 0 = true ∧ refills u h ∧ passes u h.other) ∧
    (let u := verdict s m h true false;
      u.c.bezel.held = false ∧ u.c.clasp.holder = some h ∧ u.c.bezel.st h = .alone ∧ u.c.bezel.st h.other = .boot ∧
      u.c.clasp.token = s.c.clasp.token ∧ counts Pg.BEZEL Reg.BEZEL_SHADOW_FAIL s.c.regs u.c.regs ∧
      rb u.c.regs Pg.BEZEL Reg.HDR_EVT_STAT 1 = true ∧ refills u h.other ∧ passes u h) ∧
    (m.cause ≠ 1 → let u := verdict s m h true true;
      u.c.bezel.held = false ∧ u.c.bezel.compares = true ∧ u.c.clasp = s.c.clasp ∧
      counts Pg.BEZEL Reg.BEZEL_TRANSIENT s.c.regs u.c.regs ∧ rb u.c.regs Pg.BEZEL Reg.HDR_EVT_STAT 2 = true) ∧
    (m.cause = 1 → let u := verdict s m h true true;
      u.c.bezel.held = false ∧ u.c.clasp.holder = some h ∧ u.c.bezel.st h = .alone ∧ u.c.bezel.st h.other = .boot ∧
      counts Pg.BEZEL Reg.BEZEL_TRANSIENT s.c.regs u.c.regs ∧ rb u.c.regs Pg.BEZEL Reg.HDR_EVT_STAT 2 = true ∧
      refills u h.other ∧ passes u h))

/-- OUT_X, IN_X, RECOVER, PATH_CLR (R425, R428, R432, R440): OUT takes a shadow out at once and an active side at a marker swap;
IN starts a refill; RECOVER restarts both sides after a double failure; a command that cannot be taken sets the error.
TRANSFER_MARKER, REFILL_COPY_DONE, JOIN, REFILL_RETRY, FWU_SWAP (R361, R433, R434): the steps of a refill, each only in its turn;
a retry after its time, while both SIDE domains are on; and the swap of an update, which moves the lease to the side on the new
slot and restarts the other. Where the spec is silent a clause follows the model's choice, log entries 79 and 86. -/
def Obligations.ServiceAndRefills : Prop :=
  (
  ∀ (s : State) (r : Requester) (x : SideId), wayFree s r → takesWrite s r Pg.BEZEL Reg.BEZEL_CMD → s.variant.full = true →
    let z := s.c.bezel
    let p := posted s r
    (z.hold.isSome = true ∨ z.refilling = true ∨ updating s = true →
      exec (.outX r x) s = .next (fin (cmdBusy p)) ∧ exec (.inX r x) s = .next (fin (cmdBusy p)) ∧
      exec (.recover r) s = .next (fin (cmdBusy p)) ∧ exec (.pathClr r) s = .next (fin (cmdBusy p))) ∧
    (z.hold = none → z.refilling = false → updating s = false →
      (z.compares = false → exec (.outX r x) s = .next (fin (cmdBusy p))) ∧
      (z.compares = true → s.c.clasp.swapTo = none → s.c.clasp.holder ≠ some x →
        ∃ u, exec (.outX r x) s = .next (fin u) ∧ u.c.bezel.st x = .off ∧ u.c.bezel.st x.other = .alone ∧
          (u.side x).inq = [] ∧ (u.side x).outq = [] ∧ u.side x.other = s.side x.other ∧ u.c.lt = s.c.lt ∧
          u.c.clasp.holder = s.c.clasp.holder) ∧
      (z.compares = true → s.c.clasp.swapTo = none → s.c.clasp.holder = some x → z.pathBad x.other = false →
        exec (.outX r x) s = .next (fin { p with c := { p.c with clasp := { p.c.clasp with
          swapTo := some x.other.num, swapOut := some x } } })) ∧
      (z.st x = .off → z.st x.other = .alone → s.c.pd.dom x.num = .on →
        ∃ u, exec (.inX r x) s = .next (fin u) ∧ u.c.bezel.st x = .boot ∧ u.side x.other = s.side x.other ∧
          u.c.bezel.refill = some { side := x, tries := 0, phase := 1, fwu := false, retryAt := none, copy := 0 }) ∧
      (z.st x ≠ .off ∨ z.st x.other ≠ .alone ∨ s.c.pd.dom x.num ≠ .on → exec (.inX r x) s = .next (fin (cmdBusy p))) ∧
      (z.dead = true → ∃ u, exec (.recover r) s = .next (fin u) ∧ u.c.bezel.held = false ∧ u.c.bezel.stA = .boot ∧
        u.c.bezel.stB = .boot ∧ u.c.sys.boot .a = 1 ∧ u.c.sys.boot .b = 1 ∧ rb u.c.regs Pg.RST Reg.RST_CAUSE 4 = true ∧
        u.c.clasp.grantDue = some (s.c.lt + grantWaitNs s.c)) ∧
      (z.dead = false → exec (.recover r) s = .next (fin p)) ∧
      exec (.pathClr r) s =
        .next (fin { p with c := { p.c with bezel := { p.c.bezel with pathBadA := false, pathBadB := false } } }))) ∧
  (
  (∀ s : State, s.c.bezel.refill = none → exec .transferMarker s = .next (fin s) ∧ exec .refillCopyDone s = .next (fin s) ∧
    exec .join s = .next (fin s) ∧ exec .refillRetry s = .next (fin s) ∧ exec .fwuSwap s = .next (fin s)) ∧
  (∀ (s : State) (r : Refill), s.c.bezel.refill = some r →
    let y := r.side.other
    let inPhase (phase : Nat) : State := { s with c := { s.c with bezel := { s.c.bezel with refill := some { r with phase := phase } } } }
    (r.phase = 2 → s.c.bezel.hold = none → ∃ u, exec .transferMarker s = .next (fin u) ∧ u.c.bezel.st r.side = .refill ∧
      u.c.bezel.refill = some { r with phase := 3, copy := s.c.bezel.seq } ∧ u.c.bezel.seq = s.c.bezel.seq + 1 ∧
      u.c.regs = s.c.regs ∧ u.c.lt = s.c.lt) ∧
    (r.phase ≠ 2 ∨ s.c.bezel.hold.isSome = true → exec .transferMarker s = .next (fin s)) ∧
    (r.phase = 3 → r.copy < (s.side y).point → exec .refillCopyDone s = .next (fin (inPhase 4))) ∧
    (r.phase ≠ 3 ∨ (s.side y).point ≤ r.copy → exec .refillCopyDone s = .next (fin s)) ∧
    (r.phase = 4 → r.fwu = false → s.c.bezel.hold = none → (s.side y).now ≤ 20000 + (s.side r.side).now →
      ∃ u, exec .join s = .next (fin u) ∧ u.c.bezel.refill = some { r with phase := 5 } ∧
        u.c.bezel.joinPoint = s.c.bezel.seq ∧ u.c.bezel.seq = s.c.bezel.seq + 1 ∧ u.c.regs = s.c.regs) ∧
    (20000 + (s.side r.side).now < (s.side y).now → exec .join s = .next (fin s)) ∧
    (∀ t, r.retryAt = some t → r.phase = 0 → t ≤ s.c.lt → s.c.bezel.st r.side = .off → s.variant.full = true →
      s.c.bezel.st y = .alone → s.c.pd.dom 1 = .on → s.c.pd.dom 2 = .on → ∃ u, exec .refillRetry s = .next (fin u) ∧ u.c.bezel.st r.side = .boot ∧
        u.c.bezel.refill = some { side := r.side, tries := r.tries, phase := 1, fwu := false, retryAt := none, copy := 0 }) ∧
    (∀ t, r.retryAt = some t → s.c.lt < t ∨ s.c.pd.dom 1 ≠ .on ∨ s.c.pd.dom 2 ≠ .on → exec .refillRetry s = .next (fin s)) ∧
    (r.fwu = true → r.phase = 4 → s.c.bezel.hold = none → (s.side r.side).point = (s.side y).point → (s.side y).outq = [] →
      (s.c.bezel.heldOf y).isEmpty = true → s.variant.full = true → s.c.clasp.drillHome = none →
      ∃ u, exec .fwuSwap s = .next (fin u) ∧ u.c.clasp.holder = some r.side ∧ u.c.bezel.st r.side = .alone ∧
        u.c.bezel.st y = .boot ∧ (u.side r.side).fw.phase = 4 ∧ u.c.clasp.token = nextToken s.c.clasp.token) ∧
    (r.fwu = false ∨ r.phase ≠ 4 ∨ (s.side r.side).point ≠ (s.side y).point → exec .fwuSwap s = .next (fin s))))

/-- MEMORY_ERROR (R450, R453): a correctable error is only counted. An uncorrectable one is counted and marks its bank, and is
then a mismatch with SIDE_ERR while the sides are compared; in a side that is alone it costs what lay there, and where nothing can
be given up the side stops; launches whose frame it was are lost with it (R97). A damaged frame of the commons receive buffer is
dropped for both sides, and one still being received is lost with its lane (R145). LOSS_MARKER_PUSH and STALL (R454, R455, R465):
the oldest due marker whose strand has a place, with nothing stalled there, is pushed and is due no more; a push of the active
side that has stalled longer than STALL_TO is recorded once, with its strand. Where the spec is silent a clause follows the
model's choice, log entries 34, 66 and 90. -/
def Obligations.MemoryErrorsAndStalls : Prop :=
  (
  (∀ (s : State) (x : SideId) (loc : MemLoc), s.c.bezel.quiet x = false → (∀ n, loc ≠ .rxBuffer n) →
    let corr := if x = .a then Reg.ERR_ECC_CORR_A else Reg.ERR_ECC_CORR_B
    let unc := if x = .a then Reg.ERR_ECC_UNC_A else Reg.ERR_ECC_UNC_B
    let bank := if x = .a then Reg.ERR_ECC_BANK_A else Reg.ERR_ECC_BANK_B
    let counted (u : State) : Prop := counts Pg.ERR unc s.c.regs u.c.regs ∧
      rb u.c.regs Pg.ERR bank (memBank loc % 24) = true ∧ rb u.c.regs Pg.ERR Reg.HDR_ERR_STICKY (if x = .a then 0 else 1) = true
    (∃ u, exec (.memoryError x loc true) s = .next (fin u) ∧ onlyRegs s u ∧
      setsReg Pg.ERR corr 0 (oneMore (rd s.c.regs Pg.ERR corr)) s.c.regs u.c.regs) ∧
    (s.c.bezel.compares = true → s.c.bezel.held = false → (∀ n, loc = .cell n → (s.side x).cellFree n = false) →
      ∃ u, exec (.memoryError x loc false) s = .next (fin u) ∧ counted u ∧ u.c.bezel.lastCause = 4 ∧
        u.c.bezel.stA = .selfCheck ∧ u.c.bezel.stB = .selfCheck ∧ (u.c.bezel.hold.bind fun m => m.res x) = some false ∧
        (u.c.bezel.hold.bind fun m => m.res x.other) = some true) ∧
    (s.c.bezel.st x = .alone → s.c.bezel.hold = none →
      (∀ n, loc = .nodeEntry n → ∃ u, exec (.memoryError x loc false) s = .next (fin u) ∧ counted u ∧
        u.side x = (s.side x).removeNode n ∧ u.side x.other = s.side x.other) ∧
      (∀ n, loc = .skimEntry n → ∃ u, exec (.memoryError x loc false) s = .next (fin u) ∧ counted u ∧
        (u.side x).mesh.skim.find n = none ∧ (∀ j, j ≠ n → (u.side x).mesh.skim.find j = (s.side x).mesh.skim.find j) ∧
        (u.side x).regs = (s.side x).regs ∧ u.side x.other = s.side x.other) ∧
      (∀ n, loc = .keyEntry n → ∃ u, exec (.memoryError x loc false) s = .next (fin u) ∧ counted u ∧
        (u.side x).key.cache.find n = none ∧ (∀ j, j ≠ n → (u.side x).key.cache.find j = (s.side x).key.cache.find j) ∧
        u.side x.other = s.side x.other) ∧
      (∀ n e, loc = .cell n → (s.side x).cellFree n = false → (s.side x).cellLost (s.side x).view n = some e → ∃ u,
        exec (.memoryError x loc false) s = .next (fin (launchesLost u ((s.side x).cellFlights n))) ∧ counted u ∧ u.side x = e ∧
        u.side x.other = s.side x.other) ∧
      (∀ n, loc = .other n → ∃ u, exec (.memoryError x loc false) s = .next (fin u) ∧ counted u ∧ u.c.bezel.dead = true ∧
        u.c.clasp.holder = none)) ∧
    (∀ n, loc = .cell n → (s.side x).cellFree n = true → ∃ u, exec (.memoryError x loc false) s = .next (fin u) ∧ counted u ∧
      u.side x = (s.side x).withdraw n ∧ u.side x.other = s.side x.other ∧ u.c.bezel = s.c.bezel)) ∧
  (∀ (s : State) (x : SideId) (n : Nat) (f : RxFrame), s.c.air.rxbuf[n]? = some f →
    exec (.memoryError x (.rxBuffer n) true) s = .next (fin s) ∧
    ∃ u, exec (.memoryError x (.rxBuffer n) false) s = .next (fin u) ∧ sameSides s u ∧
      u.c.air.rxbuf = s.c.air.rxbuf.eraseIdx n ∧ u.c = { s.c with air := u.c.air, regs := u.c.regs } ∧
      setsReg Pg.AIR Reg.AIR_RX_OVERRUN 0 (oneMore (rd s.c.regs Pg.AIR Reg.AIR_RX_OVERRUN)) s.c.regs u.c.regs) ∧
  (∀ (s : State) (x : SideId) (n : Nat) (p : RPort) (no : Nat), s.c.air.rxbuf.length ≤ n →
    s.c.receiving[n - s.c.air.rxbuf.length]? = some (p, no) → exec (.memoryError x (.rxBuffer n) false) s =
      .next (fin (s.updC fun c => closeLane c p no p.facetPage Reg.FACET_ABORTED)))) ∧
  (
  (∀ (x : SideId), sideDoes (.lossMarkerPush x) x fun _ lt _ d => d.lossPush lt) ∧
  (∀ (d : Side) (lt : Nat),
    ((∀ m ∈ d.strand.marks, (d.strandOn m.strand && d.placeFree m.strand && (d.ring m.strand).stalled.isEmpty) = false) →
      d.lossPush lt = d) ∧
    (∀ m, (d.strand.marks.find? fun m => d.strandOn m.strand && d.placeFree m.strand && (d.ring m.strand).stalled.isEmpty) = some m →
      d.strandDir m.strand ≠ 1 → let u := d.lossPush lt
      u.strand.marks = d.strand.marks.erase m ∧ ∃ q rest, (u.ring m.strand).slots = (d.ring m.strand).slots ++ q :: rest ∧ q.d = m.d)) ∧
  (∀ (s : State) (x : SideId) (n : Nat), sideRun s x = true →
    ((s.side x).longStall (s.side x).view n = false → exec (.stall x n) s = .next (fin s)) ∧
    ((s.side x).longStall (s.side x).view n = true →
      (activeSide s ≠ x → ∃ u, exec (.stall x n) s = .next (fin u) ∧ onlySide x s u ∧ (u.side x).longStall (s.side x).view n = false) ∧
      (activeSide s = x → ∃ u, exec (.stall x n) s = .next (fin u) ∧ (u.side x).longStall (s.side x).view n = false ∧
        counts Pg.ERR Reg.ERR_STALLS s.c.regs u.c.regs ∧ rb u.c.regs Pg.ERR Reg.HDR_ERR_STICKY 4 = true ∧
        rd u.c.regs Pg.ERR Reg.ERR_STALL_STRAND = w32 (n % 64 + (if x = .a then 0 else 256)) ∧ u.c.lt = s.c.lt ∧
        u.side x.other = s.side x.other))))

/-- UNIT_DISABLE, DISABLE_COMPLETE, UNIT_ENABLE (R457 to R460, table "CTRL fields", table "Disable outcomes"): a unit that is
enabled stops and drains with DISABLE_PENDING, a port's bound frames and waiting launches ending at once, a prepared
acknowledgement not; its draining ends once it holds no accepted work, and an enable written meanwhile is held until then. EXPERT
keeps its value, and a page whose ENABLE is fixed stays enabled. Where the spec is silent a clause follows the model's choice, log
entries 55 and 91. -/
def Obligations.UnitsDisable : Prop :=
  let word (t : Tab Word) (page : Nat) (en : Bool) : Word := w32 (b2n en + 2 * b2n (rb t page Reg.HDR_CTRL 1))
  let stops (t : Tab Word) (page : Nat) : Tab Word :=
    wr (wr t page Reg.HDR_CTRL (word t page false)) page Reg.HDR_STAT (setBit (rd t page Reg.HDR_STAT) 2 true)
  let starts (t : Tab Word) (page : Nat) : Tab Word :=
    wr (wr t page Reg.HDR_CTRL (word t page true)) page Reg.HDR_STAT (setBit (rd t page Reg.HDR_STAT) 0 true)
  let on (t : Tab Word) (page : Nat) : Prop := rb t page Reg.HDR_STAT 0 = true ∧ rb t page Reg.HDR_STAT 2 = false
  let off (t : Tab Word) (page : Nat) : Prop := rb t page Reg.HDR_STAT 0 = false ∧ rb t page Reg.HDR_STAT 2 = false
  (∀ (s : State) (r : Requester) (page : Nat), wayFree s r → page < 64 → takesWrite s r page Reg.HDR_CTRL →
    let p := posted s r
    let t := p.c.regs
    (page ∈ fixedPages → exec (.unitDisable r page) s = exec (.unitEnable r page) s ∧
      exec (.unitDisable r page) s = .next (fin (p.updR fun _ => wr t page Reg.HDR_CTRL (word t page true)))) ∧
    (page ∉ fixedPages → on t page → page ≠ Pg.IBE → (∀ q : RPort, page ≠ q.rfPage) →
      exec (.unitDisable r page) s = .next (fin (p.updR fun _ => stops t page))) ∧
    (∀ q : RPort, page = q.rfPage → on t page → ∃ u, exec (.unitDisable r page) s = .next (fin u) ∧
      (u.c.port q).lanes = [] ∧ rb u.c.regs page Reg.HDR_STAT 2 = true ∧ rb u.c.regs page Reg.HDR_CTRL 0 = false ∧
      ∀ k ∈ (u.c.port q).carriers.toList, k.arrivals = [] ∧ k.queue = [] ∧ k.held = [] ∧ ∀ b ∈ k.bursts, b.phase.started = true ∨ b.isAck = true) ∧
    (page ∉ fixedPages → off t page → exec (.unitEnable r page) s = .next (fin (p.updR fun _ => starts t page)) ∧
      exec (.unitDisable r page) s = .next (fin (p.updR fun _ => wr t page Reg.HDR_CTRL (word t page false)))) ∧
    (page ∉ fixedPages → rb t page Reg.HDR_STAT 2 = true →
      exec (.unitEnable r page) s = .next (fin (p.updR fun _ => wr t page Reg.HDR_CTRL (word t page true))))) ∧
  (∀ (s : State) (x : SideId) (page : Nat), ownWay s x → 64 ≤ page → page < 96 → page ∉ fixedPages →
    (regRow page Reg.HDR_CTRL).isSome = true → (page ≠ Pg.TROWEL ∧ page ≠ Pg.PEND) →
    let t := (s.side x).regs
    (on t page → exec (.unitDisable (.core x) page) s = .next (fin (s.upd x fun d => { d with regs := stops t page }))) ∧
    (off t page → exec (.unitEnable (.core x) page) s = .next (fin (s.upd x fun d => { d with regs := starts t page })))) ∧
  (∀ (s : State) (page : Nat), page < 64 →
    (commonsIdle s.c page = false → exec (.disableComplete page) s = .next (fin s)) ∧
    (commonsIdle s.c page = true → exec (.disableComplete page) s = .next (fin (s.updR fun t =>
      if rb t page Reg.HDR_STAT 2 then wr t page Reg.HDR_STAT (w32 (b2n (rb t page Reg.HDR_CTRL 0))) else t)))) ∧
  (∀ (s : State) (x : SideId) (page : Nat), 64 ≤ page → page < 96 →
    let i : Instr := .disableComplete (if x = .a then page else page + 32)
    ((s.side x).unitIdle page = false → exec i s = .next (fin s)) ∧
    ((s.side x).unitIdle page = true → exec i s = .next (fin (s.upd x fun d => d.updR fun t =>
      if rb t page Reg.HDR_STAT 2 then wr t page Reg.HDR_STAT (w32 (b2n (rb t page Reg.HDR_CTRL 0))) else t))))

/-- REARM, MOD_INTERVAL_END, MSIX_UNMASK, HOST_PORT_RESET (R483, R485, R494, R496): ARMED is set again for one source; an interval
ends at its time and a message that waited for it goes out; ending a mask sends what the port held; a reset clears the port's
page, table, pending bits and ARMED bits and is one input for the sides. Where the spec is silent a clause follows the model's
choice, log entry 92. -/
def Obligations.HostMessages : Prop :=
  (∀ (s : State) (r : Requester) (second : Bool) (src : Nat), wayFree s r → src < 256 →
    takesWrite s r Pg.CEVT (if second then Reg.CEVT_REARM_B else Reg.CEVT_REARM_A) →
    ∃ u, exec (.rearm r second src) s = .next (fin u) ∧ sameSides s u ∧ u.c.regs = (posted s r).c.regs ∧
      u.c.evt.armed second src = true ∧ (∀ n, n ≠ src → u.c.evt.armed second n = s.c.evt.armed second n) ∧
      (∀ n, u.c.evt.armed (!second) n = s.c.evt.armed (!second) n)) ∧
  (∀ (s : State) (second : Bool) (vec : Nat),
    ((s.c.evt.mod second).find vec = none → exec (.modIntervalEnd second vec) s = .next (fin s)) ∧
    (∀ t w, (s.c.evt.mod second).find vec = some (t, w) →
      (s.c.lt < t → exec (.modIntervalEnd second vec) s = .next (fin s)) ∧
      (t ≤ s.c.lt → w = false → ∃ u, exec (.modIntervalEnd second vec) s = .next (fin u) ∧ sameSides s u ∧
        u.c = { s.c with evt := u.c.evt } ∧ (u.c.evt.mod second).find vec = none ∧ u.c.evt.sent = s.c.evt.sent) ∧
      (t ≤ s.c.lt → w = true → (s.c.host second).holds vec = false →
        ∃ u, exec (.modIntervalEnd second vec) s = .next (fin u) ∧ sameSides s u ∧ u.c = { s.c with evt := u.c.evt } ∧
          u.c.evt.sent = s.c.evt.sent ++ [(second, vec)]) ∧
      (t ≤ s.c.lt → w = true → (s.c.host second).holds vec = true →
        ∃ u, exec (.modIntervalEnd second vec) s = .next (fin u) ∧ sameSides s u ∧ u.c.evt.sent = s.c.evt.sent ∧
          vec ∈ (u.c.host second).pba))) ∧
  (∀ (s : State) (second : Bool) (vec : Nat), s.variant.full = true ∨ second = false →
    ∃ u, exec (.msixUnmask second vec) s = .next (fin u) ∧ sameSides s u ∧ u.c.regs = s.c.regs ∧
      (vec < 64 → vec ∉ (u.c.host second).masked) ∧
      (64 ≤ vec → (u.c.host second).funcMask = false ∧ (u.c.host second).msixEn = true ∧ (u.c.host second).bme = true) ∧
      (∀ n ∈ (u.c.host second).pba, (u.c.host second).holds n = true ∧ n ∈ (s.c.host second).pba) ∧
      ∀ n ∈ (s.c.host second).pba, n ∈ (u.c.host second).pba ∨ (second, n) ∈ u.c.evt.sent) ∧
  (∀ (s : State) (second : Bool) (kind : PortReset), s.variant.full = true ∨ second = false →
    ∃ t, exec (.hostPortReset second kind) s = .next (fin (t.offer (portOf second).source (.portReset (portOf second)))) ∧
      sameSides s t ∧ (t.c.host second).masked = List.range 64 ∧ (t.c.host second).pba = [] ∧ (t.c.host second).msixEn = false ∧
      (t.c.host second).bme = false ∧ (∀ n, t.c.evt.armed second n = true) ∧ rd t.c.regs (hostPage second) Reg.HOST_WR_TLP = 0 ∧
      rd t.c.regs (hostPage second) Reg.HOST_UR = 0 ∧ (t.c.host (!second)) = s.c.host (!second) ∧
      samePages (hostPage second) s.c.regs t.c.regs)

/-- CHAIN_WRITE, CHAIN_READ, FETCH, SET_ADDRESS, CLR_ADDR (R500 to R503): an addressed frame without error is counted and is the
register access it carries, a read when none is outstanding; a bad one is counted and sets CRC_ERR; any other is not this unit's.
A FETCH drives STATUS and the data of the completed read; an unaddressed unit with CHN_ENI high takes its address. WIN_DATA (R426,
R458, R504): a write or a read at WIN_ADDR of BAR2, which then moves on by 4; a read waits for the verdict of a mismatch; the unit
disabled takes neither. Where the spec is silent a clause follows the model's choice, log entry 48. -/
def Obligations.ChainFrames : Prop :=
  (
  (∀ (s : State) (fr : List Byte), unitOn s.c.regs Pg.CHAIN = true → chainMine s.c fr = true → chainBad fr = none →
    let t := s.bumpC Pg.CHAIN Reg.CHAIN_FRAMES
    (chainOp fr = 0 →
      exec (.chainWrite fr) s = .next (fin (access t .chain (chainOff fr) (w32 (beNat (slice fr 4 4))) 15)) ∧
      exec (.chainWrite fr) s = exec (.registerWrite .chain (chainOff fr) (w32 (beNat (slice fr 4 4))) 15) t) ∧
    (chainOp fr = 1 → s.c.chain.rd.isSome = true → exec (.chainRead fr) s = .next (fin (t.bumpC Pg.CHAIN Reg.CHAIN_BUSY))) ∧
    (∀ page off, chainOp fr = 1 → s.c.chain.rd = none → page < 64 → page ≠ Pg.CHAIN → page ≠ Pg.LATH → off < 4096 → off % 4 = 0 →
      chainOff fr = 4096 * page + off →
      ∃ u, exec (.chainRead fr) s = .next (fin u) ∧ sameSides s u ∧ u.c.regs = t.c.regs ∧
        u.c.chain.rd = some (chainOff fr, some (u.c.lastRead.elim 0 Prod.snd)) ∧
        u.c.lastRead.map Prod.fst = some .chain ∧ u.c.bezel = s.c.bezel) ∧
    (chainOp fr = 2 → ∃ u, exec (.fetch fr) s = .next (fin u) ∧ sameSides s u ∧ u.c = { t.c with chain := u.c.chain } ∧
      u.c.chain.crcErr = false ∧ u.c.chain.addr = s.c.chain.addr ∧
      (∀ o v, s.c.chain.rd = some (o, some v) → u.c.chain.rd = none ∧ slice u.c.chain.out 1 4 = beBytes 4 v.toNat ∧
        byteAt u.c.chain.out 0 = (1 + 2 * b2n s.c.chain.crcErr + 4 * s.c.chain.addr) % 256) ∧
      (∀ o, s.c.chain.rd = some (o, none) → u.c.chain.rd = s.c.chain.rd ∧
        byteAt u.c.chain.out 0 = (2 * b2n s.c.chain.crcErr + 4 * s.c.chain.addr) % 256))) ∧
  (∀ (s : State) (fr : List Byte) (o : Nat), unitOn s.c.regs Pg.CHAIN = true → chainMine s.c fr = true → chainBad fr = some o →
    chainOp fr = 0 → exec (.chainWrite fr) s = .next (fin ((s.bumpC Pg.CHAIN o).updC fun c =>
      { c with chain := { c.chain with crcErr := true } }))) ∧
  (∀ (s : State) (fr : List Byte), chainMine s.c fr = false →
    exec (.chainWrite fr) s = .next (fin s) ∧ exec (.chainRead fr) s = .next (fin s) ∧ exec (.fetch fr) s = .next (fin s)) ∧
  (∀ (s : State) (fr : List Byte), unitOn s.c.regs Pg.CHAIN = true → chainOp fr = 3 → chainAddr fr = 0 → chainBad fr = none →
    s.c.chain.addr = 0 →
    (byteAt fr 1 % 64 ≠ 0 → byteAt fr 1 % 64 ≠ 63 → ∃ u, exec (.setAddress fr true) s = .next (fin u) ∧ sameSides s u ∧
      u.c.chain = { s.c.chain with addr := byteAt fr 1 % 64, eno := true, eni := true } ∧
      setsReg Pg.CHAIN Reg.CHAIN_FRAMES 0 (oneMore (rd s.c.regs Pg.CHAIN Reg.CHAIN_FRAMES)) s.c.regs u.c.regs) ∧
    (∃ u, exec (.setAddress fr false) s = .next (fin u) ∧ u.c.chain = { s.c.chain with eni := false } ∧ u.c.regs = s.c.regs)) ∧
  (∀ (s : State) (r : Requester), wayFree s r → takesWrite s r Pg.CHAIN Reg.CHAIN_CMD →
    exec (.clrAddr r) s = .next (fin ((posted s r).updC fun c => { c with chain := { c.chain with addr := 0, eno := false } })))) ∧
  (
  ∀ (s : State) (r : Requester), wayFree s r →
    let a := rf s.c.regs Pg.CHAIN Reg.CHAIN_WIN_ADDR 25 2 * 4
    let next := w32 ((a + 4) % 2 ^ 26)
    (∀ v : Word, unitOn s.c.regs Pg.CHAIN = true → seqBlocked s = false → a < 0x800000 →
      ∃ u q, exec (.winData r (some v)) s = .next (fin u) ∧
      rd u.c.regs Pg.CHAIN Reg.CHAIN_WIN_ADDR = next ∧ u.c.bezel.seq = s.c.bezel.seq + 1 ∧
      q.seq = s.c.bezel.seq ∧ q.lt = s.c.lt ∧ q.inp = .cellWrite r a (leBytes 4 v.toNat) ∧
      (s.c.bezel.receives .a = true → u.a.inq = s.a.inq ++ [q]) ∧ (s.c.bezel.receives .b = true → u.b.inq = s.b.inq ++ [q]) ∧
      u.c.lt = s.c.lt) ∧
    (∀ v : Word, unitOn s.c.regs Pg.CHAIN = true → 0x800000 ≤ a → exec (.winData r (some v)) s = .next (fin (winStep (posted s r)))) ∧
    (∀ v : Word, unitOn s.c.regs Pg.CHAIN = false → exec (.winData r (some v)) s = .next (fin (posted s r))) ∧
    (unitOn s.c.regs Pg.CHAIN = true → s.c.bezel.hold = none → ∃ u, exec (.winData r none) s = .next (fin u) ∧ sameSides s u ∧
      rd u.c.regs Pg.CHAIN Reg.CHAIN_WIN_ADDR = next ∧ u.c.lastRead = some (r, bar2Read s a) ∧ u.c.bezel = s.c.bezel) ∧
    (s.c.bezel.hold.isSome = true → exec (.winData r none) s = .next (fin (s.updZ fun z =>
      { z with winReads := z.winReads ++ [(r, regAddr r Pg.CHAIN Reg.CHAIN_WIN_DATA)] }))))

/-- ETH_FRAME_RX, VID_MAP_WRITE, ETH_TX_COMPLETE, ETH_LINK_CHANGE (R505 to R509, table of the receive steps): a frame is dropped
with its count or is one input with its class and tenant, by the settings in force before the present cycle's writes; a VID
already mapped is refused; a frame sent completes with its number, and a link that falls ends the frames held as ABORTED. Where
the spec is silent a clause follows the model's choice, log entry 93. -/
def Obligations.EthernetPorts : Prop :=
  (∀ c : Commons, c.writes.lt ≠ c.lt → ethInForce c = c.regs) ∧
  (∀ (s : State) (second : Bool) (fr : List Byte) (ok : Bool) (ts : Nat), ethRuns s second = true →
    let k : Commons := { s.c with regs := ethInForce s.c }
    unitOn k.regs (ethPage second) = true → rb k.regs (ethPage second) Reg.ETH_MODE 4 = true →
    let bs := fr.take (fr.length - 4)
    let i : Instr := .ethFrameRx second fr ok ts
    let dropped (off : Nat) : Prop := exec i s = .next (fin (s.bumpC (ethPage second) off))
    let good := ok = true ∧ fr.length ≤ ethMtu k second
    (¬ good → dropped Reg.ETH_RX_BAD) ∧
    (good → ethDest k second bs = false → dropped Reg.ETH_RX_FILT) ∧
    (good → ethDest k second bs = true → ethTenant k second bs = none → dropped Reg.ETH_RX_VID) ∧
    (∀ t off, good → ethDest k second bs = true → ethTenant k second bs = some t → ethClass k second bs = .error off →
      dropped off) ∧
    (∀ t cls, good → ethDest k second bs = true → ethTenant k second bs = some t → ethClass k second bs = .ok cls →
      (65536 < ethWaiting s second + bs.length → dropped Reg.ETH_RX_OVERRUN) ∧
      (cls ≠ 0 → ethWaiting s second + bs.length ≤ 65536 → exec i s =
        .next (fin ((s.bumpC (ethPage second) Reg.ETH_RX_OK).offer (ethSource second)
          (.ethFrame { second := second, cls := cls, tenant := t, ts := 0, bytes := bs })))))) ∧
  (∀ (s : State) (r : Requester) (second : Bool) (v : Word), wayFree s r → takesWrite s r (ethPage second) Reg.ETH_VID_MAP →
    let t := rf s.c.regs (ethPage second) Reg.ETH_VID_IDX 9 0
    let vid := fld v 11 0
    (bitOf v 15 = true → (∃ o, vidTenant s.c second vid = some o ∧ o ≠ t) ∨ vid = 0 ∨ vid = 4095 →
      exec (.vidMapWrite r second v) s = .next (fin ((posted s r).updC fun c => c.err (ethPage second) 0))) ∧
    (bitOf v 15 = false ∨ (∀ o, vidTenant s.c second vid = some o → o = t) ∧ vid ≠ 0 ∧ vid ≠ 4095 →
      ∃ u, exec (.vidMapWrite r second v) s = .next (fin u) ∧ onlyRegs (posted s r) u ∧
        setsReg (ethPage second) Reg.ETH_VID_MAP t (w32 (vid + (if bitOf v 15 then 0x8000 else 0))) (posted s r).c.regs u.c.regs)) ∧
  (∀ (s : State) (second : Bool) (ts id : Nat) (bs : List Byte) (rest : List (Nat × List Byte)), ethRuns s second = true →
    rb s.c.regs (ethPage second) Reg.ETH_MODE 3 = true → (s.c.eth second).tx = (id, bs) :: rest → ptpOf bs = none →
    exec (.ethTxComplete second ts) s = .next (fin (((s.updC fun c => c.updEth second fun e => { e with tx := rest }).bumpC
      (ethPage second) Reg.ETH_TX_OK).offer .units (.ethDone second id 0 0)))) ∧
  (∀ (s : State) (second : Bool) (speed : Nat), s.variant.full = true ∨ second = false → commonsUp s = true →
    (∃ u, exec (.ethLinkChange second true speed) s = .next (fin u) ∧ sameSides s u ∧ u.c.regs = s.c.regs ∧
      u.c.eth second = { s.c.eth second with up := true, speed := speed % 4 } ∧ u.c.eth (!second) = s.c.eth (!second)) ∧
    ((s.c.eth second).tx = [] → ∃ u, exec (.ethLinkChange second false speed) s = .next (fin u) ∧ sameSides s u ∧
      u.c.regs = s.c.regs ∧ u.c.eth second = { up := false, speed := 0, tx := [] }) ∧
    (∀ id bs, (s.c.eth second).tx = [(id, bs)] → ∃ t, exec (.ethLinkChange second false speed) s =
        .next (fin (t.offer .units (.ethDone second id 7 0))) ∧ sameSides s t ∧
      t.c.eth second = { up := false, speed := 0, tx := [] } ∧
      setsReg (ethPage second) Reg.ETH_TX_LINKDOWN 0 (oneMore (rd s.c.regs (ethPage second) Reg.ETH_TX_LINKDOWN))
        s.c.regs t.c.regs))

/-- HBOOT_DATA and HBOOT_GO (R561): the boot port's words fill the image at HBOOT_ADDR, which moves on by 4, and GO lets each side
that stands at step 4 verify it; another port's writes are only counted. IMAGE_VERIFY_DONE (R357, R557, R560, R561): at step 4 the
slot of BOOT_SEL is tried first and then the other; the side starts on the first that verifies, and fails to boot when neither
does, which leaves the first grant to the other side; from a host source it verifies the image written once GO was given. Where
the spec is silent a clause follows the model's choice, log entry 8. -/
def Obligations.HostBootAndImages : Prop :=
  (
  (∀ (s : State) (r : Requester) (v : Word), wayFree s r → takesWrite s r Pg.RST Reg.RST_HBOOT_DATA →
    let a := rf s.c.regs Pg.RST Reg.RST_HBOOT_ADDR 20 2 * 4
    (bootPort s = some r → exec (.hbootData r v) s = .next (fin (((posted s r).updSys fun y =>
      { y with hboot := putBytes y.hboot a (leBytes 4 v.toNat) }).updR fun t =>
        wr t Pg.RST Reg.RST_HBOOT_ADDR (w32 ((a + 4) % 2 ^ 21))))) ∧
    (bootPort s ≠ some r → exec (.hbootData r v) s = .next (fin ((posted s r).bumpC Pg.RST Reg.RST_HBOOT_REJ)))) ∧
  (∀ (s : State) (r : Requester), wayFree s r → takesWrite s r Pg.RST Reg.RST_HBOOT_GO →
    (bootPort s = some r → exec (.hbootGo r) s = .next (fin ((posted s r).updSys fun y =>
      { y with hbootA := y.hbootA || atStep4 s .a, hbootB := y.hbootB || atStep4 s .b }))) ∧
    (bootPort s ≠ some r → exec (.hbootGo r) s = .next (fin ((posted s r).bumpC Pg.RST Reg.RST_HBOOT_REJ))))) ∧
  (
  ∀ (s : State) (x : SideId) (ok : Bool), let d := s.side x
    let n := d.mram.bootSel
    let starts (u : State) (run : Nat) : Prop := u.c.sys.boot x = 1 ∧ u.c.bezel.st x = .boot ∧ (u.side x).fw.run = run ∧
      u.side x.other = s.side x.other ∧ u.c.lt = s.c.lt ∧ u.c.regs = s.c.regs
    let fails (u : State) : Prop := u.c.sys.boot x = 2 ∧ u.c.bezel.st x = .off ∧ counts Pg.RST Reg.RST_BOOT_FAILS s.c.regs u.c.regs ∧
      u.side x.other = s.side x.other
    (atStep4 s x = false → exec (.imageVerifyDone x ok) s = .next (fin s)) ∧
    (atStep4 s x = true → bootSource s = 0 → s.c.bezel.refill = none → (s.variant.full = true ∨ d.fw.phase ≠ 2) → n < 2 →
      (nbit d.fw.tried n = false → d.slotGood n ok = true →
        ∃ u, exec (.imageVerifyDone x ok) s = .next (fin u) ∧ starts u n) ∧
      (nbit d.fw.tried n = false → nbit d.fw.tried (1 - n) = false → d.slotGood n ok = false →
        ∃ u, exec (.imageVerifyDone x ok) s = .next (fin u) ∧ u.c.sys.boot x = s.c.sys.boot x ∧ u.c.bezel = s.c.bezel ∧
          nbit (u.side x).fw.tried n = true ∧ nbit (u.side x).fw.bootFail n = true ∧ u.side x.other = s.side x.other) ∧
      (nbit d.fw.tried n = true → nbit d.fw.tried (1 - n) = false →
        (d.slotGood (1 - n) ok = true → ∃ u, exec (.imageVerifyDone x ok) s = .next (fin u) ∧ starts u (1 - n)) ∧
        (d.slotGood (1 - n) ok = false → ∃ u, exec (.imageVerifyDone x ok) s = .next (fin (tryGrant u)) ∧ fails u))) ∧
    (atStep4 s x = true → bootSource s ≠ 0 → s.c.bezel.refill = none →
      let waits := match x with
        | .a => s.c.sys.hbootA
        | .b => s.c.sys.hbootB
      (waits = false → ∃ u, exec (.imageVerifyDone x ok) s = .next (fin (if s.c.sys.boot x = 2 then tryGrant u else u)) ∧
        u.a = s.a ∧ u.b = s.b ∧ u.c = { s.c with sys := { s.c.sys with step := max s.c.sys.step 4 } }) ∧
      (waits = true → d.fwVerifies s.c.sys.hboot = true → ∃ u, exec (.imageVerifyDone x ok) s = .next (fin u) ∧ starts u 2) ∧
      (waits = true → d.fwVerifies s.c.sys.hboot = false → ∃ u, exec (.imageVerifyDone x ok) s = .next (fin (tryGrant u)) ∧
        fails u)))

/-- PD_REQUEST (R518 to R521): a write without GO only stores the target; a full queue refuses with FULL; a request whose check
fails ends at once with the reason and the domain that failed, and one that finds every domain in its target ends OK. A domain to
lower first begins to quiesce; the order is that of R520. Where the spec is silent a clause follows the model's choice, log entry
32. -/
def Obligations.PowerRequests : Prop :=
  ∀ (s : State) (r : Requester) (v : Word), wayFree s r → takesWrite s r Pg.PD Reg.PD_REQ_CMD →
    let t := (posted s r).updR fun t => wr t Pg.PD Reg.PD_REQ_CMD (w32 (fld v 1 0))
    let mask := (rd s.c.regs Pg.PD Reg.PD_REQ_MASK0).toNat + (rd s.c.regs Pg.PD Reg.PD_REQ_MASK1).toNat * 2 ^ 32 +
      (rd s.c.regs Pg.PD Reg.PD_REQ_MASK2).toNat * 2 ^ 64
    let q : PdReq := { mask := mask, target := fld v 1 0, byHost := true, wake := none, lt := s.c.lt }
    (bitOf v 4 = false → exec (.pdRequest r v) s = .next (fin t)) ∧
    (bitOf v 4 = true → 8 ≤ s.c.pd.queue.length → ∃ u, exec (.pdRequest r v) s = .next (fin u) ∧
      u.c.pd = { s.c.pd with result := 7 } ∧ rd u.c.regs Pg.PD Reg.PD_REQ_REFUSED = oneMore (rd t.c.regs Pg.PD Reg.PD_REQ_REFUSED)) ∧
    (bitOf v 4 = true → s.c.pd.queue = [] → s.c.pd.run = none → s.c.pd.susp = none →
      (∀ reason n, pdCheck t q = some (reason, n) → ∃ u, exec (.pdRequest r v) s = .next (fin u) ∧
        u.c.pd.refuse = some (n, reason) ∧ u.c.pd.result = reason ∧ u.c.pd.run = none ∧ u.c.pd.queue = [] ∧
        u.c.pd.doms = s.c.pd.doms ∧ rb u.c.regs Pg.PD Reg.HDR_EVT_STAT 0 = true) ∧
      (pdCheck t q = none → pdOrder t q = [] → s.c.pd.scan = [] → ∃ u, exec (.pdRequest r v) s = .next (fin u) ∧
        u.c.pd.result = 0 ∧ u.c.pd.run = none ∧ u.c.pd.doms = s.c.pd.doms ∧
        rd u.c.regs Pg.PD Reg.PD_REQ_OK = oneMore (rd t.c.regs Pg.PD Reg.PD_REQ_OK)) ∧
      (∀ n st rest, pdCheck t q = none → pdOrder t q = (n, st) :: rest → st.rank < (domState s n).rank →
        ∃ u, exec (.pdRequest r v) s = .next (fin u) ∧ u.c.pd = { s.c.pd with
          run := some { req := q, todo := (n, st) :: rest, done := [], step := 1, rails := [], since := s.c.lt, undo := none,
                        woken := false, restoring := false } }))

/-- QUIESCE_DONE, QUIESCE_TIMEOUT, PMB_ACK, PMB_TIMEOUT (R522 to R524, R541, table "Entry sequence"): for the last domain of a
request to be lowered: quiesced, it takes its state at once or after its rail's acknowledgement, and the request ends; not
quiesced in time it refuses with BUSY; a rail without acknowledgement is restored, and without that too the domain has a FAULT.
RETENTION_SCAN_DONE (R530, R531): the scan of a side ends; what was corrected is counted, and a bank found LOST has its bit, the
error and the wake unit's mark. A side with nothing to scan changes nothing. Where the spec is silent a clause follows the model's
choice, log entry 94. -/
def Obligations.DomainsAndScans : Prop :=
  (
  (∀ s : State, s.c.pd.run = none → exec .quiesceDone s = .next (fin s) ∧ exec .quiesceTimeout s = .next (fin s) ∧
    exec .pmbTimeout s = .next (fin s) ∧ ∀ status, exec (.pmbAck status) s = .next (fin s)) ∧
  (∀ (s : State) (r : PdRun) (n : Nat) (st : DomSt), s.c.pd.run = some r → r.todo = [(n, st)] → r.restoring = false →
    st.rank < (domState s n).rank → s.c.pd.queue = [] → s.c.pd.susp = none → s.c.pd.scan = [] →
    let result := r.undo.getD (if r.woken then 8 else 0)
    let arrives (u : State) : Prop := u.c.pd.dom n = st ∧ (∀ k, k ≠ n → u.c.pd.dom k = s.c.pd.dom k) ∧ u.c.pd.run = none ∧
      u.c.pd.result = result
    let limit := 1000000 * (clampNat 1 255 (rf s.c.regs Pg.PD Reg.PD_QUIESCE_TO 7 0))
    (r.step = 1 → quiesced s n = false → exec .quiesceDone s = .next (fin s)) ∧
    (r.step = 1 → quiesced s n = true → railsFor s n st = [] →
      ∃ u, exec .quiesceDone s = .next (fin u) ∧ arrives u ∧ u.c.lt = s.c.lt) ∧
    (∀ k l ks, r.step = 1 → quiesced s n = true → railsFor s n st = (k, l) :: ks →
      ∃ u, exec .quiesceDone s = .next (fin u) ∧ (u.pmbOf (k / 4)).rail = some (k % 4) ∧
        u.c.pd = { s.c.pd with run := some { r with step := 5, rails := (k, l) :: ks, since := s.c.lt } }) ∧
    (r.step = 1 → s.c.lt < r.since + limit → exec .quiesceTimeout s = .next (fin s)) ∧
    (r.step = 1 → r.since + limit ≤ s.c.lt → r.done = [] → r.undo = none →
      ∃ u, exec .quiesceTimeout s = .next (fin u) ∧ u.c.pd.refuse = some (n, 5) ∧ u.c.pd.result = 5 ∧ u.c.pd.run = none ∧
        u.c.pd.doms = s.c.pd.doms) ∧
    (∀ k l status, r.step = 5 → r.rails = [(k, l)] → (s.pmbOf (k / 4)).raw = none → l ≤ 2 → k < 12 →
      (railAcked l status = true → ∃ u, exec (.pmbAck status) s = .next (fin u) ∧ arrives u ∧ u.c.pd.rail k = l ∧
        (u.pmbOf (k / 4)).rail = none) ∧
      (railAcked l status = false → ∃ u, exec (.pmbAck status) s = .next (fin u) ∧ u.c.pd = s.c.pd ∧ u.c.regs = s.c.regs ∧
        ((u.pmbOf (k / 4)).status.find (k % 4)) = some (status % 65536))) ∧
    (∀ k l ks, r.step = 5 → r.rails = (k, l) :: ks →
      let wait := 1000 * (clampNat 100 50000 (fld (s.pmbReg (k / 4) Reg.PMB_TIMEOUT) 15 0))
      (s.c.lt < r.since + wait → exec .pmbTimeout s = .next (fin s)) ∧
      (r.since + wait ≤ s.c.lt → ∃ u, exec .pmbTimeout s = .next (fin u) ∧
        u.c.pd = { s.c.pd with run := some { r with restoring := true, since := s.c.lt } } ∧
        rb u.c.regs Pg.PD Reg.HDR_ERR_STICKY 1 = true))) ∧
  (∀ (s : State) (r : PdRun) (n k l : Nat) (st : DomSt) (ks : List (Nat × Nat)), s.c.pd.run = some r → r.todo = [(n, st)] →
    r.restoring = true → r.step = 5 → r.rails = (k, l) :: ks → r.done = [] → r.undo = none → st.rank < (domState s n).rank →
    s.c.pd.queue = [] → s.c.pd.susp = none → s.c.pd.scan = [] →
    r.since + 1000 * (clampNat 100 50000 (fld (s.pmbReg (k / 4) Reg.PMB_TIMEOUT) 15 0)) ≤ s.c.lt →
    ∃ u, exec .pmbTimeout s = .next (fin u) ∧ n ∈ u.c.pd.faults ∧ u.c.pd.dom n = st ∧ u.c.pd.run = none ∧ u.c.pd.result = 6 ∧
      rb u.c.regs Pg.PD Reg.HDR_ERR_STICKY 2 = true)) ∧
  (
  ∀ (s : State) (x : SideId) (lostBanks : Nat) (locketLost : Bool) (corrected : Nat),
    let i : Instr := .retentionScanDone x lostBanks locketLost corrected
    let base := if x = .a then 32 else 64
    let reg := if x = .a then Reg.PD_LOST_A else Reg.PD_LOST_B
    let ecc := if x = .a then Reg.ERR_ECC_CORR_A else Reg.ERR_ECC_CORR_B
    ((∀ n ∈ s.c.pd.scan, domSide n ≠ some x) → exec i s = .next (fin s)) ∧
    (∀ n, n ∈ s.c.pd.scan → domSide n = some x → s.c.pd.run = none → s.c.pd.queue = [] → s.c.pd.susp = none →
      ∃ u, exec i s = .next (fin u) ∧ u.c.pd.scan = s.c.pd.scan.filter (fun n => !decide (domSide n = some x)) ∧
        rd u.c.regs Pg.ERR ecc = w32 (min (2 ^ 32 - 1) ((rd s.c.regs Pg.ERR ecc).toNat + corrected)) ∧
        ∀ b, b < 24 → nbit lostBanks b = true → base + b ∈ s.c.pd.scan →
          rb u.c.regs Pg.PD reg b = true ∧ rb u.c.regs Pg.PD Reg.HDR_ERR_STICKY 0 = true ∧ rb u.c.regs Pg.WAKE Reg.WAKE_STAT 2 = true))

/-- WAKE, WAKE_I2C_MATCH, WAKE_GO, INT_CLR (R533 to R537): a selected wake is counted and is a request for on with the mask of its
profile; with nothing to raise it ends OK, a domain that is off is raised, and a refused one sets the other bit of STAT. The I2C
target answers its address only, and keeps a bit of STATUS that is set in the cycle of its clearing (R11). RAW_CMD, RAW_DONE,
PMB_ALERT (R542, R543): a raw command with GO starts on a port without one, or is denied where it would change an enabled rail;
its end gives the result; an alert is counted and is an event of its page. Where the spec is silent a clause follows the model's
choice, log entries 94 and 95. -/
def Obligations.WakesAndRawTransactions : Prop :=
  (
  let woken (s : State) (i : Instr) (src profile : Nat) : Prop :=
    let m (j : Nat) : Nat := (rdI s.c.regs Pg.WAKE (Reg.WAKE_PROF_MASK + 4 * j) profile).toNat
    let q : PdReq := { mask := m 0 + m 1 * 2 ^ 32 + m 2 * 2 ^ 64, target := 0, byHost := true, wake := some src, lt := s.c.lt }
    let t := s.bumpC Pg.WAKE Reg.WAKE_WAKES
    (pdCheck t q = none → pdOrder t q = [] → ∃ u, exec i s = .next (fin u) ∧ counts Pg.WAKE Reg.WAKE_WAKES s.c.regs u.c.regs ∧
      u.c.pd.result = 0 ∧ u.c.pd.doms = s.c.pd.doms ∧ rb u.c.regs Pg.WAKE Reg.WAKE_STAT 0 = true) ∧
    (∀ n, pdCheck t q = none → pdOrder t q = [(n, .on)] → domState s n = .off → railsFor t n .on = [] →
      ∃ u, exec i s = .next (fin u) ∧ counts Pg.WAKE Reg.WAKE_WAKES s.c.regs u.c.regs ∧ u.c.pd.dom n = .on ∧
        u.c.pd.run = none ∧ u.c.pd.result = 0 ∧ rb u.c.regs Pg.WAKE Reg.WAKE_STAT 0 = true) ∧
    (∀ reason n, pdCheck t q = some (reason, n) → reason ≠ 0 → ∃ u, exec i s = .next (fin u) ∧
      counts Pg.WAKE Reg.WAKE_WAKES s.c.regs u.c.regs ∧ u.c.pd.refuse = some (n, reason) ∧ u.c.pd.doms = s.c.pd.doms ∧
      rb u.c.regs Pg.WAKE Reg.WAKE_STAT 1 = true)
  (∀ (s : State) (n : Nat), let v := rd s.c.regs Pg.WAKE (Reg.WAKE_SRC_CFG + 4 * n)
    (8 ≤ n ∨ fld v 1 0 = 0 ∨ unitOn s.c.regs Pg.WAKE = false → exec (.wake n) s = .next (fin s)) ∧
    (n < 8 → fld v 1 0 ≠ 0 → unitOn s.c.regs Pg.WAKE = true → s.c.pd.run = none → s.c.pd.queue = [] → s.c.pd.susp = none →
      s.c.pd.scan = [] → woken s (.wake n) n (fld v 18 16))) ∧
  (∀ (s : State) (addr : Nat),
    (wakeI2c s.c = true → addr = wakeAddr s.c → ∃ u, exec (.wakeI2cMatch addr) s = .next (fin u) ∧ sameSides s u ∧
      u.c.pd = { s.c.pd with i2cStretch := true, i2cPtr := 0 } ∧
      setsReg Pg.WAKE Reg.WAKE_I2C_MATCH 0 (oneMore (rd s.c.regs Pg.WAKE Reg.WAKE_I2C_MATCH)) s.c.regs u.c.regs) ∧
    (wakeI2c s.c = false ∨ addr ≠ wakeAddr s.c → exec (.wakeI2cMatch addr) s = .next (fin s))) ∧
  (∀ (s : State) (v : Nat),
    (wakeI2c s.c = false ∨ s.c.pd.i2cStretch = false →
      exec (.wakeGo v) s = .next (fin s) ∧ exec (.intClr v) s = .next (fin s)) ∧
    (wakeI2c s.c = true → s.c.pd.i2cStretch = true →
      (nbit v 7 = false → exec (.wakeGo v) s = .next (fin (s.updPd fun p => { p with i2cPtr := 3 }))) ∧
      (nbit v 7 = true → s.c.pd.run = none → s.c.pd.queue = [] → s.c.pd.susp = none → s.c.pd.scan = [] →
        woken s (.wakeGo v) 8 (v % 8)) ∧
      exec (.intClr v) s = .next (fin ((s.updPd fun p => { p with i2cPtr := 4 }).updR fun t =>
        wr t Pg.WAKE Reg.WAKE_STAT (rd t Pg.WAKE Reg.WAKE_STAT &&& ~~~(s.c.clears Pg.WAKE Reg.WAKE_STAT (w32 (v % 8))))))))) ∧
  (
  (∀ (s : State) (r : Requester) (v : Word), wayFree s r → takesWrite s r Pg.PMB Reg.PMB_RAW_CMD →
    let w := v &&& 0xB7FF#32
    let t := (posted s r).updR fun t => wr t Pg.PMB Reg.PMB_RAW_CMD (v &&& 0x37FF#32)
    (bitOf v 15 = false ∨ s.c.pmb.raw.isSome = true → exec (.rawCmd r Pg.PMB v) s = .next (fin t)) ∧
    (bitOf v 15 = true → s.c.pmb.raw = none → rawDenied t 0 w = true → exec (.rawCmd r Pg.PMB v) s =
      .next (fin (t.updC fun c => { c with pmb := { c.pmb with rawStat := 8 } }))) ∧
    (bitOf v 15 = true → s.c.pmb.raw = none → rawDenied t 0 w = false → exec (.rawCmd r Pg.PMB v) s =
      .next (fin (t.updC fun c =>
        { c with pmb := { c.pmb with raw := some ((v &&& 0x37FF#32).toNat, bitOf v 10), rawStat := 0 } })))) ∧
  (∀ (s : State) (x : SideId) (v : Word), ownWay s x → bitOf v 15 = true → (s.side x).pmb.raw = none →
    ∃ u, exec (.rawCmd (.core x) Pg.SPMB v) s = .next (fin u) ∧ onlySide x s u ∧
      (rawDenied s x.num (v &&& 0xB7FF#32) = true → (u.side x).pmb = { (s.side x).pmb with rawStat := 8 }) ∧
      (rawDenied s x.num (v &&& 0xB7FF#32) = false → (u.side x).pmb =
        { (s.side x).pmb with raw := some ((v &&& 0x37FF#32).toNat, bitOf v 10), rawStat := 0 })) ∧
  (∀ (s : State) (page owner : Nat) (nak pecErr : Bool) (data : Nat), pmbOwner s.variant page = some owner →
    ((s.pmbOf owner).raw = none ∨ (s.pmbOf owner).rail.isSome = true →
      exec (.rawDone page nak pecErr data) s = .next (fin s)) ∧
    (∀ w read, (s.pmbOf owner).raw = some (w, read) → (s.pmbOf owner).rail = none →
      ∃ u, exec (.rawDone page nak pecErr data) s = .next (fin u) ∧ (u.pmbOf owner).raw = none ∧
        (u.pmbOf owner).rawStat = 1 + 2 * b2n nak + 4 * b2n pecErr ∧ u.c.lt = s.c.lt ∧ u.c.pd = s.c.pd ∧
        (read = true → nak = false → u.pmbReg owner Reg.PMB_RAW_DATA = w32 (data % 2 ^ (8 * min (fld (w32 w) 9 8) 2))) ∧
        (nak = true → u.pmbReg owner Reg.PMB_NAKS = oneMore (s.pmbReg owner Reg.PMB_NAKS))) ∧
    (∃ u, exec (.pmbAlert page) s = .next (fin u) ∧ u.pmbReg owner Reg.PMB_ALERTS = oneMore (s.pmbReg owner Reg.PMB_ALERTS) ∧
      bitOf (u.pmbReg owner Reg.HDR_EVT_STAT) 0 = true ∧ u.c.pd = s.c.pd ∧ u.c.lt = s.c.lt)) ∧
  (∀ (s : State) (page : Nat), pmbOwner s.variant page = none → ∀ nak pecErr data,
    exec (.rawDone page nak pecErr data) s = .next (fin s) ∧ exec (.pmbAlert page) s = .next (fin s)))

/-- PORST_ASSERT, PORST_RELEASE, WRST, WARM (R253, R308, R551 to R557): PORST resets the whole part but MRAM and the bank
supplies; its release samples the straps and starts both sides; a warm reset keeps LT, the sequence number and the straps and
starts them again. Tamper checks that do not pass leave the sides without a root; otherwise the root is reconstructed from the PUF
response and the helper data, valid if its check value is the stored one, or kept over a warm reset. SIDE_RESET (R432, R551, R553,
R554): refused for the side that alone holds the lease; a compared side's reset is a mismatch with SIDE_ERR; a side out of service
restarts, and the other side keeps everything. Where the spec is silent a clause follows the model's choice, log entries 10, 23
and 80. -/
def Obligations.Resets : Prop :=
  (
  let starts (u : State) : Prop := u.c.bezel.stA = .boot ∧ u.c.sys.boot .a = 0 ∧ u.a.inq = [] ∧ u.a.outq = [] ∧
    u.c.clasp.holder = none ∧ u.c.sys.commonsEn = false ∧ u.c.sys.porstLow = false
  let blocked (s : State) (tamper : Nat) : Prop :=
    tamper % 128 &&& rf s.c.regs Pg.TAMP Reg.TAMP_SRC_EN 6 0 ≠ 0 ∨ rd s.c.regs Pg.TAMP Reg.TAMP_CAUSE ≠ 0
  let restarts (s : State) (tamper : Nat) (o : Host.Outcome State Fault Refusal) : Prop :=
    ∃ u, o = .next (fin u) ∧ starts u ∧ sameMachine s u ∧ u.c.lt = s.c.lt ∧ u.c.bezel.seq = s.c.bezel.seq ∧
      u.c.sys.straps = s.c.sys.straps ∧ u.a.mram.boots = s.a.mram.boots + 1 ∧
      counts Pg.RST Reg.RST_WARM_RESETS s.c.regs u.c.regs ∧ rb u.c.regs Pg.RST Reg.RST_CAUSE 1 = true ∧
      u.c.clasp.token = 0 ∧ (s.variant.full = true → u.c.bezel.stB = .boot) ∧
      (¬ blocked s tamper → s.a.key.keyless = false → s.c.pd.dom (locketDomain .a) ≠ .off → u.a.key.root = s.a.key.root)
  (∀ s : State, ∃ u, exec .porstAssert s = .next (fin u) ∧ sameMachine s u ∧
    u.c = { Commons.reset with sys := { SysState.reset with banksUp := s.c.sys.banksUp }, jtag := s.c.jtag } ∧
    u.a = { Side.reset with mram := s.a.mram } ∧ u.b = { Side.reset with mram := s.b.mram }) ∧
  (∀ (s : State) (straps tamper : Nat),
    (s.c.sys.porstLow = false → exec (.porstRelease straps tamper) s = .next (fin s)) ∧
    (s.c.sys.porstLow = true → s.c.clasp.holder = none → s.c.sys.commonsEn = false →
      ∃ u, exec (.porstRelease straps tamper) s = .next (fin u) ∧ starts u ∧ sameMachine s u ∧ u.c.sys.straps = straps % 64 ∧
        u.c.lt = 0 ∧ u.c.time.unsync = true ∧ u.c.sys.step = max s.c.sys.step 3 ∧ u.c.clasp.grantDue = some (grantWaitNs s.c) ∧
        (s.variant.full = true → u.c.bezel.stB = .boot) ∧
        (blocked s tamper → u.a.key.root = none ∧ u.a.key.keyless = true ∧ u.c.tamp.keylessBoot = true) ∧
        (¬ blocked s tamper → s.c.tamp.opened.isSome = true → u.a.key.root = some testRoot) ∧
        (¬ blocked s tamper → s.c.tamp.opened = none → s.a.mram.helper = none →
          u.a.key.root = none ∧ u.a.key.keyless = true ∧ u.a.key.rootFail = true) ∧
        (∀ h, ¬ blocked s tamper → s.c.tamp.opened = none → s.a.mram.helper = some h →
          let m := pufMessages .a s.a.mram.pufUps h
          let root := majorityRoot m.1
          u.a.key.maxErr = m.2 ∧ u.a.key.puf = none ∧
          (Config.rootCheck root % 2 ^ 32 = h.check → u.a.key.root = some root ∧ u.a.key.keyless = false) ∧
          (Config.rootCheck root % 2 ^ 32 ≠ h.check → u.a.key.root = none ∧ u.a.key.keyless = true ∧ u.a.key.rootFail = true)))) ∧
  (∀ (s : State) (tamper : Nat),
    (s.c.sys.porstLow = true → exec (.wrst tamper) s = .next (fin s)) ∧
    (s.c.sys.porstLow = false → restarts s tamper (exec (.wrst tamper) s))) ∧
  (∀ (s : State) (r : Requester), wayFree s r → takesWrite s r Pg.RST Reg.RST_SIDE_CMD → s.c.sys.porstLow = false →
    restarts (posted s r) (posted s r).c.tamperActive (exec (.warm r) s))) ∧
  (
  ∀ (s : State) (r : Requester) (x : SideId), wayFree s r → takesWrite s r Pg.RST Reg.RST_SIDE_CMD →
    let p := posted s r
    let counted (u : State) : Prop := counts Pg.RST Reg.RST_SIDE_RESETS p.c.regs u.c.regs ∧
      rb u.c.regs Pg.RST Reg.RST_CAUSE (if x = .a then 2 else 3) = true ∧ u.c.lt = s.c.lt
    (s.variant.full = false → x = .b → exec (.sideReset r x) s = .next (fin p)) ∧
    (s.variant.full = true ∨ x = .a →
      (s.c.clasp.holder = some x → single s = true →
        exec (.sideReset r x) s = .next (fin (p.updC fun c => c.err Pg.RST 0))) ∧
      (s.variant.full = true → s.c.bezel.compares = true → s.c.bezel.held = false → ∃ u, exec (.sideReset r x) s = .next (fin u) ∧
        counted u ∧ u.c.bezel.lastCause = 4 ∧ u.c.bezel.stA = .selfCheck ∧ u.c.bezel.stB = .selfCheck ∧
        (u.c.bezel.hold.bind fun m => m.res x) = some false) ∧
      (s.c.clasp.holder ≠ some x → (s.c.bezel.st x = .off ∨ s.c.bezel.st x = .stopped) → ∃ u, exec (.sideReset r x) s = .next (fin u) ∧
        counted u ∧ u.c.bezel.st x = .boot ∧ u.c.sys.boot x = 0 ∧ (u.side x).inq = [] ∧ (u.side x).outq = [] ∧
        (u.side x).mram.boots = (s.side x).mram.boots + 1 ∧ u.side x.other = s.side x.other)))

/-- X32_SWITCH and CLOCK_LOSS (R549, R550, table "Clock loss"): AON takes the crystal unless RC_ONLY holds it; a lost clock is
recorded and stops what it drives: a side's PLL is a SIDE_ERR, PLL_C, PLL_RF and XTAL stop the commons, PLL_SDS and its reference
take the Ethernet links down, the PCIe reference the host links. GPIO_WRITE (R577, R578): a write changes the balls that its mask
names and its writer owns, and notes the others; a core's write is an output of its side. REPLICA_DISAGREE and RAIL_IN_RANGE
(R418, R570): one replica that differs is rewritten with the majority's value and counted; without a majority the lease is lost
and the commons are held. A bank supply in range is recorded, and while PORST_N is low its balls take their reset state. Where the
spec is silent a clause follows the model's choice, log entries 50 and 96. -/
def Obligations.ClocksPinsAndReplicas : Prop :=
  (
  (∀ s : State,
    (rb s.c.regs Pg.CLK Reg.CLK_X32_CFG 1 = true → exec .x32Switch s = .next (fin s)) ∧
    (rb s.c.regs Pg.CLK Reg.CLK_X32_CFG 1 = false →
      exec .x32Switch s = .next (fin { s with c := { s.c with sys := { s.c.sys with x32Rc := false } } }))) ∧
  (∀ (s : State) (c : ClockId),
    (s.c.sys.porstLow = true → exec (.clockLoss c) s = .next (fin s)) ∧
    (s.c.sys.porstLow = false →
      let unlock (n : Nat) (u : State) : Prop := nbit u.c.sys.pll n = false ∧
        counts Pg.CLK Reg.CLK_PLL_UNLOCK s.c.regs u.c.regs ∧ rb u.c.regs Pg.CLK Reg.HDR_ERR_STICKY 0 = true ∧ u.c.lt = s.c.lt
      let noLinks (u : State) : Prop := u.c.eth0.up = false ∧ u.c.eth1.up = false ∧ u.c.eth0.tx = [] ∧ u.c.eth1.tx = []
      (∀ x : SideId, c = (if x = .a then ClockId.pllA else ClockId.pllB) → s.variant.full = true → s.c.bezel.compares = true →
        s.c.bezel.held = false → ∃ u, exec (.clockLoss c) s = .next (fin u) ∧ unlock (x.num - 1) u ∧ u.c.bezel.lastCause = 4 ∧
          u.c.bezel.stA = .selfCheck ∧ u.c.bezel.stB = .selfCheck ∧ (u.c.bezel.hold.bind fun m => m.res x) = some false) ∧
      (c = .pllB → s.variant.full = false → exec (.clockLoss c) s = .next (fin s)) ∧
      (∀ n, c = .pllC ∧ n = 2 ∨ c = .pllRf ∧ n = 3 → ∃ u, exec (.clockLoss c) s = .next (fin u) ∧ unlock n u ∧
        u.c.sys.commonsStopped = true ∧ u.c.time.coarse = true ∧ u.c.time.lastFine = s.c.lt ∧ u.a = s.a ∧ u.b = s.b ∧ u.c.bezel = s.c.bezel) ∧
      (c = .pllSds → ∃ u, exec (.clockLoss c) s = .next (fin u) ∧ unlock 4 u ∧ noLinks u) ∧
      (c = .sdsRef → ∃ u, exec (.clockLoss c) s = .next (fin u) ∧ u.c.sys.sdsRef = false ∧ noLinks u ∧
        counts Pg.CLK Reg.CLK_REFCLK_LOSS s.c.regs u.c.regs ∧ rb u.c.regs Pg.CLK Reg.HDR_ERR_STICKY 3 = true) ∧
      (c = .pcieRef → ∃ u, exec (.clockLoss c) s = .next (fin u) ∧ u.c.sys.pcieRef = false ∧ u.c.hostA.up = false ∧
        (s.variant.full = true → u.c.hostB.up = false) ∧ counts Pg.CLK Reg.CLK_REFCLK_LOSS s.c.regs u.c.regs ∧
        rb u.c.regs Pg.CLK Reg.HDR_ERR_STICKY 2 = true) ∧
      (c = .xtal → s.c.time.xtalStopped = false → ∃ u, exec (.clockLoss c) s = .next (fin u) ∧ u.c.time.xtalStopped = true ∧
        u.c.sys.xtalOk = false ∧ u.c.sys.commonsStopped = true ∧ counts Pg.CLK Reg.CLK_XTAL_LOSS s.c.regs u.c.regs ∧
        u.c.time.lastFine = s.c.lt ∧ u.a = s.a ∧ u.b = s.b ∧ u.c.lt = s.c.lt)))) ∧
  (
  (∀ (s : State) (r : Requester) (dir : Bool) (v : Word), wayFree s r →
    takesWrite s r Pg.TPO (if dir then Reg.TPO_GPIO_DIR else Reg.TPO_GPIO_OUT) →
    ∃ u, exec (.gpioWrite r dir v) s = .next (fin u) ∧ sameSides s u ∧ u.c.regs = (posted s r).c.regs ∧
      (u.c = { (posted s r).c with sys := u.c.sys, freshAt := u.c.freshAt, fresh := u.c.fresh }) ∧
      ∀ n, n < 16 →
        let old := if dir then s.c.sys.gpioDir else s.c.sys.gpioOut
        let new := if dir then u.c.sys.gpioDir else u.c.sys.gpioOut
        let hosts := nbit (rf s.c.regs Pg.TPO Reg.TPO_GPIO_OWN 15 0) n = false
        (bitOf v (16 + n) = true → hosts → nbit new n = bitOf v n ∧ nbit u.c.sys.gpioIgn n = nbit s.c.sys.gpioIgn n) ∧
        (bitOf v (16 + n) = true → ¬ hosts → nbit new n = nbit old n ∧ nbit u.c.sys.gpioIgn n = true) ∧
        (bitOf v (16 + n) = false → nbit new n = nbit old n ∧ nbit u.c.sys.gpioIgn n = nbit s.c.sys.gpioIgn n) ∧
        (if dir then u.c.sys.gpioOut = s.c.sys.gpioOut else u.c.sys.gpioDir = s.c.sys.gpioDir)) ∧
  (∀ (s : State) (x : SideId) (dir : Bool) (v : Word), coresRun s x = true →
    exec (.gpioWrite (.core x) dir v) s =
      .next (fin (s.upd x fun d => d.emit (.pinWrite (if dir then Reg.TPO_GPIO_DIR else Reg.TPO_GPIO_OUT) v))))) ∧
  (
  (∀ (s : State) (n holder token expiry : Nat) (r : Replica), s.c.clasp.r0 = r → s.c.clasp.r1 = r → s.c.clasp.r2 = r → n < 3 →
    let bad : Replica := { holder := holder, token := token, expiry := expiry }
    (bad = r → exec (.replicaDisagree n holder token expiry) s = .next (fin s)) ∧
    (bad ≠ r → ∃ u, exec (.replicaDisagree n holder token expiry) s = .next (fin u) ∧ onlyRegs s u ∧
      setsReg Pg.CLASP Reg.CLASP_VOTE_FIX 0 (oneMore (rd s.c.regs Pg.CLASP Reg.CLASP_VOTE_FIX)) s.c.regs u.c.regs)) ∧
  (∀ (s : State) (holder token expiry : Nat),
    let bad : Replica := { holder := holder, token := token, expiry := expiry }
    s.c.clasp.r1 ≠ s.c.clasp.r2 → bad ≠ s.c.clasp.r1 → bad ≠ s.c.clasp.r2 →
    ∃ u, exec (.replicaDisagree 0 holder token expiry) s = .next (fin u) ∧ u.c.clasp.holder = none ∧ u.c.bezel.dead = true ∧
      rb u.c.regs Pg.CLASP Reg.HDR_ERR_STICKY 0 = true) ∧
  (∀ (s : State) (bank : Nat), ∃ u, exec (.railInRange bank) s = .next (fin u) ∧ sameSides s u ∧
    nbit u.c.sys.banksUp bank = true ∧ (∀ n, n ≠ bank → nbit u.c.sys.banksUp n = nbit s.c.sys.banksUp n) ∧
    u.c = { s.c with sys := u.c.sys } ∧
    (s.c.sys.porstLow = true → u.c.sys.gpioOut = 0 ∧ u.c.sys.gpioDir = 0 ∧ u.c.sys.feOut = 0) ∧
    (s.c.sys.porstLow = false → u.c.sys = { s.c.sys with banksUp := u.c.sys.banksUp })))
end

