-- ==== Sys2Proof/Laws/State.lean ====
section
/-! SUPPORT. What each update of the state, of the commons and of a side leaves of each field, by unfolding: so that no proof
unfolds a record update. -/

namespace Sys2Proof.Machine

open Sys2Proof

/-! ## The state -/

@[simp] theorem State.side_a (s : State) : s.side .a = s.a := rfl
@[simp] theorem State.side_b (s : State) : s.side .b = s.b := rfl
@[simp] theorem State.upd_pending (s : State) (x : SideId) (f : Side → Side) : (s.upd x f).pending = s.pending := by cases x <;> rfl
@[simp] theorem State.upd_variant (s : State) (x : SideId) (f : Side → Side) : (s.upd x f).variant = s.variant := by cases x <;> rfl
@[simp] theorem State.upd_c (s : State) (x : SideId) (f : Side → Side) : (s.upd x f).c = s.c := by cases x <;> rfl
@[simp] theorem State.upd_side (s : State) (x : SideId) (f : Side → Side) : (s.upd x f).side x = f (s.side x) := by cases x <;> rfl
@[simp] theorem State.upd_other (s : State) (x : SideId) (f : Side → Side) : (s.upd x f).side x.other = s.side x.other := by
  cases x <;> rfl
@[simp] theorem State.upd_a_a (s : State) (f : Side → Side) : (s.upd .a f).a = f s.a := rfl
@[simp] theorem State.upd_a_b (s : State) (f : Side → Side) : (s.upd .a f).b = s.b := rfl
@[simp] theorem State.upd_b_a (s : State) (f : Side → Side) : (s.upd .b f).a = s.a := rfl
@[simp] theorem State.upd_b_b (s : State) (f : Side → Side) : (s.upd .b f).b = f s.b := rfl

/-! updC -/

@[simp] theorem State.updC_pending (s : State) (f : Commons → Commons) : (s.updC f).pending = s.pending := rfl
@[simp] theorem State.updC_variant (s : State) (f : Commons → Commons) : (s.updC f).variant = s.variant := rfl
@[simp] theorem State.updC_a (s : State) (f : Commons → Commons) : (s.updC f).a = s.a := rfl
@[simp] theorem State.updC_b (s : State) (f : Commons → Commons) : (s.updC f).b = s.b := rfl
@[simp] theorem State.updC_c (s : State) (f : Commons → Commons) : (s.updC f).c = f s.c := rfl
@[simp] theorem State.updC_side (s : State) (f : Commons → Commons) (x : SideId) : (s.updC f).side x = s.side x := by cases x <;> rfl

/-! updR -/

@[simp] theorem State.updR_pending (s : State) (f : Tab Word → Tab Word) : (s.updR f).pending = s.pending := rfl
@[simp] theorem State.updR_variant (s : State) (f : Tab Word → Tab Word) : (s.updR f).variant = s.variant := rfl
@[simp] theorem State.updR_a (s : State) (f : Tab Word → Tab Word) : (s.updR f).a = s.a := rfl
@[simp] theorem State.updR_b (s : State) (f : Tab Word → Tab Word) : (s.updR f).b = s.b := rfl
@[simp] theorem State.updR_c (s : State) (f : Tab Word → Tab Word) : (s.updR f).c = { s.c with regs := f s.c.regs } := rfl
@[simp] theorem State.updR_side (s : State) (f : Tab Word → Tab Word) (x : SideId) : (s.updR f).side x = s.side x := by cases x <;> rfl

/-! updZ -/

@[simp] theorem State.updZ_pending (s : State) (f : BezelState → BezelState) : (s.updZ f).pending = s.pending := rfl
@[simp] theorem State.updZ_variant (s : State) (f : BezelState → BezelState) : (s.updZ f).variant = s.variant := rfl
@[simp] theorem State.updZ_a (s : State) (f : BezelState → BezelState) : (s.updZ f).a = s.a := rfl
@[simp] theorem State.updZ_b (s : State) (f : BezelState → BezelState) : (s.updZ f).b = s.b := rfl
@[simp] theorem State.updZ_c (s : State) (f : BezelState → BezelState) : (s.updZ f).c = { s.c with bezel := f s.c.bezel } := rfl
@[simp] theorem State.updZ_side (s : State) (f : BezelState → BezelState) (x : SideId) : (s.updZ f).side x = s.side x := by cases x <;> rfl

/-! updK -/

@[simp] theorem State.updK_pending (s : State) (f : ClaspState → ClaspState) : (s.updK f).pending = s.pending := rfl
@[simp] theorem State.updK_variant (s : State) (f : ClaspState → ClaspState) : (s.updK f).variant = s.variant := rfl
@[simp] theorem State.updK_a (s : State) (f : ClaspState → ClaspState) : (s.updK f).a = s.a := rfl
@[simp] theorem State.updK_b (s : State) (f : ClaspState → ClaspState) : (s.updK f).b = s.b := rfl
@[simp] theorem State.updK_c (s : State) (f : ClaspState → ClaspState) : (s.updK f).c = { s.c with clasp := f s.c.clasp } := rfl
@[simp] theorem State.updK_side (s : State) (f : ClaspState → ClaspState) (x : SideId) : (s.updK f).side x = s.side x := by cases x <;> rfl

/-! bumpC -/

@[simp] theorem State.bumpC_pending (s : State) (page off : Nat) : (s.bumpC page off).pending = s.pending := rfl
@[simp] theorem State.bumpC_variant (s : State) (page off : Nat) : (s.bumpC page off).variant = s.variant := rfl
@[simp] theorem State.bumpC_a (s : State) (page off : Nat) : (s.bumpC page off).a = s.a := rfl
@[simp] theorem State.bumpC_b (s : State) (page off : Nat) : (s.bumpC page off).b = s.b := rfl
@[simp] theorem State.bumpC_c (s : State) (page off : Nat) : (s.bumpC page off).c = { s.c with regs := bump s.c.regs page off } := rfl
@[simp] theorem State.bumpC_side (s : State) (page off : Nat) (x : SideId) : (s.bumpC page off).side x = s.side x := by cases x <;> rfl

/-! event -/

@[simp] theorem State.event_pending (s : State) (page bit : Nat) : (s.event page bit).pending = s.pending := rfl
@[simp] theorem State.event_variant (s : State) (page bit : Nat) : (s.event page bit).variant = s.variant := rfl
@[simp] theorem State.event_a (s : State) (page bit : Nat) : (s.event page bit).a = s.a := rfl
@[simp] theorem State.event_b (s : State) (page bit : Nat) : (s.event page bit).b = s.b := rfl
@[simp] theorem State.event_c (s : State) (page bit : Nat) : (s.event page bit).c = s.c.event page bit := rfl
@[simp] theorem State.event_side (s : State) (page bit : Nat) (x : SideId) : (s.event page bit).side x = s.side x := by cases x <;> rfl

/-! errCode -/

@[simp] theorem State.errCode_pending (s : State) (page bit code : Nat) : (s.errCode page bit code).pending = s.pending := rfl
@[simp] theorem State.errCode_variant (s : State) (page bit code : Nat) : (s.errCode page bit code).variant = s.variant := rfl
@[simp] theorem State.errCode_a (s : State) (page bit code : Nat) : (s.errCode page bit code).a = s.a := rfl
@[simp] theorem State.errCode_b (s : State) (page bit code : Nat) : (s.errCode page bit code).b = s.b := rfl
@[simp] theorem State.errCode_c (s : State) (page bit code : Nat) : (s.errCode page bit code).c = s.c.errCode page bit code := rfl
@[simp] theorem State.errCode_side (s : State) (page bit code : Nat) (x : SideId) : (s.errCode page bit code).side x = s.side x := by cases x <;> rfl

/-! updSys -/

@[simp] theorem State.updSys_pending (s : State) (f : SysState → SysState) : (s.updSys f).pending = s.pending := rfl
@[simp] theorem State.updSys_variant (s : State) (f : SysState → SysState) : (s.updSys f).variant = s.variant := rfl
@[simp] theorem State.updSys_a (s : State) (f : SysState → SysState) : (s.updSys f).a = s.a := rfl
@[simp] theorem State.updSys_b (s : State) (f : SysState → SysState) : (s.updSys f).b = s.b := rfl
@[simp] theorem State.updSys_c (s : State) (f : SysState → SysState) : (s.updSys f).c = { s.c with sys := f s.c.sys } := rfl
@[simp] theorem State.updSys_side (s : State) (f : SysState → SysState) (x : SideId) : (s.updSys f).side x = s.side x := by cases x <;> rfl

/-! updTamp -/

@[simp] theorem State.updTamp_pending (s : State) (f : TampState → TampState) : (s.updTamp f).pending = s.pending := rfl
@[simp] theorem State.updTamp_variant (s : State) (f : TampState → TampState) : (s.updTamp f).variant = s.variant := rfl
@[simp] theorem State.updTamp_a (s : State) (f : TampState → TampState) : (s.updTamp f).a = s.a := rfl
@[simp] theorem State.updTamp_b (s : State) (f : TampState → TampState) : (s.updTamp f).b = s.b := rfl
@[simp] theorem State.updTamp_c (s : State) (f : TampState → TampState) : (s.updTamp f).c = { s.c with tamp := f s.c.tamp } := rfl
@[simp] theorem State.updTamp_side (s : State) (f : TampState → TampState) (x : SideId) : (s.updTamp f).side x = s.side x := by cases x <;> rfl

/-! updIbe -/

@[simp] theorem State.updIbe_pending (s : State) (f : IbeState → IbeState) : (s.updIbe f).pending = s.pending := rfl
@[simp] theorem State.updIbe_variant (s : State) (f : IbeState → IbeState) : (s.updIbe f).variant = s.variant := rfl
@[simp] theorem State.updIbe_a (s : State) (f : IbeState → IbeState) : (s.updIbe f).a = s.a := rfl
@[simp] theorem State.updIbe_b (s : State) (f : IbeState → IbeState) : (s.updIbe f).b = s.b := rfl
@[simp] theorem State.updIbe_c (s : State) (f : IbeState → IbeState) : (s.updIbe f).c = { s.c with ibe := f s.c.ibe } := rfl
@[simp] theorem State.updIbe_side (s : State) (f : IbeState → IbeState) (x : SideId) : (s.updIbe f).side x = s.side x := by cases x <;> rfl

/-! updPd -/

@[simp] theorem State.updPd_pending (s : State) (f : PdState → PdState) : (s.updPd f).pending = s.pending := rfl
@[simp] theorem State.updPd_variant (s : State) (f : PdState → PdState) : (s.updPd f).variant = s.variant := rfl
@[simp] theorem State.updPd_a (s : State) (f : PdState → PdState) : (s.updPd f).a = s.a := rfl
@[simp] theorem State.updPd_b (s : State) (f : PdState → PdState) : (s.updPd f).b = s.b := rfl
@[simp] theorem State.updPd_c (s : State) (f : PdState → PdState) : (s.updPd f).c = { s.c with pd := f s.c.pd } := rfl
@[simp] theorem State.updPd_side (s : State) (f : PdState → PdState) (x : SideId) : (s.updPd f).side x = s.side x := by cases x <;> rfl

/-! updRun -/

@[simp] theorem State.updRun_pending (s : State) (f : PdRun → PdRun) : (s.updRun f).pending = s.pending := rfl
@[simp] theorem State.updRun_variant (s : State) (f : PdRun → PdRun) : (s.updRun f).variant = s.variant := rfl
@[simp] theorem State.updRun_a (s : State) (f : PdRun → PdRun) : (s.updRun f).a = s.a := rfl
@[simp] theorem State.updRun_b (s : State) (f : PdRun → PdRun) : (s.updRun f).b = s.b := rfl
@[simp] theorem State.updRun_c (s : State) (f : PdRun → PdRun) : (s.updRun f).c = { s.c with pd := { s.c.pd with run := s.c.pd.run.map f } } := rfl
@[simp] theorem State.updRun_side (s : State) (f : PdRun → PdRun) (x : SideId) : (s.updRun f).side x = s.side x := by cases x <;> rfl

/-! reach -/

@[simp] theorem State.reach_pending (s : State) (n : Nat) : (s.reach n).pending = s.pending := rfl
@[simp] theorem State.reach_variant (s : State) (n : Nat) : (s.reach n).variant = s.variant := rfl
@[simp] theorem State.reach_a (s : State) (n : Nat) : (s.reach n).a = s.a := rfl
@[simp] theorem State.reach_b (s : State) (n : Nat) : (s.reach n).b = s.b := rfl
@[simp] theorem State.reach_c (s : State) (n : Nat) : (s.reach n).c = { s.c with sys := { s.c.sys with step := max s.c.sys.step n } } := rfl
@[simp] theorem State.reach_side (s : State) (n : Nat) (x : SideId) : (s.reach n).side x = s.side x := by cases x <;> rfl

/-! ## The commons -/

@[simp] theorem Commons.updR_lt (c : Commons) (f : Tab Word → Tab Word) : (c.updR f).lt = c.lt := rfl
@[simp] theorem Commons.updR_regs (c : Commons) (f : Tab Word → Tab Word) : (c.updR f).regs = f c.regs := rfl
@[simp] theorem Commons.updR_freshAt (c : Commons) (f : Tab Word → Tab Word) : (c.updR f).freshAt = c.freshAt := rfl
@[simp] theorem Commons.updR_fresh (c : Commons) (f : Tab Word → Tab Word) : (c.updR f).fresh = c.fresh := rfl
@[simp] theorem Commons.updR_time (c : Commons) (f : Tab Word → Tab Word) : (c.updR f).time = c.time := rfl
@[simp] theorem Commons.updR_tpo (c : Commons) (f : Tab Word → Tab Word) : (c.updR f).tpo = c.tpo := rfl
@[simp] theorem Commons.updR_rfS (c : Commons) (f : Tab Word → Tab Word) : (c.updR f).rfS = c.rfS := rfl
@[simp] theorem Commons.updR_rfM (c : Commons) (f : Tab Word → Tab Word) : (c.updR f).rfM = c.rfM := rfl
@[simp] theorem Commons.updR_rfH (c : Commons) (f : Tab Word → Tab Word) : (c.updR f).rfH = c.rfH := rfl
@[simp] theorem Commons.updR_air (c : Commons) (f : Tab Word → Tab Word) : (c.updR f).air = c.air := rfl
@[simp] theorem Commons.updR_duty (c : Commons) (f : Tab Word → Tab Word) : (c.updR f).duty = c.duty := rfl
@[simp] theorem Commons.updR_tamp (c : Commons) (f : Tab Word → Tab Word) : (c.updR f).tamp = c.tamp := rfl
@[simp] theorem Commons.updR_ibe (c : Commons) (f : Tab Word → Tab Word) : (c.updR f).ibe = c.ibe := rfl
@[simp] theorem Commons.updR_clasp (c : Commons) (f : Tab Word → Tab Word) : (c.updR f).clasp = c.clasp := rfl
@[simp] theorem Commons.updR_bezel (c : Commons) (f : Tab Word → Tab Word) : (c.updR f).bezel = c.bezel := rfl
@[simp] theorem Commons.updR_evt (c : Commons) (f : Tab Word → Tab Word) : (c.updR f).evt = c.evt := rfl
@[simp] theorem Commons.updR_hostA (c : Commons) (f : Tab Word → Tab Word) : (c.updR f).hostA = c.hostA := rfl
@[simp] theorem Commons.updR_hostB (c : Commons) (f : Tab Word → Tab Word) : (c.updR f).hostB = c.hostB := rfl
@[simp] theorem Commons.updR_chain (c : Commons) (f : Tab Word → Tab Word) : (c.updR f).chain = c.chain := rfl
@[simp] theorem Commons.updR_eth0 (c : Commons) (f : Tab Word → Tab Word) : (c.updR f).eth0 = c.eth0 := rfl
@[simp] theorem Commons.updR_eth1 (c : Commons) (f : Tab Word → Tab Word) : (c.updR f).eth1 = c.eth1 := rfl
@[simp] theorem Commons.updR_pd (c : Commons) (f : Tab Word → Tab Word) : (c.updR f).pd = c.pd := rfl
@[simp] theorem Commons.updR_pmb (c : Commons) (f : Tab Word → Tab Word) : (c.updR f).pmb = c.pmb := rfl
@[simp] theorem Commons.updR_sys (c : Commons) (f : Tab Word → Tab Word) : (c.updR f).sys = c.sys := rfl
@[simp] theorem Commons.updR_jtag (c : Commons) (f : Tab Word → Tab Word) : (c.updR f).jtag = c.jtag := rfl
@[simp] theorem Commons.updR_writes (c : Commons) (f : Tab Word → Tab Word) : (c.updR f).writes = c.writes := rfl
@[simp] theorem Commons.updR_lastRead (c : Commons) (f : Tab Word → Tab Word) : (c.updR f).lastRead = c.lastRead := rfl
@[simp] theorem Commons.count_lt (c : Commons) (page off : Nat) : (c.count page off).lt = c.lt := rfl
@[simp] theorem Commons.count_regs (c : Commons) (page off : Nat) : (c.count page off).regs = bump c.regs page off := rfl
@[simp] theorem Commons.count_freshAt (c : Commons) (page off : Nat) : (c.count page off).freshAt = c.freshAt := rfl
@[simp] theorem Commons.count_fresh (c : Commons) (page off : Nat) : (c.count page off).fresh = c.fresh := rfl
@[simp] theorem Commons.count_time (c : Commons) (page off : Nat) : (c.count page off).time = c.time := rfl
@[simp] theorem Commons.count_tpo (c : Commons) (page off : Nat) : (c.count page off).tpo = c.tpo := rfl
@[simp] theorem Commons.count_rfS (c : Commons) (page off : Nat) : (c.count page off).rfS = c.rfS := rfl
@[simp] theorem Commons.count_rfM (c : Commons) (page off : Nat) : (c.count page off).rfM = c.rfM := rfl
@[simp] theorem Commons.count_rfH (c : Commons) (page off : Nat) : (c.count page off).rfH = c.rfH := rfl
@[simp] theorem Commons.count_air (c : Commons) (page off : Nat) : (c.count page off).air = c.air := rfl
@[simp] theorem Commons.count_duty (c : Commons) (page off : Nat) : (c.count page off).duty = c.duty := rfl
@[simp] theorem Commons.count_tamp (c : Commons) (page off : Nat) : (c.count page off).tamp = c.tamp := rfl
@[simp] theorem Commons.count_ibe (c : Commons) (page off : Nat) : (c.count page off).ibe = c.ibe := rfl
@[simp] theorem Commons.count_clasp (c : Commons) (page off : Nat) : (c.count page off).clasp = c.clasp := rfl
@[simp] theorem Commons.count_bezel (c : Commons) (page off : Nat) : (c.count page off).bezel = c.bezel := rfl
@[simp] theorem Commons.count_evt (c : Commons) (page off : Nat) : (c.count page off).evt = c.evt := rfl
@[simp] theorem Commons.count_hostA (c : Commons) (page off : Nat) : (c.count page off).hostA = c.hostA := rfl
@[simp] theorem Commons.count_hostB (c : Commons) (page off : Nat) : (c.count page off).hostB = c.hostB := rfl
@[simp] theorem Commons.count_chain (c : Commons) (page off : Nat) : (c.count page off).chain = c.chain := rfl
@[simp] theorem Commons.count_eth0 (c : Commons) (page off : Nat) : (c.count page off).eth0 = c.eth0 := rfl
@[simp] theorem Commons.count_eth1 (c : Commons) (page off : Nat) : (c.count page off).eth1 = c.eth1 := rfl
@[simp] theorem Commons.count_pd (c : Commons) (page off : Nat) : (c.count page off).pd = c.pd := rfl
@[simp] theorem Commons.count_pmb (c : Commons) (page off : Nat) : (c.count page off).pmb = c.pmb := rfl
@[simp] theorem Commons.count_sys (c : Commons) (page off : Nat) : (c.count page off).sys = c.sys := rfl
@[simp] theorem Commons.count_jtag (c : Commons) (page off : Nat) : (c.count page off).jtag = c.jtag := rfl
@[simp] theorem Commons.count_writes (c : Commons) (page off : Nat) : (c.count page off).writes = c.writes := rfl
@[simp] theorem Commons.count_lastRead (c : Commons) (page off : Nat) : (c.count page off).lastRead = c.lastRead := rfl
@[simp] theorem Commons.setFresh_lt (c : Commons) (page off : Nat) (m : Word) : (c.setFresh page off m).lt = c.lt := rfl
@[simp] theorem Commons.setFresh_regs (c : Commons) (page off : Nat) (m : Word) : (c.setFresh page off m).regs = c.regs := rfl
@[simp] theorem Commons.setFresh_time (c : Commons) (page off : Nat) (m : Word) : (c.setFresh page off m).time = c.time := rfl
@[simp] theorem Commons.setFresh_tpo (c : Commons) (page off : Nat) (m : Word) : (c.setFresh page off m).tpo = c.tpo := rfl
@[simp] theorem Commons.setFresh_rfS (c : Commons) (page off : Nat) (m : Word) : (c.setFresh page off m).rfS = c.rfS := rfl
@[simp] theorem Commons.setFresh_rfM (c : Commons) (page off : Nat) (m : Word) : (c.setFresh page off m).rfM = c.rfM := rfl
@[simp] theorem Commons.setFresh_rfH (c : Commons) (page off : Nat) (m : Word) : (c.setFresh page off m).rfH = c.rfH := rfl
@[simp] theorem Commons.setFresh_air (c : Commons) (page off : Nat) (m : Word) : (c.setFresh page off m).air = c.air := rfl
@[simp] theorem Commons.setFresh_duty (c : Commons) (page off : Nat) (m : Word) : (c.setFresh page off m).duty = c.duty := rfl
@[simp] theorem Commons.setFresh_tamp (c : Commons) (page off : Nat) (m : Word) : (c.setFresh page off m).tamp = c.tamp := rfl
@[simp] theorem Commons.setFresh_ibe (c : Commons) (page off : Nat) (m : Word) : (c.setFresh page off m).ibe = c.ibe := rfl
@[simp] theorem Commons.setFresh_clasp (c : Commons) (page off : Nat) (m : Word) : (c.setFresh page off m).clasp = c.clasp := rfl
@[simp] theorem Commons.setFresh_bezel (c : Commons) (page off : Nat) (m : Word) : (c.setFresh page off m).bezel = c.bezel := rfl
@[simp] theorem Commons.setFresh_evt (c : Commons) (page off : Nat) (m : Word) : (c.setFresh page off m).evt = c.evt := rfl
@[simp] theorem Commons.setFresh_hostA (c : Commons) (page off : Nat) (m : Word) : (c.setFresh page off m).hostA = c.hostA := rfl
@[simp] theorem Commons.setFresh_hostB (c : Commons) (page off : Nat) (m : Word) : (c.setFresh page off m).hostB = c.hostB := rfl
@[simp] theorem Commons.setFresh_chain (c : Commons) (page off : Nat) (m : Word) : (c.setFresh page off m).chain = c.chain := rfl
@[simp] theorem Commons.setFresh_eth0 (c : Commons) (page off : Nat) (m : Word) : (c.setFresh page off m).eth0 = c.eth0 := rfl
@[simp] theorem Commons.setFresh_eth1 (c : Commons) (page off : Nat) (m : Word) : (c.setFresh page off m).eth1 = c.eth1 := rfl
@[simp] theorem Commons.setFresh_pd (c : Commons) (page off : Nat) (m : Word) : (c.setFresh page off m).pd = c.pd := rfl
@[simp] theorem Commons.setFresh_pmb (c : Commons) (page off : Nat) (m : Word) : (c.setFresh page off m).pmb = c.pmb := rfl
@[simp] theorem Commons.setFresh_sys (c : Commons) (page off : Nat) (m : Word) : (c.setFresh page off m).sys = c.sys := rfl
@[simp] theorem Commons.setFresh_jtag (c : Commons) (page off : Nat) (m : Word) : (c.setFresh page off m).jtag = c.jtag := rfl
@[simp] theorem Commons.setFresh_writes (c : Commons) (page off : Nat) (m : Word) : (c.setFresh page off m).writes = c.writes := rfl
@[simp] theorem Commons.setFresh_lastRead (c : Commons) (page off : Nat) (m : Word) : (c.setFresh page off m).lastRead = c.lastRead := rfl
@[simp] theorem Commons.mark_lt (c : Commons) (page off : Nat) (m : Word) : (c.mark page off m).lt = c.lt := rfl
@[simp] theorem Commons.mark_regs (c : Commons) (page off : Nat) (m : Word) : (c.mark page off m).regs = c.regs := rfl
@[simp] theorem Commons.mark_time (c : Commons) (page off : Nat) (m : Word) : (c.mark page off m).time = c.time := rfl
@[simp] theorem Commons.mark_tpo (c : Commons) (page off : Nat) (m : Word) : (c.mark page off m).tpo = c.tpo := rfl
@[simp] theorem Commons.mark_rfS (c : Commons) (page off : Nat) (m : Word) : (c.mark page off m).rfS = c.rfS := rfl
@[simp] theorem Commons.mark_rfM (c : Commons) (page off : Nat) (m : Word) : (c.mark page off m).rfM = c.rfM := rfl
@[simp] theorem Commons.mark_rfH (c : Commons) (page off : Nat) (m : Word) : (c.mark page off m).rfH = c.rfH := rfl
@[simp] theorem Commons.mark_air (c : Commons) (page off : Nat) (m : Word) : (c.mark page off m).air = c.air := rfl
@[simp] theorem Commons.mark_duty (c : Commons) (page off : Nat) (m : Word) : (c.mark page off m).duty = c.duty := rfl
@[simp] theorem Commons.mark_tamp (c : Commons) (page off : Nat) (m : Word) : (c.mark page off m).tamp = c.tamp := rfl
@[simp] theorem Commons.mark_ibe (c : Commons) (page off : Nat) (m : Word) : (c.mark page off m).ibe = c.ibe := rfl
@[simp] theorem Commons.mark_clasp (c : Commons) (page off : Nat) (m : Word) : (c.mark page off m).clasp = c.clasp := rfl
@[simp] theorem Commons.mark_bezel (c : Commons) (page off : Nat) (m : Word) : (c.mark page off m).bezel = c.bezel := rfl
@[simp] theorem Commons.mark_evt (c : Commons) (page off : Nat) (m : Word) : (c.mark page off m).evt = c.evt := rfl
@[simp] theorem Commons.mark_hostA (c : Commons) (page off : Nat) (m : Word) : (c.mark page off m).hostA = c.hostA := rfl
@[simp] theorem Commons.mark_hostB (c : Commons) (page off : Nat) (m : Word) : (c.mark page off m).hostB = c.hostB := rfl
@[simp] theorem Commons.mark_chain (c : Commons) (page off : Nat) (m : Word) : (c.mark page off m).chain = c.chain := rfl
@[simp] theorem Commons.mark_eth0 (c : Commons) (page off : Nat) (m : Word) : (c.mark page off m).eth0 = c.eth0 := rfl
@[simp] theorem Commons.mark_eth1 (c : Commons) (page off : Nat) (m : Word) : (c.mark page off m).eth1 = c.eth1 := rfl
@[simp] theorem Commons.mark_pd (c : Commons) (page off : Nat) (m : Word) : (c.mark page off m).pd = c.pd := rfl
@[simp] theorem Commons.mark_pmb (c : Commons) (page off : Nat) (m : Word) : (c.mark page off m).pmb = c.pmb := rfl
@[simp] theorem Commons.mark_sys (c : Commons) (page off : Nat) (m : Word) : (c.mark page off m).sys = c.sys := rfl
@[simp] theorem Commons.mark_jtag (c : Commons) (page off : Nat) (m : Word) : (c.mark page off m).jtag = c.jtag := rfl
@[simp] theorem Commons.mark_writes (c : Commons) (page off : Nat) (m : Word) : (c.mark page off m).writes = c.writes := rfl
@[simp] theorem Commons.mark_lastRead (c : Commons) (page off : Nat) (m : Word) : (c.mark page off m).lastRead = c.lastRead := rfl
@[simp] theorem Commons.hwSet_lt (c : Commons) (page off : Nat) (m : Word) : (c.hwSet page off m).lt = c.lt := rfl
@[simp] theorem Commons.hwSet_regs (c : Commons) (page off : Nat) (m : Word) : (c.hwSet page off m).regs = wr c.regs page off (rd c.regs page off ||| m) := rfl
@[simp] theorem Commons.hwSet_time (c : Commons) (page off : Nat) (m : Word) : (c.hwSet page off m).time = c.time := rfl
@[simp] theorem Commons.hwSet_tpo (c : Commons) (page off : Nat) (m : Word) : (c.hwSet page off m).tpo = c.tpo := rfl
@[simp] theorem Commons.hwSet_rfS (c : Commons) (page off : Nat) (m : Word) : (c.hwSet page off m).rfS = c.rfS := rfl
@[simp] theorem Commons.hwSet_rfM (c : Commons) (page off : Nat) (m : Word) : (c.hwSet page off m).rfM = c.rfM := rfl
@[simp] theorem Commons.hwSet_rfH (c : Commons) (page off : Nat) (m : Word) : (c.hwSet page off m).rfH = c.rfH := rfl
@[simp] theorem Commons.hwSet_air (c : Commons) (page off : Nat) (m : Word) : (c.hwSet page off m).air = c.air := rfl
@[simp] theorem Commons.hwSet_duty (c : Commons) (page off : Nat) (m : Word) : (c.hwSet page off m).duty = c.duty := rfl
@[simp] theorem Commons.hwSet_tamp (c : Commons) (page off : Nat) (m : Word) : (c.hwSet page off m).tamp = c.tamp := rfl
@[simp] theorem Commons.hwSet_ibe (c : Commons) (page off : Nat) (m : Word) : (c.hwSet page off m).ibe = c.ibe := rfl
@[simp] theorem Commons.hwSet_clasp (c : Commons) (page off : Nat) (m : Word) : (c.hwSet page off m).clasp = c.clasp := rfl
@[simp] theorem Commons.hwSet_bezel (c : Commons) (page off : Nat) (m : Word) : (c.hwSet page off m).bezel = c.bezel := rfl
@[simp] theorem Commons.hwSet_evt (c : Commons) (page off : Nat) (m : Word) : (c.hwSet page off m).evt = c.evt := rfl
@[simp] theorem Commons.hwSet_hostA (c : Commons) (page off : Nat) (m : Word) : (c.hwSet page off m).hostA = c.hostA := rfl
@[simp] theorem Commons.hwSet_hostB (c : Commons) (page off : Nat) (m : Word) : (c.hwSet page off m).hostB = c.hostB := rfl
@[simp] theorem Commons.hwSet_chain (c : Commons) (page off : Nat) (m : Word) : (c.hwSet page off m).chain = c.chain := rfl
@[simp] theorem Commons.hwSet_eth0 (c : Commons) (page off : Nat) (m : Word) : (c.hwSet page off m).eth0 = c.eth0 := rfl
@[simp] theorem Commons.hwSet_eth1 (c : Commons) (page off : Nat) (m : Word) : (c.hwSet page off m).eth1 = c.eth1 := rfl
@[simp] theorem Commons.hwSet_pd (c : Commons) (page off : Nat) (m : Word) : (c.hwSet page off m).pd = c.pd := rfl
@[simp] theorem Commons.hwSet_pmb (c : Commons) (page off : Nat) (m : Word) : (c.hwSet page off m).pmb = c.pmb := rfl
@[simp] theorem Commons.hwSet_sys (c : Commons) (page off : Nat) (m : Word) : (c.hwSet page off m).sys = c.sys := rfl
@[simp] theorem Commons.hwSet_jtag (c : Commons) (page off : Nat) (m : Word) : (c.hwSet page off m).jtag = c.jtag := rfl
@[simp] theorem Commons.hwSet_writes (c : Commons) (page off : Nat) (m : Word) : (c.hwSet page off m).writes = c.writes := rfl
@[simp] theorem Commons.hwSet_lastRead (c : Commons) (page off : Nat) (m : Word) : (c.hwSet page off m).lastRead = c.lastRead := rfl
@[simp] theorem Commons.event_lt (c : Commons) (page bit : Nat) : (c.event page bit).lt = c.lt := rfl
@[simp] theorem Commons.event_regs (c : Commons) (page bit : Nat) : (c.event page bit).regs = setEvt c.regs page bit := rfl
@[simp] theorem Commons.event_time (c : Commons) (page bit : Nat) : (c.event page bit).time = c.time := rfl
@[simp] theorem Commons.event_tpo (c : Commons) (page bit : Nat) : (c.event page bit).tpo = c.tpo := rfl
@[simp] theorem Commons.event_rfS (c : Commons) (page bit : Nat) : (c.event page bit).rfS = c.rfS := rfl
@[simp] theorem Commons.event_rfM (c : Commons) (page bit : Nat) : (c.event page bit).rfM = c.rfM := rfl
@[simp] theorem Commons.event_rfH (c : Commons) (page bit : Nat) : (c.event page bit).rfH = c.rfH := rfl
@[simp] theorem Commons.event_air (c : Commons) (page bit : Nat) : (c.event page bit).air = c.air := rfl
@[simp] theorem Commons.event_duty (c : Commons) (page bit : Nat) : (c.event page bit).duty = c.duty := rfl
@[simp] theorem Commons.event_tamp (c : Commons) (page bit : Nat) : (c.event page bit).tamp = c.tamp := rfl
@[simp] theorem Commons.event_ibe (c : Commons) (page bit : Nat) : (c.event page bit).ibe = c.ibe := rfl
@[simp] theorem Commons.event_clasp (c : Commons) (page bit : Nat) : (c.event page bit).clasp = c.clasp := rfl
@[simp] theorem Commons.event_bezel (c : Commons) (page bit : Nat) : (c.event page bit).bezel = c.bezel := rfl
@[simp] theorem Commons.event_evt (c : Commons) (page bit : Nat) : (c.event page bit).evt = c.evt := rfl
@[simp] theorem Commons.event_hostA (c : Commons) (page bit : Nat) : (c.event page bit).hostA = c.hostA := rfl
@[simp] theorem Commons.event_hostB (c : Commons) (page bit : Nat) : (c.event page bit).hostB = c.hostB := rfl
@[simp] theorem Commons.event_chain (c : Commons) (page bit : Nat) : (c.event page bit).chain = c.chain := rfl
@[simp] theorem Commons.event_eth0 (c : Commons) (page bit : Nat) : (c.event page bit).eth0 = c.eth0 := rfl
@[simp] theorem Commons.event_eth1 (c : Commons) (page bit : Nat) : (c.event page bit).eth1 = c.eth1 := rfl
@[simp] theorem Commons.event_pd (c : Commons) (page bit : Nat) : (c.event page bit).pd = c.pd := rfl
@[simp] theorem Commons.event_pmb (c : Commons) (page bit : Nat) : (c.event page bit).pmb = c.pmb := rfl
@[simp] theorem Commons.event_sys (c : Commons) (page bit : Nat) : (c.event page bit).sys = c.sys := rfl
@[simp] theorem Commons.event_jtag (c : Commons) (page bit : Nat) : (c.event page bit).jtag = c.jtag := rfl
@[simp] theorem Commons.event_writes (c : Commons) (page bit : Nat) : (c.event page bit).writes = c.writes := rfl
@[simp] theorem Commons.event_lastRead (c : Commons) (page bit : Nat) : (c.event page bit).lastRead = c.lastRead := rfl
@[simp] theorem Commons.openCycle_lt (c : Commons) : c.openCycle.lt = c.lt := by
  unfold Commons.openCycle; dsimp only; split <;> rfl
@[simp] theorem Commons.openCycle_regs (c : Commons) : c.openCycle.regs = c.regs := by
  unfold Commons.openCycle; dsimp only; split <;> rfl
@[simp] theorem Commons.openCycle_freshAt (c : Commons) : c.openCycle.freshAt = c.freshAt := by
  unfold Commons.openCycle; dsimp only; split <;> rfl
@[simp] theorem Commons.openCycle_fresh (c : Commons) : c.openCycle.fresh = c.fresh := by
  unfold Commons.openCycle; dsimp only; split <;> rfl
@[simp] theorem Commons.openCycle_time (c : Commons) : c.openCycle.time = c.time := by
  unfold Commons.openCycle; dsimp only; split <;> rfl
@[simp] theorem Commons.openCycle_tpo (c : Commons) : c.openCycle.tpo = c.tpo := by
  unfold Commons.openCycle; dsimp only; split <;> rfl
@[simp] theorem Commons.openCycle_rfS (c : Commons) : c.openCycle.rfS = c.rfS := by
  unfold Commons.openCycle; dsimp only; split <;> rfl
@[simp] theorem Commons.openCycle_rfM (c : Commons) : c.openCycle.rfM = c.rfM := by
  unfold Commons.openCycle; dsimp only; split <;> rfl
@[simp] theorem Commons.openCycle_rfH (c : Commons) : c.openCycle.rfH = c.rfH := by
  unfold Commons.openCycle; dsimp only; split <;> rfl
@[simp] theorem Commons.openCycle_air (c : Commons) : c.openCycle.air = c.air := by
  unfold Commons.openCycle; dsimp only; split <;> rfl
@[simp] theorem Commons.openCycle_duty (c : Commons) : c.openCycle.duty = c.duty := by
  unfold Commons.openCycle; dsimp only; split <;> rfl
@[simp] theorem Commons.openCycle_tamp (c : Commons) : c.openCycle.tamp = c.tamp := by
  unfold Commons.openCycle; dsimp only; split <;> rfl
@[simp] theorem Commons.openCycle_ibe (c : Commons) : c.openCycle.ibe = c.ibe := by
  unfold Commons.openCycle; dsimp only; split <;> rfl
@[simp] theorem Commons.openCycle_clasp (c : Commons) : c.openCycle.clasp = c.clasp := by
  unfold Commons.openCycle; dsimp only; split <;> rfl
@[simp] theorem Commons.openCycle_bezel (c : Commons) : c.openCycle.bezel = c.bezel := by
  unfold Commons.openCycle; dsimp only; split <;> rfl
@[simp] theorem Commons.openCycle_evt (c : Commons) : c.openCycle.evt = c.evt := by
  unfold Commons.openCycle; dsimp only; split <;> rfl
@[simp] theorem Commons.openCycle_hostA (c : Commons) : c.openCycle.hostA = c.hostA := by
  unfold Commons.openCycle; dsimp only; split <;> rfl
@[simp] theorem Commons.openCycle_hostB (c : Commons) : c.openCycle.hostB = c.hostB := by
  unfold Commons.openCycle; dsimp only; split <;> rfl
@[simp] theorem Commons.openCycle_chain (c : Commons) : c.openCycle.chain = c.chain := by
  unfold Commons.openCycle; dsimp only; split <;> rfl
@[simp] theorem Commons.openCycle_eth0 (c : Commons) : c.openCycle.eth0 = c.eth0 := by
  unfold Commons.openCycle; dsimp only; split <;> rfl
@[simp] theorem Commons.openCycle_eth1 (c : Commons) : c.openCycle.eth1 = c.eth1 := by
  unfold Commons.openCycle; dsimp only; split <;> rfl
@[simp] theorem Commons.openCycle_pd (c : Commons) : c.openCycle.pd = c.pd := by
  unfold Commons.openCycle; dsimp only; split <;> rfl
@[simp] theorem Commons.openCycle_pmb (c : Commons) : c.openCycle.pmb = c.pmb := by
  unfold Commons.openCycle; dsimp only; split <;> rfl
@[simp] theorem Commons.openCycle_sys (c : Commons) : c.openCycle.sys = c.sys := by
  unfold Commons.openCycle; dsimp only; split <;> rfl
@[simp] theorem Commons.openCycle_jtag (c : Commons) : c.openCycle.jtag = c.jtag := by
  unfold Commons.openCycle; dsimp only; split <;> rfl
@[simp] theorem Commons.openCycle_lastRead (c : Commons) : c.openCycle.lastRead = c.lastRead := by
  unfold Commons.openCycle; dsimp only; split <;> rfl
@[simp] theorem Commons.errCode_lt (c : Commons) (page bit code : Nat) :
    (c.errCode page bit code).lt = c.lt := by
  unfold Commons.errCode; dsimp only; split <;> rfl
@[simp] theorem Commons.errCode_regs (c : Commons) (page bit code : Nat) :
    (c.errCode page bit code).regs = setErrCode c.regs page bit code c.lt (c.freshBits page Reg.HDR_ERR_FIRST) := by
  unfold Commons.errCode; dsimp only; split <;> rfl
@[simp] theorem Commons.errCode_time (c : Commons) (page bit code : Nat) :
    (c.errCode page bit code).time = c.time := by
  unfold Commons.errCode; dsimp only; split <;> rfl
@[simp] theorem Commons.errCode_tpo (c : Commons) (page bit code : Nat) :
    (c.errCode page bit code).tpo = c.tpo := by
  unfold Commons.errCode; dsimp only; split <;> rfl
@[simp] theorem Commons.errCode_rfS (c : Commons) (page bit code : Nat) :
    (c.errCode page bit code).rfS = c.rfS := by
  unfold Commons.errCode; dsimp only; split <;> rfl
@[simp] theorem Commons.errCode_rfM (c : Commons) (page bit code : Nat) :
    (c.errCode page bit code).rfM = c.rfM := by
  unfold Commons.errCode; dsimp only; split <;> rfl
@[simp] theorem Commons.errCode_rfH (c : Commons) (page bit code : Nat) :
    (c.errCode page bit code).rfH = c.rfH := by
  unfold Commons.errCode; dsimp only; split <;> rfl
@[simp] theorem Commons.errCode_air (c : Commons) (page bit code : Nat) :
    (c.errCode page bit code).air = c.air := by
  unfold Commons.errCode; dsimp only; split <;> rfl
@[simp] theorem Commons.errCode_duty (c : Commons) (page bit code : Nat) :
    (c.errCode page bit code).duty = c.duty := by
  unfold Commons.errCode; dsimp only; split <;> rfl
@[simp] theorem Commons.errCode_tamp (c : Commons) (page bit code : Nat) :
    (c.errCode page bit code).tamp = c.tamp := by
  unfold Commons.errCode; dsimp only; split <;> rfl
@[simp] theorem Commons.errCode_ibe (c : Commons) (page bit code : Nat) :
    (c.errCode page bit code).ibe = c.ibe := by
  unfold Commons.errCode; dsimp only; split <;> rfl
@[simp] theorem Commons.errCode_clasp (c : Commons) (page bit code : Nat) :
    (c.errCode page bit code).clasp = c.clasp := by
  unfold Commons.errCode; dsimp only; split <;> rfl
@[simp] theorem Commons.errCode_bezel (c : Commons) (page bit code : Nat) :
    (c.errCode page bit code).bezel = c.bezel := by
  unfold Commons.errCode; dsimp only; split <;> rfl
@[simp] theorem Commons.errCode_evt (c : Commons) (page bit code : Nat) :
    (c.errCode page bit code).evt = c.evt := by
  unfold Commons.errCode; dsimp only; split <;> rfl
@[simp] theorem Commons.errCode_hostA (c : Commons) (page bit code : Nat) :
    (c.errCode page bit code).hostA = c.hostA := by
  unfold Commons.errCode; dsimp only; split <;> rfl
@[simp] theorem Commons.errCode_hostB (c : Commons) (page bit code : Nat) :
    (c.errCode page bit code).hostB = c.hostB := by
  unfold Commons.errCode; dsimp only; split <;> rfl
@[simp] theorem Commons.errCode_chain (c : Commons) (page bit code : Nat) :
    (c.errCode page bit code).chain = c.chain := by
  unfold Commons.errCode; dsimp only; split <;> rfl
@[simp] theorem Commons.errCode_eth0 (c : Commons) (page bit code : Nat) :
    (c.errCode page bit code).eth0 = c.eth0 := by
  unfold Commons.errCode; dsimp only; split <;> rfl
@[simp] theorem Commons.errCode_eth1 (c : Commons) (page bit code : Nat) :
    (c.errCode page bit code).eth1 = c.eth1 := by
  unfold Commons.errCode; dsimp only; split <;> rfl
@[simp] theorem Commons.errCode_pd (c : Commons) (page bit code : Nat) :
    (c.errCode page bit code).pd = c.pd := by
  unfold Commons.errCode; dsimp only; split <;> rfl
@[simp] theorem Commons.errCode_pmb (c : Commons) (page bit code : Nat) :
    (c.errCode page bit code).pmb = c.pmb := by
  unfold Commons.errCode; dsimp only; split <;> rfl
@[simp] theorem Commons.errCode_sys (c : Commons) (page bit code : Nat) :
    (c.errCode page bit code).sys = c.sys := by
  unfold Commons.errCode; dsimp only; split <;> rfl
@[simp] theorem Commons.errCode_jtag (c : Commons) (page bit code : Nat) :
    (c.errCode page bit code).jtag = c.jtag := by
  unfold Commons.errCode; dsimp only; split <;> rfl
@[simp] theorem Commons.errCode_writes (c : Commons) (page bit code : Nat) :
    (c.errCode page bit code).writes = c.writes := by
  unfold Commons.errCode; dsimp only; split <;> rfl
@[simp] theorem Commons.errCode_lastRead (c : Commons) (page bit code : Nat) :
    (c.errCode page bit code).lastRead = c.lastRead := by
  unfold Commons.errCode; dsimp only; split <;> rfl
@[simp] theorem Commons.err_lt (c : Commons) (page bit : Nat) : (c.err page bit).lt = c.lt := Commons.errCode_lt ..
@[simp] theorem Commons.err_regs (c : Commons) (page bit : Nat) : (c.err page bit).regs = setErrCode c.regs page bit (bit + 1) c.lt (c.freshBits page Reg.HDR_ERR_FIRST) := Commons.errCode_regs ..
@[simp] theorem Commons.err_time (c : Commons) (page bit : Nat) : (c.err page bit).time = c.time := Commons.errCode_time ..
@[simp] theorem Commons.err_tpo (c : Commons) (page bit : Nat) : (c.err page bit).tpo = c.tpo := Commons.errCode_tpo ..
@[simp] theorem Commons.err_rfS (c : Commons) (page bit : Nat) : (c.err page bit).rfS = c.rfS := Commons.errCode_rfS ..
@[simp] theorem Commons.err_rfM (c : Commons) (page bit : Nat) : (c.err page bit).rfM = c.rfM := Commons.errCode_rfM ..
@[simp] theorem Commons.err_rfH (c : Commons) (page bit : Nat) : (c.err page bit).rfH = c.rfH := Commons.errCode_rfH ..
@[simp] theorem Commons.err_air (c : Commons) (page bit : Nat) : (c.err page bit).air = c.air := Commons.errCode_air ..
@[simp] theorem Commons.err_duty (c : Commons) (page bit : Nat) : (c.err page bit).duty = c.duty := Commons.errCode_duty ..
@[simp] theorem Commons.err_tamp (c : Commons) (page bit : Nat) : (c.err page bit).tamp = c.tamp := Commons.errCode_tamp ..
@[simp] theorem Commons.err_ibe (c : Commons) (page bit : Nat) : (c.err page bit).ibe = c.ibe := Commons.errCode_ibe ..
@[simp] theorem Commons.err_clasp (c : Commons) (page bit : Nat) : (c.err page bit).clasp = c.clasp := Commons.errCode_clasp ..
@[simp] theorem Commons.err_bezel (c : Commons) (page bit : Nat) : (c.err page bit).bezel = c.bezel := Commons.errCode_bezel ..
@[simp] theorem Commons.err_evt (c : Commons) (page bit : Nat) : (c.err page bit).evt = c.evt := Commons.errCode_evt ..
@[simp] theorem Commons.err_hostA (c : Commons) (page bit : Nat) : (c.err page bit).hostA = c.hostA := Commons.errCode_hostA ..
@[simp] theorem Commons.err_hostB (c : Commons) (page bit : Nat) : (c.err page bit).hostB = c.hostB := Commons.errCode_hostB ..
@[simp] theorem Commons.err_chain (c : Commons) (page bit : Nat) : (c.err page bit).chain = c.chain := Commons.errCode_chain ..
@[simp] theorem Commons.err_eth0 (c : Commons) (page bit : Nat) : (c.err page bit).eth0 = c.eth0 := Commons.errCode_eth0 ..
@[simp] theorem Commons.err_eth1 (c : Commons) (page bit : Nat) : (c.err page bit).eth1 = c.eth1 := Commons.errCode_eth1 ..
@[simp] theorem Commons.err_pd (c : Commons) (page bit : Nat) : (c.err page bit).pd = c.pd := Commons.errCode_pd ..
@[simp] theorem Commons.err_pmb (c : Commons) (page bit : Nat) : (c.err page bit).pmb = c.pmb := Commons.errCode_pmb ..
@[simp] theorem Commons.err_sys (c : Commons) (page bit : Nat) : (c.err page bit).sys = c.sys := Commons.errCode_sys ..
@[simp] theorem Commons.err_jtag (c : Commons) (page bit : Nat) : (c.err page bit).jtag = c.jtag := Commons.errCode_jtag ..
@[simp] theorem Commons.err_writes (c : Commons) (page bit : Nat) : (c.err page bit).writes = c.writes := Commons.errCode_writes ..
@[simp] theorem Commons.err_lastRead (c : Commons) (page bit : Nat) : (c.err page bit).lastRead = c.lastRead := Commons.errCode_lastRead ..
@[simp] theorem Commons.updPort_lt (c : Commons) (p : RPort) (f : RfPort → RfPort) : (c.updPort p f).lt = c.lt := by cases p <;> rfl
@[simp] theorem Commons.updPort_regs (c : Commons) (p : RPort) (f : RfPort → RfPort) : (c.updPort p f).regs = c.regs := by cases p <;> rfl
@[simp] theorem Commons.updPort_freshAt (c : Commons) (p : RPort) (f : RfPort → RfPort) : (c.updPort p f).freshAt = c.freshAt := by cases p <;> rfl
@[simp] theorem Commons.updPort_fresh (c : Commons) (p : RPort) (f : RfPort → RfPort) : (c.updPort p f).fresh = c.fresh := by cases p <;> rfl
@[simp] theorem Commons.updPort_time (c : Commons) (p : RPort) (f : RfPort → RfPort) : (c.updPort p f).time = c.time := by cases p <;> rfl
@[simp] theorem Commons.updPort_tpo (c : Commons) (p : RPort) (f : RfPort → RfPort) : (c.updPort p f).tpo = c.tpo := by cases p <;> rfl
@[simp] theorem Commons.updPort_air (c : Commons) (p : RPort) (f : RfPort → RfPort) : (c.updPort p f).air = c.air := by cases p <;> rfl
@[simp] theorem Commons.updPort_duty (c : Commons) (p : RPort) (f : RfPort → RfPort) : (c.updPort p f).duty = c.duty := by cases p <;> rfl
@[simp] theorem Commons.updPort_tamp (c : Commons) (p : RPort) (f : RfPort → RfPort) : (c.updPort p f).tamp = c.tamp := by cases p <;> rfl
@[simp] theorem Commons.updPort_ibe (c : Commons) (p : RPort) (f : RfPort → RfPort) : (c.updPort p f).ibe = c.ibe := by cases p <;> rfl
@[simp] theorem Commons.updPort_clasp (c : Commons) (p : RPort) (f : RfPort → RfPort) : (c.updPort p f).clasp = c.clasp := by cases p <;> rfl
@[simp] theorem Commons.updPort_bezel (c : Commons) (p : RPort) (f : RfPort → RfPort) : (c.updPort p f).bezel = c.bezel := by cases p <;> rfl
@[simp] theorem Commons.updPort_evt (c : Commons) (p : RPort) (f : RfPort → RfPort) : (c.updPort p f).evt = c.evt := by cases p <;> rfl
@[simp] theorem Commons.updPort_hostA (c : Commons) (p : RPort) (f : RfPort → RfPort) : (c.updPort p f).hostA = c.hostA := by cases p <;> rfl
@[simp] theorem Commons.updPort_hostB (c : Commons) (p : RPort) (f : RfPort → RfPort) : (c.updPort p f).hostB = c.hostB := by cases p <;> rfl
@[simp] theorem Commons.updPort_chain (c : Commons) (p : RPort) (f : RfPort → RfPort) : (c.updPort p f).chain = c.chain := by cases p <;> rfl
@[simp] theorem Commons.updPort_eth0 (c : Commons) (p : RPort) (f : RfPort → RfPort) : (c.updPort p f).eth0 = c.eth0 := by cases p <;> rfl
@[simp] theorem Commons.updPort_eth1 (c : Commons) (p : RPort) (f : RfPort → RfPort) : (c.updPort p f).eth1 = c.eth1 := by cases p <;> rfl
@[simp] theorem Commons.updPort_pd (c : Commons) (p : RPort) (f : RfPort → RfPort) : (c.updPort p f).pd = c.pd := by cases p <;> rfl
@[simp] theorem Commons.updPort_pmb (c : Commons) (p : RPort) (f : RfPort → RfPort) : (c.updPort p f).pmb = c.pmb := by cases p <;> rfl
@[simp] theorem Commons.updPort_sys (c : Commons) (p : RPort) (f : RfPort → RfPort) : (c.updPort p f).sys = c.sys := by cases p <;> rfl
@[simp] theorem Commons.updPort_jtag (c : Commons) (p : RPort) (f : RfPort → RfPort) : (c.updPort p f).jtag = c.jtag := by cases p <;> rfl
@[simp] theorem Commons.updPort_writes (c : Commons) (p : RPort) (f : RfPort → RfPort) : (c.updPort p f).writes = c.writes := by cases p <;> rfl
@[simp] theorem Commons.updPort_lastRead (c : Commons) (p : RPort) (f : RfPort → RfPort) : (c.updPort p f).lastRead = c.lastRead := by cases p <;> rfl
@[simp] theorem Commons.updEth_lt (c : Commons) (second : Bool) (f : EthState → EthState) : (c.updEth second f).lt = c.lt := by cases second <;> rfl
@[simp] theorem Commons.updEth_regs (c : Commons) (second : Bool) (f : EthState → EthState) : (c.updEth second f).regs = c.regs := by cases second <;> rfl
@[simp] theorem Commons.updEth_freshAt (c : Commons) (second : Bool) (f : EthState → EthState) : (c.updEth second f).freshAt = c.freshAt := by cases second <;> rfl
@[simp] theorem Commons.updEth_fresh (c : Commons) (second : Bool) (f : EthState → EthState) : (c.updEth second f).fresh = c.fresh := by cases second <;> rfl
@[simp] theorem Commons.updEth_time (c : Commons) (second : Bool) (f : EthState → EthState) : (c.updEth second f).time = c.time := by cases second <;> rfl
@[simp] theorem Commons.updEth_tpo (c : Commons) (second : Bool) (f : EthState → EthState) : (c.updEth second f).tpo = c.tpo := by cases second <;> rfl
@[simp] theorem Commons.updEth_rfS (c : Commons) (second : Bool) (f : EthState → EthState) : (c.updEth second f).rfS = c.rfS := by cases second <;> rfl
@[simp] theorem Commons.updEth_rfM (c : Commons) (second : Bool) (f : EthState → EthState) : (c.updEth second f).rfM = c.rfM := by cases second <;> rfl
@[simp] theorem Commons.updEth_rfH (c : Commons) (second : Bool) (f : EthState → EthState) : (c.updEth second f).rfH = c.rfH := by cases second <;> rfl
@[simp] theorem Commons.updEth_air (c : Commons) (second : Bool) (f : EthState → EthState) : (c.updEth second f).air = c.air := by cases second <;> rfl
@[simp] theorem Commons.updEth_duty (c : Commons) (second : Bool) (f : EthState → EthState) : (c.updEth second f).duty = c.duty := by cases second <;> rfl
@[simp] theorem Commons.updEth_tamp (c : Commons) (second : Bool) (f : EthState → EthState) : (c.updEth second f).tamp = c.tamp := by cases second <;> rfl
@[simp] theorem Commons.updEth_ibe (c : Commons) (second : Bool) (f : EthState → EthState) : (c.updEth second f).ibe = c.ibe := by cases second <;> rfl
@[simp] theorem Commons.updEth_clasp (c : Commons) (second : Bool) (f : EthState → EthState) : (c.updEth second f).clasp = c.clasp := by cases second <;> rfl
@[simp] theorem Commons.updEth_bezel (c : Commons) (second : Bool) (f : EthState → EthState) : (c.updEth second f).bezel = c.bezel := by cases second <;> rfl
@[simp] theorem Commons.updEth_evt (c : Commons) (second : Bool) (f : EthState → EthState) : (c.updEth second f).evt = c.evt := by cases second <;> rfl
@[simp] theorem Commons.updEth_hostA (c : Commons) (second : Bool) (f : EthState → EthState) : (c.updEth second f).hostA = c.hostA := by cases second <;> rfl
@[simp] theorem Commons.updEth_hostB (c : Commons) (second : Bool) (f : EthState → EthState) : (c.updEth second f).hostB = c.hostB := by cases second <;> rfl
@[simp] theorem Commons.updEth_chain (c : Commons) (second : Bool) (f : EthState → EthState) : (c.updEth second f).chain = c.chain := by cases second <;> rfl
@[simp] theorem Commons.updEth_pd (c : Commons) (second : Bool) (f : EthState → EthState) : (c.updEth second f).pd = c.pd := by cases second <;> rfl
@[simp] theorem Commons.updEth_pmb (c : Commons) (second : Bool) (f : EthState → EthState) : (c.updEth second f).pmb = c.pmb := by cases second <;> rfl
@[simp] theorem Commons.updEth_sys (c : Commons) (second : Bool) (f : EthState → EthState) : (c.updEth second f).sys = c.sys := by cases second <;> rfl
@[simp] theorem Commons.updEth_jtag (c : Commons) (second : Bool) (f : EthState → EthState) : (c.updEth second f).jtag = c.jtag := by cases second <;> rfl
@[simp] theorem Commons.updEth_writes (c : Commons) (second : Bool) (f : EthState → EthState) : (c.updEth second f).writes = c.writes := by cases second <;> rfl
@[simp] theorem Commons.updEth_lastRead (c : Commons) (second : Bool) (f : EthState → EthState) : (c.updEth second f).lastRead = c.lastRead := by cases second <;> rfl
@[simp] theorem Commons.updHost_lt (c : Commons) (second : Bool) (f : HostPort → HostPort) : (c.updHost second f).lt = c.lt := by cases second <;> rfl
@[simp] theorem Commons.updHost_regs (c : Commons) (second : Bool) (f : HostPort → HostPort) : (c.updHost second f).regs = c.regs := by cases second <;> rfl
@[simp] theorem Commons.updHost_freshAt (c : Commons) (second : Bool) (f : HostPort → HostPort) : (c.updHost second f).freshAt = c.freshAt := by cases second <;> rfl
@[simp] theorem Commons.updHost_fresh (c : Commons) (second : Bool) (f : HostPort → HostPort) : (c.updHost second f).fresh = c.fresh := by cases second <;> rfl
@[simp] theorem Commons.updHost_time (c : Commons) (second : Bool) (f : HostPort → HostPort) : (c.updHost second f).time = c.time := by cases second <;> rfl
@[simp] theorem Commons.updHost_tpo (c : Commons) (second : Bool) (f : HostPort → HostPort) : (c.updHost second f).tpo = c.tpo := by cases second <;> rfl
@[simp] theorem Commons.updHost_rfS (c : Commons) (second : Bool) (f : HostPort → HostPort) : (c.updHost second f).rfS = c.rfS := by cases second <;> rfl
@[simp] theorem Commons.updHost_rfM (c : Commons) (second : Bool) (f : HostPort → HostPort) : (c.updHost second f).rfM = c.rfM := by cases second <;> rfl
@[simp] theorem Commons.updHost_rfH (c : Commons) (second : Bool) (f : HostPort → HostPort) : (c.updHost second f).rfH = c.rfH := by cases second <;> rfl
@[simp] theorem Commons.updHost_air (c : Commons) (second : Bool) (f : HostPort → HostPort) : (c.updHost second f).air = c.air := by cases second <;> rfl
@[simp] theorem Commons.updHost_duty (c : Commons) (second : Bool) (f : HostPort → HostPort) : (c.updHost second f).duty = c.duty := by cases second <;> rfl
@[simp] theorem Commons.updHost_tamp (c : Commons) (second : Bool) (f : HostPort → HostPort) : (c.updHost second f).tamp = c.tamp := by cases second <;> rfl
@[simp] theorem Commons.updHost_ibe (c : Commons) (second : Bool) (f : HostPort → HostPort) : (c.updHost second f).ibe = c.ibe := by cases second <;> rfl
@[simp] theorem Commons.updHost_clasp (c : Commons) (second : Bool) (f : HostPort → HostPort) : (c.updHost second f).clasp = c.clasp := by cases second <;> rfl
@[simp] theorem Commons.updHost_bezel (c : Commons) (second : Bool) (f : HostPort → HostPort) : (c.updHost second f).bezel = c.bezel := by cases second <;> rfl
@[simp] theorem Commons.updHost_evt (c : Commons) (second : Bool) (f : HostPort → HostPort) : (c.updHost second f).evt = c.evt := by cases second <;> rfl
@[simp] theorem Commons.updHost_chain (c : Commons) (second : Bool) (f : HostPort → HostPort) : (c.updHost second f).chain = c.chain := by cases second <;> rfl
@[simp] theorem Commons.updHost_eth0 (c : Commons) (second : Bool) (f : HostPort → HostPort) : (c.updHost second f).eth0 = c.eth0 := by cases second <;> rfl
@[simp] theorem Commons.updHost_eth1 (c : Commons) (second : Bool) (f : HostPort → HostPort) : (c.updHost second f).eth1 = c.eth1 := by cases second <;> rfl
@[simp] theorem Commons.updHost_pd (c : Commons) (second : Bool) (f : HostPort → HostPort) : (c.updHost second f).pd = c.pd := by cases second <;> rfl
@[simp] theorem Commons.updHost_pmb (c : Commons) (second : Bool) (f : HostPort → HostPort) : (c.updHost second f).pmb = c.pmb := by cases second <;> rfl
@[simp] theorem Commons.updHost_sys (c : Commons) (second : Bool) (f : HostPort → HostPort) : (c.updHost second f).sys = c.sys := by cases second <;> rfl
@[simp] theorem Commons.updHost_jtag (c : Commons) (second : Bool) (f : HostPort → HostPort) : (c.updHost second f).jtag = c.jtag := by cases second <;> rfl
@[simp] theorem Commons.updHost_writes (c : Commons) (second : Bool) (f : HostPort → HostPort) : (c.updHost second f).writes = c.writes := by cases second <;> rfl
@[simp] theorem Commons.updHost_lastRead (c : Commons) (second : Bool) (f : HostPort → HostPort) : (c.updHost second f).lastRead = c.lastRead := by cases second <;> rfl
@[simp] theorem Commons.updPort_port (c : Commons) (p : RPort) (f : RfPort → RfPort) : (c.updPort p f).port p = f (c.port p) := by
  cases p <;> rfl
theorem Commons.updPort_other (c : Commons) (p q : RPort) (f : RfPort → RfPort) (h : q ≠ p) :
    (c.updPort p f).port q = c.port q := by cases p <;> cases q <;> first | rfl | exact absurd rfl h
@[simp] theorem Commons.updEth_eth (c : Commons) (second : Bool) (f : EthState → EthState) :
    (c.updEth second f).eth second = f (c.eth second) := by cases second <;> rfl
@[simp] theorem Commons.updHost_host (c : Commons) (second : Bool) (f : HostPort → HostPort) :
    (c.updHost second f).host second = f (c.host second) := by cases second <;> rfl

/-! ## A side -/


/-! Side.updR -/

@[simp] theorem Side.updR_regs (d : Side) (f : Tab Word → Tab Word) : (d.updR f).regs = f d.regs := rfl
@[simp] theorem Side.updR_errAt (d : Side) (f : Tab Word → Tab Word) : (d.updR f).errAt = d.errAt := rfl
@[simp] theorem Side.updR_errNow (d : Side) (f : Tab Word → Tab Word) : (d.updR f).errNow = d.errNow := rfl
@[simp] theorem Side.updR_now (d : Side) (f : Tab Word → Tab Word) : (d.updR f).now = d.now := rfl
@[simp] theorem Side.updR_tick (d : Side) (f : Tab Word → Tab Word) : (d.updR f).tick = d.tick := rfl
@[simp] theorem Side.updR_point (d : Side) (f : Tab Word → Tab Word) : (d.updR f).point = d.point := rfl
@[simp] theorem Side.updR_token (d : Side) (f : Tab Word → Tab Word) : (d.updR f).token = d.token := rfl
@[simp] theorem Side.updR_inq (d : Side) (f : Tab Word → Tab Word) : (d.updR f).inq = d.inq := rfl
@[simp] theorem Side.updR_seen (d : Side) (f : Tab Word → Tab Word) : (d.updR f).seen = d.seen := rfl
@[simp] theorem Side.updR_outq (d : Side) (f : Tab Word → Tab Word) : (d.updR f).outq = d.outq := rfl
@[simp] theorem Side.updR_trng (d : Side) (f : Tab Word → Tab Word) : (d.updR f).trng = d.trng := rfl
@[simp] theorem Side.updR_draws (d : Side) (f : Tab Word → Tab Word) : (d.updR f).draws = d.draws := rfl
@[simp] theorem Side.updR_evt (d : Side) (f : Tab Word → Tab Word) : (d.updR f).evt = d.evt := rfl
@[simp] theorem Side.updR_reports (d : Side) (f : Tab Word → Tab Word) : (d.updR f).reports = d.reports := rfl
@[simp] theorem Side.updR_disp (d : Side) (f : Tab Word → Tab Word) : (d.updR f).disp = d.disp := rfl
@[simp] theorem Side.updR_strand (d : Side) (f : Tab Word → Tab Word) : (d.updR f).strand = d.strand := rfl
@[simp] theorem Side.updR_mesh (d : Side) (f : Tab Word → Tab Word) : (d.updR f).mesh = d.mesh := rfl
@[simp] theorem Side.updR_node (d : Side) (f : Tab Word → Tab Word) : (d.updR f).node = d.node := rfl
@[simp] theorem Side.updR_key (d : Side) (f : Tab Word → Tab Word) : (d.updR f).key = d.key := rfl
@[simp] theorem Side.updR_mram (d : Side) (f : Tab Word → Tab Word) : (d.updR f).mram = d.mram := rfl
@[simp] theorem Side.updR_fw (d : Side) (f : Tab Word → Tab Word) : (d.updR f).fw = d.fw := rfl
@[simp] theorem Side.updR_cmem (d : Side) (f : Tab Word → Tab Word) : (d.updR f).cmem = d.cmem := rfl
@[simp] theorem Side.updR_pend (d : Side) (f : Tab Word → Tab Word) : (d.updR f).pend = d.pend := rfl
@[simp] theorem Side.updR_trowel (d : Side) (f : Tab Word → Tab Word) : (d.updR f).trowel = d.trowel := rfl
@[simp] theorem Side.updR_sess (d : Side) (f : Tab Word → Tab Word) : (d.updR f).sess = d.sess := rfl
@[simp] theorem Side.updR_pmb (d : Side) (f : Tab Word → Tab Word) : (d.updR f).pmb = d.pmb := rfl
@[simp] theorem Side.updR_air (d : Side) (f : Tab Word → Tab Word) : (d.updR f).air = d.air := rfl
@[simp] theorem Side.updR_chans (d : Side) (f : Tab Word → Tab Word) : (d.updR f).chans = d.chans := rfl
@[simp] theorem Side.updR_reads (d : Side) (f : Tab Word → Tab Word) : (d.updR f).reads = d.reads := rfl

/-! Side.count -/

@[simp] theorem Side.count_regs (d : Side) (page off : Nat) : (d.count page off).regs = bump d.regs page off := rfl
@[simp] theorem Side.count_errAt (d : Side) (page off : Nat) : (d.count page off).errAt = d.errAt := rfl
@[simp] theorem Side.count_errNow (d : Side) (page off : Nat) : (d.count page off).errNow = d.errNow := rfl
@[simp] theorem Side.count_now (d : Side) (page off : Nat) : (d.count page off).now = d.now := rfl
@[simp] theorem Side.count_tick (d : Side) (page off : Nat) : (d.count page off).tick = d.tick := rfl
@[simp] theorem Side.count_point (d : Side) (page off : Nat) : (d.count page off).point = d.point := rfl
@[simp] theorem Side.count_token (d : Side) (page off : Nat) : (d.count page off).token = d.token := rfl
@[simp] theorem Side.count_inq (d : Side) (page off : Nat) : (d.count page off).inq = d.inq := rfl
@[simp] theorem Side.count_seen (d : Side) (page off : Nat) : (d.count page off).seen = d.seen := rfl
@[simp] theorem Side.count_outq (d : Side) (page off : Nat) : (d.count page off).outq = d.outq := rfl
@[simp] theorem Side.count_trng (d : Side) (page off : Nat) : (d.count page off).trng = d.trng := rfl
@[simp] theorem Side.count_draws (d : Side) (page off : Nat) : (d.count page off).draws = d.draws := rfl
@[simp] theorem Side.count_evt (d : Side) (page off : Nat) : (d.count page off).evt = d.evt := rfl
@[simp] theorem Side.count_reports (d : Side) (page off : Nat) : (d.count page off).reports = d.reports := rfl
@[simp] theorem Side.count_disp (d : Side) (page off : Nat) : (d.count page off).disp = d.disp := rfl
@[simp] theorem Side.count_strand (d : Side) (page off : Nat) : (d.count page off).strand = d.strand := rfl
@[simp] theorem Side.count_mesh (d : Side) (page off : Nat) : (d.count page off).mesh = d.mesh := rfl
@[simp] theorem Side.count_node (d : Side) (page off : Nat) : (d.count page off).node = d.node := rfl
@[simp] theorem Side.count_key (d : Side) (page off : Nat) : (d.count page off).key = d.key := rfl
@[simp] theorem Side.count_mram (d : Side) (page off : Nat) : (d.count page off).mram = d.mram := rfl
@[simp] theorem Side.count_fw (d : Side) (page off : Nat) : (d.count page off).fw = d.fw := rfl
@[simp] theorem Side.count_cmem (d : Side) (page off : Nat) : (d.count page off).cmem = d.cmem := rfl
@[simp] theorem Side.count_pend (d : Side) (page off : Nat) : (d.count page off).pend = d.pend := rfl
@[simp] theorem Side.count_trowel (d : Side) (page off : Nat) : (d.count page off).trowel = d.trowel := rfl
@[simp] theorem Side.count_sess (d : Side) (page off : Nat) : (d.count page off).sess = d.sess := rfl
@[simp] theorem Side.count_pmb (d : Side) (page off : Nat) : (d.count page off).pmb = d.pmb := rfl
@[simp] theorem Side.count_air (d : Side) (page off : Nat) : (d.count page off).air = d.air := rfl
@[simp] theorem Side.count_chans (d : Side) (page off : Nat) : (d.count page off).chans = d.chans := rfl
@[simp] theorem Side.count_reads (d : Side) (page off : Nat) : (d.count page off).reads = d.reads := rfl

/-! Side.err -/

@[simp] theorem Side.err_regs (d : Side) (page bit : Nat) : (d.err page bit).regs = setErrCode d.regs page bit (bit + 1) d.now (d.errOffered page) := rfl
@[simp] theorem Side.err_errAt (d : Side) (page bit : Nat) : (d.err page bit).errAt = d.point := rfl
@[simp] theorem Side.err_errNow (d : Side) (page bit : Nat) : (d.err page bit).errNow = (if d.errAt = d.point then d.errNow else []).put page
      (firstNow d.regs page bit (d.errOffered page)) := rfl
@[simp] theorem Side.err_now (d : Side) (page bit : Nat) : (d.err page bit).now = d.now := rfl
@[simp] theorem Side.err_tick (d : Side) (page bit : Nat) : (d.err page bit).tick = d.tick := rfl
@[simp] theorem Side.err_point (d : Side) (page bit : Nat) : (d.err page bit).point = d.point := rfl
@[simp] theorem Side.err_token (d : Side) (page bit : Nat) : (d.err page bit).token = d.token := rfl
@[simp] theorem Side.err_inq (d : Side) (page bit : Nat) : (d.err page bit).inq = d.inq := rfl
@[simp] theorem Side.err_seen (d : Side) (page bit : Nat) : (d.err page bit).seen = d.seen := rfl
@[simp] theorem Side.err_outq (d : Side) (page bit : Nat) : (d.err page bit).outq = d.outq := rfl
@[simp] theorem Side.err_trng (d : Side) (page bit : Nat) : (d.err page bit).trng = d.trng := rfl
@[simp] theorem Side.err_draws (d : Side) (page bit : Nat) : (d.err page bit).draws = d.draws := rfl
@[simp] theorem Side.err_evt (d : Side) (page bit : Nat) : (d.err page bit).evt = d.evt := rfl
@[simp] theorem Side.err_reports (d : Side) (page bit : Nat) : (d.err page bit).reports = d.reports := rfl
@[simp] theorem Side.err_disp (d : Side) (page bit : Nat) : (d.err page bit).disp = d.disp := rfl
@[simp] theorem Side.err_strand (d : Side) (page bit : Nat) : (d.err page bit).strand = d.strand := rfl
@[simp] theorem Side.err_mesh (d : Side) (page bit : Nat) : (d.err page bit).mesh = d.mesh := rfl
@[simp] theorem Side.err_node (d : Side) (page bit : Nat) : (d.err page bit).node = d.node := rfl
@[simp] theorem Side.err_key (d : Side) (page bit : Nat) : (d.err page bit).key = d.key := rfl
@[simp] theorem Side.err_mram (d : Side) (page bit : Nat) : (d.err page bit).mram = d.mram := rfl
@[simp] theorem Side.err_fw (d : Side) (page bit : Nat) : (d.err page bit).fw = d.fw := rfl
@[simp] theorem Side.err_cmem (d : Side) (page bit : Nat) : (d.err page bit).cmem = d.cmem := rfl
@[simp] theorem Side.err_pend (d : Side) (page bit : Nat) : (d.err page bit).pend = d.pend := rfl
@[simp] theorem Side.err_trowel (d : Side) (page bit : Nat) : (d.err page bit).trowel = d.trowel := rfl
@[simp] theorem Side.err_sess (d : Side) (page bit : Nat) : (d.err page bit).sess = d.sess := rfl
@[simp] theorem Side.err_pmb (d : Side) (page bit : Nat) : (d.err page bit).pmb = d.pmb := rfl
@[simp] theorem Side.err_air (d : Side) (page bit : Nat) : (d.err page bit).air = d.air := rfl
@[simp] theorem Side.err_chans (d : Side) (page bit : Nat) : (d.err page bit).chans = d.chans := rfl
@[simp] theorem Side.err_reads (d : Side) (page bit : Nat) : (d.err page bit).reads = d.reads := rfl

/-! Side.emit -/

@[simp] theorem Side.emit_regs (d : Side) (t : TxnBody) : (d.emit t).regs = d.regs := rfl
@[simp] theorem Side.emit_errAt (d : Side) (t : TxnBody) : (d.emit t).errAt = d.errAt := rfl
@[simp] theorem Side.emit_errNow (d : Side) (t : TxnBody) : (d.emit t).errNow = d.errNow := rfl
@[simp] theorem Side.emit_now (d : Side) (t : TxnBody) : (d.emit t).now = d.now := rfl
@[simp] theorem Side.emit_tick (d : Side) (t : TxnBody) : (d.emit t).tick = d.tick := rfl
@[simp] theorem Side.emit_point (d : Side) (t : TxnBody) : (d.emit t).point = d.point := rfl
@[simp] theorem Side.emit_token (d : Side) (t : TxnBody) : (d.emit t).token = d.token := rfl
@[simp] theorem Side.emit_inq (d : Side) (t : TxnBody) : (d.emit t).inq = d.inq := rfl
@[simp] theorem Side.emit_seen (d : Side) (t : TxnBody) : (d.emit t).seen = d.seen := rfl
@[simp] theorem Side.emit_outq (d : Side) (t : TxnBody) : (d.emit t).outq = d.outq ++ [{ body := t, token := d.token, point := d.point }] := rfl
@[simp] theorem Side.emit_trng (d : Side) (t : TxnBody) : (d.emit t).trng = d.trng := rfl
@[simp] theorem Side.emit_draws (d : Side) (t : TxnBody) : (d.emit t).draws = d.draws := rfl
@[simp] theorem Side.emit_evt (d : Side) (t : TxnBody) : (d.emit t).evt = d.evt := rfl
@[simp] theorem Side.emit_reports (d : Side) (t : TxnBody) : (d.emit t).reports = d.reports := rfl
@[simp] theorem Side.emit_disp (d : Side) (t : TxnBody) : (d.emit t).disp = d.disp := rfl
@[simp] theorem Side.emit_strand (d : Side) (t : TxnBody) : (d.emit t).strand = d.strand := rfl
@[simp] theorem Side.emit_mesh (d : Side) (t : TxnBody) : (d.emit t).mesh = d.mesh := rfl
@[simp] theorem Side.emit_node (d : Side) (t : TxnBody) : (d.emit t).node = d.node := rfl
@[simp] theorem Side.emit_key (d : Side) (t : TxnBody) : (d.emit t).key = d.key := rfl
@[simp] theorem Side.emit_mram (d : Side) (t : TxnBody) : (d.emit t).mram = d.mram := rfl
@[simp] theorem Side.emit_fw (d : Side) (t : TxnBody) : (d.emit t).fw = d.fw := rfl
@[simp] theorem Side.emit_cmem (d : Side) (t : TxnBody) : (d.emit t).cmem = d.cmem := rfl
@[simp] theorem Side.emit_pend (d : Side) (t : TxnBody) : (d.emit t).pend = d.pend := rfl
@[simp] theorem Side.emit_trowel (d : Side) (t : TxnBody) : (d.emit t).trowel = d.trowel := rfl
@[simp] theorem Side.emit_sess (d : Side) (t : TxnBody) : (d.emit t).sess = d.sess := rfl
@[simp] theorem Side.emit_pmb (d : Side) (t : TxnBody) : (d.emit t).pmb = d.pmb := rfl
@[simp] theorem Side.emit_air (d : Side) (t : TxnBody) : (d.emit t).air = d.air := rfl
@[simp] theorem Side.emit_chans (d : Side) (t : TxnBody) : (d.emit t).chans = d.chans := rfl
@[simp] theorem Side.emit_reads (d : Side) (t : TxnBody) : (d.emit t).reads = d.reads := rfl

/-! Side.updFw -/

@[simp] theorem Side.updFw_regs (d : Side) (f : FwState → FwState) : (d.updFw f).regs = d.regs := rfl
@[simp] theorem Side.updFw_errAt (d : Side) (f : FwState → FwState) : (d.updFw f).errAt = d.errAt := rfl
@[simp] theorem Side.updFw_errNow (d : Side) (f : FwState → FwState) : (d.updFw f).errNow = d.errNow := rfl
@[simp] theorem Side.updFw_now (d : Side) (f : FwState → FwState) : (d.updFw f).now = d.now := rfl
@[simp] theorem Side.updFw_tick (d : Side) (f : FwState → FwState) : (d.updFw f).tick = d.tick := rfl
@[simp] theorem Side.updFw_point (d : Side) (f : FwState → FwState) : (d.updFw f).point = d.point := rfl
@[simp] theorem Side.updFw_token (d : Side) (f : FwState → FwState) : (d.updFw f).token = d.token := rfl
@[simp] theorem Side.updFw_inq (d : Side) (f : FwState → FwState) : (d.updFw f).inq = d.inq := rfl
@[simp] theorem Side.updFw_seen (d : Side) (f : FwState → FwState) : (d.updFw f).seen = d.seen := rfl
@[simp] theorem Side.updFw_outq (d : Side) (f : FwState → FwState) : (d.updFw f).outq = d.outq := rfl
@[simp] theorem Side.updFw_trng (d : Side) (f : FwState → FwState) : (d.updFw f).trng = d.trng := rfl
@[simp] theorem Side.updFw_draws (d : Side) (f : FwState → FwState) : (d.updFw f).draws = d.draws := rfl
@[simp] theorem Side.updFw_evt (d : Side) (f : FwState → FwState) : (d.updFw f).evt = d.evt := rfl
@[simp] theorem Side.updFw_reports (d : Side) (f : FwState → FwState) : (d.updFw f).reports = d.reports := rfl
@[simp] theorem Side.updFw_disp (d : Side) (f : FwState → FwState) : (d.updFw f).disp = d.disp := rfl
@[simp] theorem Side.updFw_strand (d : Side) (f : FwState → FwState) : (d.updFw f).strand = d.strand := rfl
@[simp] theorem Side.updFw_mesh (d : Side) (f : FwState → FwState) : (d.updFw f).mesh = d.mesh := rfl
@[simp] theorem Side.updFw_node (d : Side) (f : FwState → FwState) : (d.updFw f).node = d.node := rfl
@[simp] theorem Side.updFw_key (d : Side) (f : FwState → FwState) : (d.updFw f).key = d.key := rfl
@[simp] theorem Side.updFw_mram (d : Side) (f : FwState → FwState) : (d.updFw f).mram = d.mram := rfl
@[simp] theorem Side.updFw_fw (d : Side) (f : FwState → FwState) : (d.updFw f).fw = f d.fw := rfl
@[simp] theorem Side.updFw_cmem (d : Side) (f : FwState → FwState) : (d.updFw f).cmem = d.cmem := rfl
@[simp] theorem Side.updFw_pend (d : Side) (f : FwState → FwState) : (d.updFw f).pend = d.pend := rfl
@[simp] theorem Side.updFw_trowel (d : Side) (f : FwState → FwState) : (d.updFw f).trowel = d.trowel := rfl
@[simp] theorem Side.updFw_sess (d : Side) (f : FwState → FwState) : (d.updFw f).sess = d.sess := rfl
@[simp] theorem Side.updFw_pmb (d : Side) (f : FwState → FwState) : (d.updFw f).pmb = d.pmb := rfl
@[simp] theorem Side.updFw_air (d : Side) (f : FwState → FwState) : (d.updFw f).air = d.air := rfl
@[simp] theorem Side.updFw_chans (d : Side) (f : FwState → FwState) : (d.updFw f).chans = d.chans := rfl
@[simp] theorem Side.updFw_reads (d : Side) (f : FwState → FwState) : (d.updFw f).reads = d.reads := rfl

/-! Side.updKey -/

@[simp] theorem Side.updKey_regs (d : Side) (f : KeyState → KeyState) : (d.updKey f).regs = d.regs := rfl
@[simp] theorem Side.updKey_errAt (d : Side) (f : KeyState → KeyState) : (d.updKey f).errAt = d.errAt := rfl
@[simp] theorem Side.updKey_errNow (d : Side) (f : KeyState → KeyState) : (d.updKey f).errNow = d.errNow := rfl
@[simp] theorem Side.updKey_now (d : Side) (f : KeyState → KeyState) : (d.updKey f).now = d.now := rfl
@[simp] theorem Side.updKey_tick (d : Side) (f : KeyState → KeyState) : (d.updKey f).tick = d.tick := rfl
@[simp] theorem Side.updKey_point (d : Side) (f : KeyState → KeyState) : (d.updKey f).point = d.point := rfl
@[simp] theorem Side.updKey_token (d : Side) (f : KeyState → KeyState) : (d.updKey f).token = d.token := rfl
@[simp] theorem Side.updKey_inq (d : Side) (f : KeyState → KeyState) : (d.updKey f).inq = d.inq := rfl
@[simp] theorem Side.updKey_seen (d : Side) (f : KeyState → KeyState) : (d.updKey f).seen = d.seen := rfl
@[simp] theorem Side.updKey_outq (d : Side) (f : KeyState → KeyState) : (d.updKey f).outq = d.outq := rfl
@[simp] theorem Side.updKey_trng (d : Side) (f : KeyState → KeyState) : (d.updKey f).trng = d.trng := rfl
@[simp] theorem Side.updKey_draws (d : Side) (f : KeyState → KeyState) : (d.updKey f).draws = d.draws := rfl
@[simp] theorem Side.updKey_evt (d : Side) (f : KeyState → KeyState) : (d.updKey f).evt = d.evt := rfl
@[simp] theorem Side.updKey_reports (d : Side) (f : KeyState → KeyState) : (d.updKey f).reports = d.reports := rfl
@[simp] theorem Side.updKey_disp (d : Side) (f : KeyState → KeyState) : (d.updKey f).disp = d.disp := rfl
@[simp] theorem Side.updKey_strand (d : Side) (f : KeyState → KeyState) : (d.updKey f).strand = d.strand := rfl
@[simp] theorem Side.updKey_mesh (d : Side) (f : KeyState → KeyState) : (d.updKey f).mesh = d.mesh := rfl
@[simp] theorem Side.updKey_node (d : Side) (f : KeyState → KeyState) : (d.updKey f).node = d.node := rfl
@[simp] theorem Side.updKey_key (d : Side) (f : KeyState → KeyState) : (d.updKey f).key = f d.key := rfl
@[simp] theorem Side.updKey_mram (d : Side) (f : KeyState → KeyState) : (d.updKey f).mram = d.mram := rfl
@[simp] theorem Side.updKey_fw (d : Side) (f : KeyState → KeyState) : (d.updKey f).fw = d.fw := rfl
@[simp] theorem Side.updKey_cmem (d : Side) (f : KeyState → KeyState) : (d.updKey f).cmem = d.cmem := rfl
@[simp] theorem Side.updKey_pend (d : Side) (f : KeyState → KeyState) : (d.updKey f).pend = d.pend := rfl
@[simp] theorem Side.updKey_trowel (d : Side) (f : KeyState → KeyState) : (d.updKey f).trowel = d.trowel := rfl
@[simp] theorem Side.updKey_sess (d : Side) (f : KeyState → KeyState) : (d.updKey f).sess = d.sess := rfl
@[simp] theorem Side.updKey_pmb (d : Side) (f : KeyState → KeyState) : (d.updKey f).pmb = d.pmb := rfl
@[simp] theorem Side.updKey_air (d : Side) (f : KeyState → KeyState) : (d.updKey f).air = d.air := rfl
@[simp] theorem Side.updKey_chans (d : Side) (f : KeyState → KeyState) : (d.updKey f).chans = d.chans := rfl
@[simp] theorem Side.updKey_reads (d : Side) (f : KeyState → KeyState) : (d.updKey f).reads = d.reads := rfl

/-! Side.updMram -/

@[simp] theorem Side.updMram_regs (d : Side) (f : MramState → MramState) : (d.updMram f).regs = d.regs := rfl
@[simp] theorem Side.updMram_errAt (d : Side) (f : MramState → MramState) : (d.updMram f).errAt = d.errAt := rfl
@[simp] theorem Side.updMram_errNow (d : Side) (f : MramState → MramState) : (d.updMram f).errNow = d.errNow := rfl
@[simp] theorem Side.updMram_now (d : Side) (f : MramState → MramState) : (d.updMram f).now = d.now := rfl
@[simp] theorem Side.updMram_tick (d : Side) (f : MramState → MramState) : (d.updMram f).tick = d.tick := rfl
@[simp] theorem Side.updMram_point (d : Side) (f : MramState → MramState) : (d.updMram f).point = d.point := rfl
@[simp] theorem Side.updMram_token (d : Side) (f : MramState → MramState) : (d.updMram f).token = d.token := rfl
@[simp] theorem Side.updMram_inq (d : Side) (f : MramState → MramState) : (d.updMram f).inq = d.inq := rfl
@[simp] theorem Side.updMram_seen (d : Side) (f : MramState → MramState) : (d.updMram f).seen = d.seen := rfl
@[simp] theorem Side.updMram_outq (d : Side) (f : MramState → MramState) : (d.updMram f).outq = d.outq := rfl
@[simp] theorem Side.updMram_trng (d : Side) (f : MramState → MramState) : (d.updMram f).trng = d.trng := rfl
@[simp] theorem Side.updMram_draws (d : Side) (f : MramState → MramState) : (d.updMram f).draws = d.draws := rfl
@[simp] theorem Side.updMram_evt (d : Side) (f : MramState → MramState) : (d.updMram f).evt = d.evt := rfl
@[simp] theorem Side.updMram_reports (d : Side) (f : MramState → MramState) : (d.updMram f).reports = d.reports := rfl
@[simp] theorem Side.updMram_disp (d : Side) (f : MramState → MramState) : (d.updMram f).disp = d.disp := rfl
@[simp] theorem Side.updMram_strand (d : Side) (f : MramState → MramState) : (d.updMram f).strand = d.strand := rfl
@[simp] theorem Side.updMram_mesh (d : Side) (f : MramState → MramState) : (d.updMram f).mesh = d.mesh := rfl
@[simp] theorem Side.updMram_node (d : Side) (f : MramState → MramState) : (d.updMram f).node = d.node := rfl
@[simp] theorem Side.updMram_key (d : Side) (f : MramState → MramState) : (d.updMram f).key = d.key := rfl
@[simp] theorem Side.updMram_mram (d : Side) (f : MramState → MramState) : (d.updMram f).mram = f d.mram := rfl
@[simp] theorem Side.updMram_fw (d : Side) (f : MramState → MramState) : (d.updMram f).fw = d.fw := rfl
@[simp] theorem Side.updMram_cmem (d : Side) (f : MramState → MramState) : (d.updMram f).cmem = d.cmem := rfl
@[simp] theorem Side.updMram_pend (d : Side) (f : MramState → MramState) : (d.updMram f).pend = d.pend := rfl
@[simp] theorem Side.updMram_trowel (d : Side) (f : MramState → MramState) : (d.updMram f).trowel = d.trowel := rfl
@[simp] theorem Side.updMram_sess (d : Side) (f : MramState → MramState) : (d.updMram f).sess = d.sess := rfl
@[simp] theorem Side.updMram_pmb (d : Side) (f : MramState → MramState) : (d.updMram f).pmb = d.pmb := rfl
@[simp] theorem Side.updMram_air (d : Side) (f : MramState → MramState) : (d.updMram f).air = d.air := rfl
@[simp] theorem Side.updMram_chans (d : Side) (f : MramState → MramState) : (d.updMram f).chans = d.chans := rfl
@[simp] theorem Side.updMram_reads (d : Side) (f : MramState → MramState) : (d.updMram f).reads = d.reads := rfl

/-! Side.updMesh -/

@[simp] theorem Side.updMesh_regs (d : Side) (f : MeshState → MeshState) : (d.updMesh f).regs = d.regs := rfl
@[simp] theorem Side.updMesh_errAt (d : Side) (f : MeshState → MeshState) : (d.updMesh f).errAt = d.errAt := rfl
@[simp] theorem Side.updMesh_errNow (d : Side) (f : MeshState → MeshState) : (d.updMesh f).errNow = d.errNow := rfl
@[simp] theorem Side.updMesh_now (d : Side) (f : MeshState → MeshState) : (d.updMesh f).now = d.now := rfl
@[simp] theorem Side.updMesh_tick (d : Side) (f : MeshState → MeshState) : (d.updMesh f).tick = d.tick := rfl
@[simp] theorem Side.updMesh_point (d : Side) (f : MeshState → MeshState) : (d.updMesh f).point = d.point := rfl
@[simp] theorem Side.updMesh_token (d : Side) (f : MeshState → MeshState) : (d.updMesh f).token = d.token := rfl
@[simp] theorem Side.updMesh_inq (d : Side) (f : MeshState → MeshState) : (d.updMesh f).inq = d.inq := rfl
@[simp] theorem Side.updMesh_seen (d : Side) (f : MeshState → MeshState) : (d.updMesh f).seen = d.seen := rfl
@[simp] theorem Side.updMesh_outq (d : Side) (f : MeshState → MeshState) : (d.updMesh f).outq = d.outq := rfl
@[simp] theorem Side.updMesh_trng (d : Side) (f : MeshState → MeshState) : (d.updMesh f).trng = d.trng := rfl
@[simp] theorem Side.updMesh_draws (d : Side) (f : MeshState → MeshState) : (d.updMesh f).draws = d.draws := rfl
@[simp] theorem Side.updMesh_evt (d : Side) (f : MeshState → MeshState) : (d.updMesh f).evt = d.evt := rfl
@[simp] theorem Side.updMesh_reports (d : Side) (f : MeshState → MeshState) : (d.updMesh f).reports = d.reports := rfl
@[simp] theorem Side.updMesh_disp (d : Side) (f : MeshState → MeshState) : (d.updMesh f).disp = d.disp := rfl
@[simp] theorem Side.updMesh_strand (d : Side) (f : MeshState → MeshState) : (d.updMesh f).strand = d.strand := rfl
@[simp] theorem Side.updMesh_mesh (d : Side) (f : MeshState → MeshState) : (d.updMesh f).mesh = f d.mesh := rfl
@[simp] theorem Side.updMesh_node (d : Side) (f : MeshState → MeshState) : (d.updMesh f).node = d.node := rfl
@[simp] theorem Side.updMesh_key (d : Side) (f : MeshState → MeshState) : (d.updMesh f).key = d.key := rfl
@[simp] theorem Side.updMesh_mram (d : Side) (f : MeshState → MeshState) : (d.updMesh f).mram = d.mram := rfl
@[simp] theorem Side.updMesh_fw (d : Side) (f : MeshState → MeshState) : (d.updMesh f).fw = d.fw := rfl
@[simp] theorem Side.updMesh_cmem (d : Side) (f : MeshState → MeshState) : (d.updMesh f).cmem = d.cmem := rfl
@[simp] theorem Side.updMesh_pend (d : Side) (f : MeshState → MeshState) : (d.updMesh f).pend = d.pend := rfl
@[simp] theorem Side.updMesh_trowel (d : Side) (f : MeshState → MeshState) : (d.updMesh f).trowel = d.trowel := rfl
@[simp] theorem Side.updMesh_sess (d : Side) (f : MeshState → MeshState) : (d.updMesh f).sess = d.sess := rfl
@[simp] theorem Side.updMesh_pmb (d : Side) (f : MeshState → MeshState) : (d.updMesh f).pmb = d.pmb := rfl
@[simp] theorem Side.updMesh_air (d : Side) (f : MeshState → MeshState) : (d.updMesh f).air = d.air := rfl
@[simp] theorem Side.updMesh_chans (d : Side) (f : MeshState → MeshState) : (d.updMesh f).chans = d.chans := rfl
@[simp] theorem Side.updMesh_reads (d : Side) (f : MeshState → MeshState) : (d.updMesh f).reads = d.reads := rfl

/-! Side.updNode -/

@[simp] theorem Side.updNode_regs (d : Side) (f : NodeState → NodeState) : (d.updNode f).regs = d.regs := rfl
@[simp] theorem Side.updNode_errAt (d : Side) (f : NodeState → NodeState) : (d.updNode f).errAt = d.errAt := rfl
@[simp] theorem Side.updNode_errNow (d : Side) (f : NodeState → NodeState) : (d.updNode f).errNow = d.errNow := rfl
@[simp] theorem Side.updNode_now (d : Side) (f : NodeState → NodeState) : (d.updNode f).now = d.now := rfl
@[simp] theorem Side.updNode_tick (d : Side) (f : NodeState → NodeState) : (d.updNode f).tick = d.tick := rfl
@[simp] theorem Side.updNode_point (d : Side) (f : NodeState → NodeState) : (d.updNode f).point = d.point := rfl
@[simp] theorem Side.updNode_token (d : Side) (f : NodeState → NodeState) : (d.updNode f).token = d.token := rfl
@[simp] theorem Side.updNode_inq (d : Side) (f : NodeState → NodeState) : (d.updNode f).inq = d.inq := rfl
@[simp] theorem Side.updNode_seen (d : Side) (f : NodeState → NodeState) : (d.updNode f).seen = d.seen := rfl
@[simp] theorem Side.updNode_outq (d : Side) (f : NodeState → NodeState) : (d.updNode f).outq = d.outq := rfl
@[simp] theorem Side.updNode_trng (d : Side) (f : NodeState → NodeState) : (d.updNode f).trng = d.trng := rfl
@[simp] theorem Side.updNode_draws (d : Side) (f : NodeState → NodeState) : (d.updNode f).draws = d.draws := rfl
@[simp] theorem Side.updNode_evt (d : Side) (f : NodeState → NodeState) : (d.updNode f).evt = d.evt := rfl
@[simp] theorem Side.updNode_reports (d : Side) (f : NodeState → NodeState) : (d.updNode f).reports = d.reports := rfl
@[simp] theorem Side.updNode_disp (d : Side) (f : NodeState → NodeState) : (d.updNode f).disp = d.disp := rfl
@[simp] theorem Side.updNode_strand (d : Side) (f : NodeState → NodeState) : (d.updNode f).strand = d.strand := rfl
@[simp] theorem Side.updNode_mesh (d : Side) (f : NodeState → NodeState) : (d.updNode f).mesh = d.mesh := rfl
@[simp] theorem Side.updNode_node (d : Side) (f : NodeState → NodeState) : (d.updNode f).node = f d.node := rfl
@[simp] theorem Side.updNode_key (d : Side) (f : NodeState → NodeState) : (d.updNode f).key = d.key := rfl
@[simp] theorem Side.updNode_mram (d : Side) (f : NodeState → NodeState) : (d.updNode f).mram = d.mram := rfl
@[simp] theorem Side.updNode_fw (d : Side) (f : NodeState → NodeState) : (d.updNode f).fw = d.fw := rfl
@[simp] theorem Side.updNode_cmem (d : Side) (f : NodeState → NodeState) : (d.updNode f).cmem = d.cmem := rfl
@[simp] theorem Side.updNode_pend (d : Side) (f : NodeState → NodeState) : (d.updNode f).pend = d.pend := rfl
@[simp] theorem Side.updNode_trowel (d : Side) (f : NodeState → NodeState) : (d.updNode f).trowel = d.trowel := rfl
@[simp] theorem Side.updNode_sess (d : Side) (f : NodeState → NodeState) : (d.updNode f).sess = d.sess := rfl
@[simp] theorem Side.updNode_pmb (d : Side) (f : NodeState → NodeState) : (d.updNode f).pmb = d.pmb := rfl
@[simp] theorem Side.updNode_air (d : Side) (f : NodeState → NodeState) : (d.updNode f).air = d.air := rfl
@[simp] theorem Side.updNode_chans (d : Side) (f : NodeState → NodeState) : (d.updNode f).chans = d.chans := rfl
@[simp] theorem Side.updNode_reads (d : Side) (f : NodeState → NodeState) : (d.updNode f).reads = d.reads := rfl

/-! Side.updPend -/

@[simp] theorem Side.updPend_regs (d : Side) (f : PendState → PendState) : (d.updPend f).regs = d.regs := rfl
@[simp] theorem Side.updPend_errAt (d : Side) (f : PendState → PendState) : (d.updPend f).errAt = d.errAt := rfl
@[simp] theorem Side.updPend_errNow (d : Side) (f : PendState → PendState) : (d.updPend f).errNow = d.errNow := rfl
@[simp] theorem Side.updPend_now (d : Side) (f : PendState → PendState) : (d.updPend f).now = d.now := rfl
@[simp] theorem Side.updPend_tick (d : Side) (f : PendState → PendState) : (d.updPend f).tick = d.tick := rfl
@[simp] theorem Side.updPend_point (d : Side) (f : PendState → PendState) : (d.updPend f).point = d.point := rfl
@[simp] theorem Side.updPend_token (d : Side) (f : PendState → PendState) : (d.updPend f).token = d.token := rfl
@[simp] theorem Side.updPend_inq (d : Side) (f : PendState → PendState) : (d.updPend f).inq = d.inq := rfl
@[simp] theorem Side.updPend_seen (d : Side) (f : PendState → PendState) : (d.updPend f).seen = d.seen := rfl
@[simp] theorem Side.updPend_outq (d : Side) (f : PendState → PendState) : (d.updPend f).outq = d.outq := rfl
@[simp] theorem Side.updPend_trng (d : Side) (f : PendState → PendState) : (d.updPend f).trng = d.trng := rfl
@[simp] theorem Side.updPend_draws (d : Side) (f : PendState → PendState) : (d.updPend f).draws = d.draws := rfl
@[simp] theorem Side.updPend_evt (d : Side) (f : PendState → PendState) : (d.updPend f).evt = d.evt := rfl
@[simp] theorem Side.updPend_reports (d : Side) (f : PendState → PendState) : (d.updPend f).reports = d.reports := rfl
@[simp] theorem Side.updPend_disp (d : Side) (f : PendState → PendState) : (d.updPend f).disp = d.disp := rfl
@[simp] theorem Side.updPend_strand (d : Side) (f : PendState → PendState) : (d.updPend f).strand = d.strand := rfl
@[simp] theorem Side.updPend_mesh (d : Side) (f : PendState → PendState) : (d.updPend f).mesh = d.mesh := rfl
@[simp] theorem Side.updPend_node (d : Side) (f : PendState → PendState) : (d.updPend f).node = d.node := rfl
@[simp] theorem Side.updPend_key (d : Side) (f : PendState → PendState) : (d.updPend f).key = d.key := rfl
@[simp] theorem Side.updPend_mram (d : Side) (f : PendState → PendState) : (d.updPend f).mram = d.mram := rfl
@[simp] theorem Side.updPend_fw (d : Side) (f : PendState → PendState) : (d.updPend f).fw = d.fw := rfl
@[simp] theorem Side.updPend_cmem (d : Side) (f : PendState → PendState) : (d.updPend f).cmem = d.cmem := rfl
@[simp] theorem Side.updPend_pend (d : Side) (f : PendState → PendState) : (d.updPend f).pend = f d.pend := rfl
@[simp] theorem Side.updPend_trowel (d : Side) (f : PendState → PendState) : (d.updPend f).trowel = d.trowel := rfl
@[simp] theorem Side.updPend_sess (d : Side) (f : PendState → PendState) : (d.updPend f).sess = d.sess := rfl
@[simp] theorem Side.updPend_pmb (d : Side) (f : PendState → PendState) : (d.updPend f).pmb = d.pmb := rfl
@[simp] theorem Side.updPend_air (d : Side) (f : PendState → PendState) : (d.updPend f).air = d.air := rfl
@[simp] theorem Side.updPend_chans (d : Side) (f : PendState → PendState) : (d.updPend f).chans = d.chans := rfl
@[simp] theorem Side.updPend_reads (d : Side) (f : PendState → PendState) : (d.updPend f).reads = d.reads := rfl

/-! Side.updTrowel -/

@[simp] theorem Side.updTrowel_regs (d : Side) (f : TrowelState → TrowelState) : (d.updTrowel f).regs = d.regs := rfl
@[simp] theorem Side.updTrowel_errAt (d : Side) (f : TrowelState → TrowelState) : (d.updTrowel f).errAt = d.errAt := rfl
@[simp] theorem Side.updTrowel_errNow (d : Side) (f : TrowelState → TrowelState) : (d.updTrowel f).errNow = d.errNow := rfl
@[simp] theorem Side.updTrowel_now (d : Side) (f : TrowelState → TrowelState) : (d.updTrowel f).now = d.now := rfl
@[simp] theorem Side.updTrowel_tick (d : Side) (f : TrowelState → TrowelState) : (d.updTrowel f).tick = d.tick := rfl
@[simp] theorem Side.updTrowel_point (d : Side) (f : TrowelState → TrowelState) : (d.updTrowel f).point = d.point := rfl
@[simp] theorem Side.updTrowel_token (d : Side) (f : TrowelState → TrowelState) : (d.updTrowel f).token = d.token := rfl
@[simp] theorem Side.updTrowel_inq (d : Side) (f : TrowelState → TrowelState) : (d.updTrowel f).inq = d.inq := rfl
@[simp] theorem Side.updTrowel_seen (d : Side) (f : TrowelState → TrowelState) : (d.updTrowel f).seen = d.seen := rfl
@[simp] theorem Side.updTrowel_outq (d : Side) (f : TrowelState → TrowelState) : (d.updTrowel f).outq = d.outq := rfl
@[simp] theorem Side.updTrowel_trng (d : Side) (f : TrowelState → TrowelState) : (d.updTrowel f).trng = d.trng := rfl
@[simp] theorem Side.updTrowel_draws (d : Side) (f : TrowelState → TrowelState) : (d.updTrowel f).draws = d.draws := rfl
@[simp] theorem Side.updTrowel_evt (d : Side) (f : TrowelState → TrowelState) : (d.updTrowel f).evt = d.evt := rfl
@[simp] theorem Side.updTrowel_reports (d : Side) (f : TrowelState → TrowelState) : (d.updTrowel f).reports = d.reports := rfl
@[simp] theorem Side.updTrowel_disp (d : Side) (f : TrowelState → TrowelState) : (d.updTrowel f).disp = d.disp := rfl
@[simp] theorem Side.updTrowel_strand (d : Side) (f : TrowelState → TrowelState) : (d.updTrowel f).strand = d.strand := rfl
@[simp] theorem Side.updTrowel_mesh (d : Side) (f : TrowelState → TrowelState) : (d.updTrowel f).mesh = d.mesh := rfl
@[simp] theorem Side.updTrowel_node (d : Side) (f : TrowelState → TrowelState) : (d.updTrowel f).node = d.node := rfl
@[simp] theorem Side.updTrowel_key (d : Side) (f : TrowelState → TrowelState) : (d.updTrowel f).key = d.key := rfl
@[simp] theorem Side.updTrowel_mram (d : Side) (f : TrowelState → TrowelState) : (d.updTrowel f).mram = d.mram := rfl
@[simp] theorem Side.updTrowel_fw (d : Side) (f : TrowelState → TrowelState) : (d.updTrowel f).fw = d.fw := rfl
@[simp] theorem Side.updTrowel_cmem (d : Side) (f : TrowelState → TrowelState) : (d.updTrowel f).cmem = d.cmem := rfl
@[simp] theorem Side.updTrowel_pend (d : Side) (f : TrowelState → TrowelState) : (d.updTrowel f).pend = d.pend := rfl
@[simp] theorem Side.updTrowel_trowel (d : Side) (f : TrowelState → TrowelState) : (d.updTrowel f).trowel = f d.trowel := rfl
@[simp] theorem Side.updTrowel_sess (d : Side) (f : TrowelState → TrowelState) : (d.updTrowel f).sess = d.sess := rfl
@[simp] theorem Side.updTrowel_pmb (d : Side) (f : TrowelState → TrowelState) : (d.updTrowel f).pmb = d.pmb := rfl
@[simp] theorem Side.updTrowel_air (d : Side) (f : TrowelState → TrowelState) : (d.updTrowel f).air = d.air := rfl
@[simp] theorem Side.updTrowel_chans (d : Side) (f : TrowelState → TrowelState) : (d.updTrowel f).chans = d.chans := rfl
@[simp] theorem Side.updTrowel_reads (d : Side) (f : TrowelState → TrowelState) : (d.updTrowel f).reads = d.reads := rfl

/-! Side.updStrand -/

@[simp] theorem Side.updStrand_regs (d : Side) (f : StrandState → StrandState) : (d.updStrand f).regs = d.regs := rfl
@[simp] theorem Side.updStrand_errAt (d : Side) (f : StrandState → StrandState) : (d.updStrand f).errAt = d.errAt := rfl
@[simp] theorem Side.updStrand_errNow (d : Side) (f : StrandState → StrandState) : (d.updStrand f).errNow = d.errNow := rfl
@[simp] theorem Side.updStrand_now (d : Side) (f : StrandState → StrandState) : (d.updStrand f).now = d.now := rfl
@[simp] theorem Side.updStrand_tick (d : Side) (f : StrandState → StrandState) : (d.updStrand f).tick = d.tick := rfl
@[simp] theorem Side.updStrand_point (d : Side) (f : StrandState → StrandState) : (d.updStrand f).point = d.point := rfl
@[simp] theorem Side.updStrand_token (d : Side) (f : StrandState → StrandState) : (d.updStrand f).token = d.token := rfl
@[simp] theorem Side.updStrand_inq (d : Side) (f : StrandState → StrandState) : (d.updStrand f).inq = d.inq := rfl
@[simp] theorem Side.updStrand_seen (d : Side) (f : StrandState → StrandState) : (d.updStrand f).seen = d.seen := rfl
@[simp] theorem Side.updStrand_outq (d : Side) (f : StrandState → StrandState) : (d.updStrand f).outq = d.outq := rfl
@[simp] theorem Side.updStrand_trng (d : Side) (f : StrandState → StrandState) : (d.updStrand f).trng = d.trng := rfl
@[simp] theorem Side.updStrand_draws (d : Side) (f : StrandState → StrandState) : (d.updStrand f).draws = d.draws := rfl
@[simp] theorem Side.updStrand_evt (d : Side) (f : StrandState → StrandState) : (d.updStrand f).evt = d.evt := rfl
@[simp] theorem Side.updStrand_reports (d : Side) (f : StrandState → StrandState) : (d.updStrand f).reports = d.reports := rfl
@[simp] theorem Side.updStrand_disp (d : Side) (f : StrandState → StrandState) : (d.updStrand f).disp = d.disp := rfl
@[simp] theorem Side.updStrand_strand (d : Side) (f : StrandState → StrandState) : (d.updStrand f).strand = f d.strand := rfl
@[simp] theorem Side.updStrand_mesh (d : Side) (f : StrandState → StrandState) : (d.updStrand f).mesh = d.mesh := rfl
@[simp] theorem Side.updStrand_node (d : Side) (f : StrandState → StrandState) : (d.updStrand f).node = d.node := rfl
@[simp] theorem Side.updStrand_key (d : Side) (f : StrandState → StrandState) : (d.updStrand f).key = d.key := rfl
@[simp] theorem Side.updStrand_mram (d : Side) (f : StrandState → StrandState) : (d.updStrand f).mram = d.mram := rfl
@[simp] theorem Side.updStrand_fw (d : Side) (f : StrandState → StrandState) : (d.updStrand f).fw = d.fw := rfl
@[simp] theorem Side.updStrand_cmem (d : Side) (f : StrandState → StrandState) : (d.updStrand f).cmem = d.cmem := rfl
@[simp] theorem Side.updStrand_pend (d : Side) (f : StrandState → StrandState) : (d.updStrand f).pend = d.pend := rfl
@[simp] theorem Side.updStrand_trowel (d : Side) (f : StrandState → StrandState) : (d.updStrand f).trowel = d.trowel := rfl
@[simp] theorem Side.updStrand_sess (d : Side) (f : StrandState → StrandState) : (d.updStrand f).sess = d.sess := rfl
@[simp] theorem Side.updStrand_pmb (d : Side) (f : StrandState → StrandState) : (d.updStrand f).pmb = d.pmb := rfl
@[simp] theorem Side.updStrand_air (d : Side) (f : StrandState → StrandState) : (d.updStrand f).air = d.air := rfl
@[simp] theorem Side.updStrand_chans (d : Side) (f : StrandState → StrandState) : (d.updStrand f).chans = d.chans := rfl
@[simp] theorem Side.updStrand_reads (d : Side) (f : StrandState → StrandState) : (d.updStrand f).reads = d.reads := rfl

/-! Side.updDisp -/

@[simp] theorem Side.updDisp_regs (d : Side) (f : DispState → DispState) : (d.updDisp f).regs = d.regs := rfl
@[simp] theorem Side.updDisp_errAt (d : Side) (f : DispState → DispState) : (d.updDisp f).errAt = d.errAt := rfl
@[simp] theorem Side.updDisp_errNow (d : Side) (f : DispState → DispState) : (d.updDisp f).errNow = d.errNow := rfl
@[simp] theorem Side.updDisp_now (d : Side) (f : DispState → DispState) : (d.updDisp f).now = d.now := rfl
@[simp] theorem Side.updDisp_tick (d : Side) (f : DispState → DispState) : (d.updDisp f).tick = d.tick := rfl
@[simp] theorem Side.updDisp_point (d : Side) (f : DispState → DispState) : (d.updDisp f).point = d.point := rfl
@[simp] theorem Side.updDisp_token (d : Side) (f : DispState → DispState) : (d.updDisp f).token = d.token := rfl
@[simp] theorem Side.updDisp_inq (d : Side) (f : DispState → DispState) : (d.updDisp f).inq = d.inq := rfl
@[simp] theorem Side.updDisp_seen (d : Side) (f : DispState → DispState) : (d.updDisp f).seen = d.seen := rfl
@[simp] theorem Side.updDisp_outq (d : Side) (f : DispState → DispState) : (d.updDisp f).outq = d.outq := rfl
@[simp] theorem Side.updDisp_trng (d : Side) (f : DispState → DispState) : (d.updDisp f).trng = d.trng := rfl
@[simp] theorem Side.updDisp_draws (d : Side) (f : DispState → DispState) : (d.updDisp f).draws = d.draws := rfl
@[simp] theorem Side.updDisp_evt (d : Side) (f : DispState → DispState) : (d.updDisp f).evt = d.evt := rfl
@[simp] theorem Side.updDisp_reports (d : Side) (f : DispState → DispState) : (d.updDisp f).reports = d.reports := rfl
@[simp] theorem Side.updDisp_disp (d : Side) (f : DispState → DispState) : (d.updDisp f).disp = f d.disp := rfl
@[simp] theorem Side.updDisp_strand (d : Side) (f : DispState → DispState) : (d.updDisp f).strand = d.strand := rfl
@[simp] theorem Side.updDisp_mesh (d : Side) (f : DispState → DispState) : (d.updDisp f).mesh = d.mesh := rfl
@[simp] theorem Side.updDisp_node (d : Side) (f : DispState → DispState) : (d.updDisp f).node = d.node := rfl
@[simp] theorem Side.updDisp_key (d : Side) (f : DispState → DispState) : (d.updDisp f).key = d.key := rfl
@[simp] theorem Side.updDisp_mram (d : Side) (f : DispState → DispState) : (d.updDisp f).mram = d.mram := rfl
@[simp] theorem Side.updDisp_fw (d : Side) (f : DispState → DispState) : (d.updDisp f).fw = d.fw := rfl
@[simp] theorem Side.updDisp_cmem (d : Side) (f : DispState → DispState) : (d.updDisp f).cmem = d.cmem := rfl
@[simp] theorem Side.updDisp_pend (d : Side) (f : DispState → DispState) : (d.updDisp f).pend = d.pend := rfl
@[simp] theorem Side.updDisp_trowel (d : Side) (f : DispState → DispState) : (d.updDisp f).trowel = d.trowel := rfl
@[simp] theorem Side.updDisp_sess (d : Side) (f : DispState → DispState) : (d.updDisp f).sess = d.sess := rfl
@[simp] theorem Side.updDisp_pmb (d : Side) (f : DispState → DispState) : (d.updDisp f).pmb = d.pmb := rfl
@[simp] theorem Side.updDisp_air (d : Side) (f : DispState → DispState) : (d.updDisp f).air = d.air := rfl
@[simp] theorem Side.updDisp_chans (d : Side) (f : DispState → DispState) : (d.updDisp f).chans = d.chans := rfl
@[simp] theorem Side.updDisp_reads (d : Side) (f : DispState → DispState) : (d.updDisp f).reads = d.reads := rfl

end Sys2Proof.Machine
end

