-- ==== Sys2Proof/Laws/Tables.lean ====
section
/-! SUPPORT. Sparse tables and register stores: what a read gives after a write, and that every operation keeps the canonical
form (keys strictly rising). -/

namespace Sys2Proof.Machine

open Sys2Proof

/-! ## Reading after writing -/

/-- The written entry is found. -/
@[simp] theorem Tab.find_put_same {α : Type} (t : Tab α) (n : Nat) (x : α) : (t.put n x).find n = some x := by
  induction t with
  | nil => simp [Tab.put, Tab.find]
  | cons e t ih =>
    obtain ⟨k, v⟩ := e
    simp only [Tab.put]
    split
    · simp [Tab.find]
    · split
      · simp [Tab.find]
      · rename_i h; simp [Tab.find, h, ih]

/-- Every other entry stays. -/
theorem Tab.find_put_other {α : Type} (t : Tab α) (n m : Nat) (x : α) (h : m ≠ n) : (t.put n x).find m = t.find m := by
  induction t with
  | nil => simp [Tab.put, Tab.find, Ne.symm h]
  | cons e t ih =>
    obtain ⟨k, v⟩ := e
    simp only [Tab.put]
    split
    · simp [Tab.find, Ne.symm h]
    · split
      · rename_i hk; subst hk; simp [Tab.find, Ne.symm h]
      · simp only [Tab.find]; split <;> simp [ih]

/-- Every other entry stays when one is removed. -/
theorem Tab.find_del_other {α : Type} (t : Tab α) (n m : Nat) (h : m ≠ n) : (t.del n).find m = t.find m := by
  induction t with
  | nil => rfl
  | cons e t ih =>
    obtain ⟨k, v⟩ := e
    simp only [Tab.del]
    split
    · rename_i hk; subst hk; simp [Tab.find, Ne.symm h, ih]
    · simp only [Tab.find]; split <;> simp [ih]

/-- The removed entry is not found. -/
@[simp] theorem Tab.find_del_same {α : Type} (t : Tab α) (n : Nat) : (t.del n).find n = none := by
  induction t with
  | nil => rfl
  | cons e t ih =>
    obtain ⟨k, v⟩ := e
    simp only [Tab.del]
    split
    · exact ih
    · rename_i hk; simp only [Tab.find, hk, if_false]; exact ih

/-! ## The canonical form -/

/-- A lower bound of the keys may be lowered. -/
theorem Tab.wfFrom_mono {α : Type} (t : Tab α) (lo lo' : Nat) (h : lo' ≤ lo) (w : Tab.wfFrom lo t = true) :
    Tab.wfFrom lo' t = true := by
  cases t with
  | nil => rfl
  | cons e t =>
    obtain ⟨k, v⟩ := e
    simp only [Tab.wfFrom, Bool.and_eq_true, decide_eq_true_eq] at w ⊢
    exact ⟨by omega, w.2⟩

/-- Setting an entry keeps the order of the keys. -/
theorem Tab.put_wfFrom {α : Type} : ∀ (t : Tab α) (lo n : Nat) (x : α), Tab.wfFrom lo t = true → lo ≤ n →
    Tab.wfFrom lo (t.put n x) = true
  | [], lo, n, x, _, hn => by simp [Tab.put, Tab.wfFrom, hn]
  | (k, v) :: t, lo, n, x, h, hn => by
    simp only [Tab.wfFrom, Bool.and_eq_true, decide_eq_true_eq] at h
    simp only [Tab.put]
    split
    · simp only [Tab.wfFrom, Bool.and_eq_true, decide_eq_true_eq]; exact ⟨hn, by omega, h.2⟩
    · split
      · rename_i hk; subst hk; simp only [Tab.wfFrom, Bool.and_eq_true, decide_eq_true_eq]; exact ⟨hn, h.2⟩
      · simp only [Tab.wfFrom, Bool.and_eq_true, decide_eq_true_eq]
        exact ⟨h.1, Tab.put_wfFrom t (k + 1) n x h.2 (by omega)⟩

/-- Removing an entry keeps the order of the keys. -/
theorem Tab.del_wfFrom {α : Type} : ∀ (t : Tab α) (lo n : Nat), Tab.wfFrom lo t = true → Tab.wfFrom lo (t.del n) = true
  | [], _, _, _ => rfl
  | (k, v) :: t, lo, n, h => by
    simp only [Tab.wfFrom, Bool.and_eq_true, decide_eq_true_eq] at h
    simp only [Tab.del]
    split
    · exact Tab.del_wfFrom t lo n (Tab.wfFrom_mono t (k + 1) lo (by omega) h.2)
    · simp only [Tab.wfFrom, Bool.and_eq_true, decide_eq_true_eq]; exact ⟨h.1, Tab.del_wfFrom t (k + 1) n h.2⟩

/-- Dropping entries keeps the order of the keys. -/
theorem Tab.filter_wfFrom {α : Type} (p : Nat × α → Bool) : ∀ (t : Tab α) (lo : Nat), Tab.wfFrom lo t = true →
    Tab.wfFrom lo (t.filter p) = true
  | [], _, _ => rfl
  | (k, v) :: t, lo, h => by
    simp only [Tab.wfFrom, Bool.and_eq_true, decide_eq_true_eq] at h
    simp only [List.filter]
    split
    · simp only [Tab.wfFrom, Bool.and_eq_true, decide_eq_true_eq]; exact ⟨h.1, Tab.filter_wfFrom p t (k + 1) h.2⟩
    · exact Tab.wfFrom_mono _ (k + 1) lo (by omega) (Tab.filter_wfFrom p t (k + 1) h.2)

theorem Tab.put_wf {α : Type} (t : Tab α) (n : Nat) (x : α) (h : t.wf = true) : (t.put n x).wf = true :=
  Tab.put_wfFrom t 0 n x h (Nat.zero_le n)

theorem Tab.del_wf {α : Type} (t : Tab α) (n : Nat) (h : t.wf = true) : (t.del n).wf = true := Tab.del_wfFrom t 0 n h

theorem Tab.filter_wf {α : Type} (p : Nat × α → Bool) (t : Tab α) (h : t.wf = true) : Tab.wf (t.filter p) = true :=
  Tab.filter_wfFrom p t 0 h

/-! ## Register stores -/

/-- Two registers share a key only when page, offset and index agree. -/
theorem rkey_inj (p o i p' o' i' : Nat) (ho : o < 4096) (hp : p < 128) (ho' : o' < 4096) (hp' : p' < 128)
    (h : rkey p o i = rkey p' o' i') : p = p' ∧ o = o' ∧ i = i' := by
  unfold rkey at h; omega

/-- A register reads as written. -/
@[simp] theorem rdI_wrI_same (t : Tab Word) (page off idx : Nat) (v : Word) :
    rdI (wrI t page off idx v) page off idx = v := by
  unfold wrI rdI
  by_cases hv : v = regReset page off
  · rw [if_pos hv, Tab.find_del_same]; exact hv.symm
  · rw [if_neg hv, Tab.find_put_same]

/-- Every other register reads as before. -/
theorem rdI_wrI_other (t : Tab Word) (p o i p' o' i' : Nat) (v : Word) (h : rkey p' o' i' ≠ rkey p o i) :
    rdI (wrI t p o i v) p' o' i' = rdI t p' o' i' := by
  unfold wrI rdI
  by_cases hv : v = regReset p o
  · rw [if_pos hv, Tab.find_del_other _ _ _ h]
  · rw [if_neg hv, Tab.find_put_other _ _ _ _ h]

@[simp] theorem rd_wr_same (t : Tab Word) (page off : Nat) (v : Word) : rd (wr t page off v) page off = v :=
  rdI_wrI_same t page off 0 v

theorem rd_wr_other (t : Tab Word) (p o p' o' : Nat) (v : Word) (h : rkey p' o' 0 ≠ rkey p o 0) :
    rd (wr t p o v) p' o' = rd t p' o' := rdI_wrI_other t p o 0 p' o' 0 v h

/-- Storing a register keeps the canonical form. -/
theorem wrI_wf (t : Tab Word) (page off idx : Nat) (v : Word) (h : t.wf = true) : (wrI t page off idx v).wf = true := by
  unfold wrI
  split
  · exact Tab.del_wf t _ h
  · exact Tab.put_wf t _ v h

theorem wr_wf (t : Tab Word) (page off : Nat) (v : Word) (h : t.wf = true) : (wr t page off v).wf = true :=
  wrI_wf t page off 0 v h

theorem wr64_wf (t : Tab Word) (page off v : Nat) (h : t.wf = true) : (wr64 t page off v).wf = true :=
  wr_wf _ _ _ _ (wr_wf _ _ _ _ h)

theorem bumpBy_wf (t : Tab Word) (page off n : Nat) (h : t.wf = true) : (bumpBy t page off n).wf = true := wr_wf _ _ _ _ h

theorem bump_wf (t : Tab Word) (page off : Nat) (h : t.wf = true) : (bump t page off).wf = true := bumpBy_wf _ _ _ _ h

theorem bumpI_wf (t : Tab Word) (page off idx : Nat) (h : t.wf = true) : (bumpI t page off idx).wf = true :=
  wrI_wf _ _ _ _ _ h

theorem peak_wf (t : Tab Word) (page off hi lo v : Nat) (h : t.wf = true) : (peak t page off hi lo v).wf = true := by
  unfold peak
  split
  · exact wr_wf _ _ _ _ h
  · exact h

theorem setErrCode_wf (t : Tab Word) (page bit code lt : Nat) (now : Word) (h : t.wf = true) :
    (setErrCode t page bit code lt now).wf = true := by
  unfold setErrCode
  dsimp only
  split
  · exact wr_wf _ _ _ _ (wr_wf _ _ _ _ (wr_wf _ _ _ _ h))
  · exact wr_wf _ _ _ _ h

theorem setEvt_wf (t : Tab Word) (page bit : Nat) (h : t.wf = true) : (setEvt t page bit).wf = true := wr_wf _ _ _ _ h

/-- A counter advanced reads one more, up to its limit. -/
theorem rd_bump_same (t : Tab Word) (page off : Nat) :
    rd (bump t page off) page off = w32 (min (2 ^ 32 - 1) ((rd t page off).toNat + 1)) := rd_wr_same _ _ _ _

theorem rd_bump_other (t : Tab Word) (p o p' o' : Nat) (h : rkey p' o' 0 ≠ rkey p o 0) :
    rd (bump t p o) p' o' = rd t p' o' := rd_wr_other _ _ _ _ _ _ h

end Sys2Proof.Machine
end

