-- ==== Sys2Proof/Laws/Access.lean ====
section
/-! SUPPORT. What an access comes to: the way of a host port's write to a commons page, of a core's write to its own side, and
what counting a posted write leaves as it is. -/

namespace Sys2Proof.Machine

open Sys2Proof

/-! ## A counted write -/

@[simp] theorem posted_pending (s : State) (r : Requester) : (posted s r).pending = s.pending := by
  cases r <;> simp [posted, hostCount, Requester.isHost]
@[simp] theorem posted_variant (s : State) (r : Requester) : (posted s r).variant = s.variant := by
  cases r <;> simp [posted, hostCount, Requester.isHost]
@[simp] theorem posted_a (s : State) (r : Requester) : (posted s r).a = s.a := by
  cases r <;> simp [posted, hostCount, Requester.isHost]
@[simp] theorem posted_b (s : State) (r : Requester) : (posted s r).b = s.b := by
  cases r <;> simp [posted, hostCount, Requester.isHost]
@[simp] theorem posted_lt (s : State) (r : Requester) : (posted s r).c.lt = s.c.lt := by
  cases r <;> simp [posted, hostCount, Requester.isHost]
@[simp] theorem posted_time (s : State) (r : Requester) : (posted s r).c.time = s.c.time := by
  cases r <;> simp [posted, hostCount, Requester.isHost]
@[simp] theorem posted_tpo (s : State) (r : Requester) : (posted s r).c.tpo = s.c.tpo := by
  cases r <;> simp [posted, hostCount, Requester.isHost]
@[simp] theorem posted_rfS (s : State) (r : Requester) : (posted s r).c.rfS = s.c.rfS := by
  cases r <;> simp [posted, hostCount, Requester.isHost]
@[simp] theorem posted_rfM (s : State) (r : Requester) : (posted s r).c.rfM = s.c.rfM := by
  cases r <;> simp [posted, hostCount, Requester.isHost]
@[simp] theorem posted_rfH (s : State) (r : Requester) : (posted s r).c.rfH = s.c.rfH := by
  cases r <;> simp [posted, hostCount, Requester.isHost]
@[simp] theorem posted_air (s : State) (r : Requester) : (posted s r).c.air = s.c.air := by
  cases r <;> simp [posted, hostCount, Requester.isHost]
@[simp] theorem posted_duty (s : State) (r : Requester) : (posted s r).c.duty = s.c.duty := by
  cases r <;> simp [posted, hostCount, Requester.isHost]
@[simp] theorem posted_tamp (s : State) (r : Requester) : (posted s r).c.tamp = s.c.tamp := by
  cases r <;> simp [posted, hostCount, Requester.isHost]
@[simp] theorem posted_ibe (s : State) (r : Requester) : (posted s r).c.ibe = s.c.ibe := by
  cases r <;> simp [posted, hostCount, Requester.isHost]
@[simp] theorem posted_clasp (s : State) (r : Requester) : (posted s r).c.clasp = s.c.clasp := by
  cases r <;> simp [posted, hostCount, Requester.isHost]
@[simp] theorem posted_bezel (s : State) (r : Requester) : (posted s r).c.bezel = s.c.bezel := by
  cases r <;> simp [posted, hostCount, Requester.isHost]
@[simp] theorem posted_evt (s : State) (r : Requester) : (posted s r).c.evt = s.c.evt := by
  cases r <;> simp [posted, hostCount, Requester.isHost]
@[simp] theorem posted_hostA (s : State) (r : Requester) : (posted s r).c.hostA = s.c.hostA := by
  cases r <;> simp [posted, hostCount, Requester.isHost]
@[simp] theorem posted_hostB (s : State) (r : Requester) : (posted s r).c.hostB = s.c.hostB := by
  cases r <;> simp [posted, hostCount, Requester.isHost]
@[simp] theorem posted_chain (s : State) (r : Requester) : (posted s r).c.chain = s.c.chain := by
  cases r <;> simp [posted, hostCount, Requester.isHost]
@[simp] theorem posted_eth0 (s : State) (r : Requester) : (posted s r).c.eth0 = s.c.eth0 := by
  cases r <;> simp [posted, hostCount, Requester.isHost]
@[simp] theorem posted_eth1 (s : State) (r : Requester) : (posted s r).c.eth1 = s.c.eth1 := by
  cases r <;> simp [posted, hostCount, Requester.isHost]
@[simp] theorem posted_pd (s : State) (r : Requester) : (posted s r).c.pd = s.c.pd := by
  cases r <;> simp [posted, hostCount, Requester.isHost]
@[simp] theorem posted_pmb (s : State) (r : Requester) : (posted s r).c.pmb = s.c.pmb := by
  cases r <;> simp [posted, hostCount, Requester.isHost]
@[simp] theorem posted_sys (s : State) (r : Requester) : (posted s r).c.sys = s.c.sys := by
  cases r <;> simp [posted, hostCount, Requester.isHost]
@[simp] theorem posted_lastRead (s : State) (r : Requester) : (posted s r).c.lastRead = s.c.lastRead := by
  cases r <;> simp [posted, hostCount, Requester.isHost]

/-- Counting a write changes WR_TLP of the port's own page only. -/
theorem posted_rdI (s : State) (r : Requester) (p o i : Nat) (hp : p < 128) (ho : o < 4096)
    (hn : (p ≠ Pg.HOSTA ∧ p ≠ Pg.HOSTB) ∨ o ≠ Reg.HOST_WR_TLP) : rdI (posted s r).c.regs p o i = rdI s.c.regs p o i := by
  have key : ∀ q : Nat, q < 128 → (p ≠ q ∨ o ≠ Reg.HOST_WR_TLP) → rkey p o i ≠ rkey q Reg.HOST_WR_TLP 0 := by
    intro q hq hpq h
    have e := rkey_inj p o i q _ 0 ho hp (by decide) hq h
    rcases hpq with h1 | h1
    · exact h1 e.1
    · exact h1 e.2.1
  simp only [posted, State.updC_c, Commons.openCycle_regs]
  cases r
  case hostA => exact rdI_wrI_other _ _ _ _ _ _ _ _ (key _ (by decide) (hn.imp_left And.left))
  case hostB => exact rdI_wrI_other _ _ _ _ _ _ _ _ (key _ (by decide) (hn.imp_left And.right))
  all_goals rfl

theorem posted_rd (s : State) (r : Requester) (p o : Nat) (hp : p < 128) (ho : o < 4096)
    (hn : (p ≠ Pg.HOSTA ∧ p ≠ Pg.HOSTB) ∨ o ≠ Reg.HOST_WR_TLP) : rd (posted s r).c.regs p o = rd s.c.regs p o :=
  posted_rdI s r p o 0 hp ho hn

/-- The index that selects a register is the same. -/
theorem posted_idx (s : State) (r : Requester) (p o : Nat) (hp : p < 128) :
    commonsIdx (posted s r).c.regs p o = commonsIdx s.c.regs p o := by
  by_cases hA : p = Pg.HOSTA
  · subst hA; rfl
  by_cases hB : p = Pg.HOSTB
  · subst hB; rfl
  have h := fun o ho => posted_rd s r p o hp ho (.inl ⟨hA, hB⟩)
  unfold commonsIdx rf
  rw [h Reg.ETH_VID_IDX (by decide), h Reg.ETH_MC_IDX (by decide), h Reg.CEVT_SRC_IDX (by decide), h Reg.FACET_CH_SEL (by decide),
    h Reg.PD_DOM_IDX (by decide), h Reg.PMB_RAIL_IDX (by decide)]

/-- A counted write leaves the effective word of a write to another register. -/
theorem posted_word (s : State) (r : Requester) (p o : Nat) (v : Word) (hp : p < 128) (ho : o < 4096)
    (hn : (p ≠ Pg.HOSTA ∧ p ≠ Pg.HOSTB) ∨ o ≠ Reg.HOST_WR_TLP) : wordTaken (posted s r) p o v = wordTaken s p o v := by
  unfold wordTaken rb
  rw [posted_idx s r p o hp, posted_rdI s r p o _ hp ho hn, posted_rd s r p _ hp (by decide) (.inr (by decide))]

/-- A counted write leaves whether a register takes writes. -/
theorem posted_takes (s : State) (r q : Requester) (p o : Nat) (hp : p < 128) (h : takesWrite s q p o) : takesWrite (posted s r) q p o := by
  obtain ⟨⟨row, hrow, hx⟩, h1, h2, h3, h4⟩ := h
  refine ⟨⟨row, hrow, ?_⟩, ?_, ?_, h3, h4⟩
  · unfold rb
    rw [posted_rd s r p _ hp (by decide) (.inr (by decide))]
    exact hx
  · rw [posted_variant]; exact h1
  · have e : ∀ n, domState (posted s r) n = domState s n := by
      intro n
      unfold domState
      rw [posted_pd]
      try rw [posted_variant]
    unfold pageDark at h2 ⊢
    simp only [e]
    exact h2

/-! ## Ways -/

/-- BAR0 places a commons register where the requester's address puts it. -/
theorem bar0_commons (r : Requester) (page off : Nat) (hr : r.isCore = false) (hp : page < 64) (ho : off < 4096) :
    bar0 (regAddr r page off) = .commons page off := by
  have e : regAddr r page off = 4096 * page + off := by
    cases r <;> first | (simp [regAddr, hp]; done) | cases hr
  rw [e]
  unfold bar0
  have h1 : (4096 * page + off) / 4096 = page := by omega
  have h2 : (4096 * page + off) % 4096 = off := by omega
  have h3 : ¬ 2 ^ 20 ≤ 4096 * page + off := by omega
  simp only [h1, h2, if_neg h3, if_pos hp]

/-- The paired window places a side register where the requester's address puts it. -/
theorem bar0_paired (r : Requester) (page off : Nat) (hr : r.isCore = false) (hp : 64 ≤ page) (hq : page < 96)
    (ho : off < 4096) : bar0 (regAddr r page off) = .paired page off := by
  have e : regAddr r page off = 524288 + 4096 * (page - 64) + off := by
    have hn : ¬ page < 64 := by omega
    cases r <;> first | (simp [regAddr, hn]; done) | cases hr
  rw [e]
  unfold bar0
  have h1 : (524288 + 4096 * (page - 64) + off) / 4096 = page + 64 := by omega
  have h2 : (524288 + 4096 * (page - 64) + off) % 4096 = off := by omega
  have h3 : ¬ 2 ^ 20 ≤ 524288 + 4096 * (page - 64) + off := by omega
  have h4 : ¬ page + 64 < 64 := by omega
  have h5 : ¬ page + 64 < 96 := by omega
  have h6 : ¬ page + 64 < 128 := by omega
  have h7 : page + 64 < 160 := by omega
  simp only [h1, h2, if_neg h3, if_neg h4, if_neg h5, if_neg h6, if_pos h7]
  congr 1

/-- A write of a port to a commons page takes effect there at once, counted. -/
theorem access_commons (s : State) (r : Requester) (page off : Nat) (v : Word) (be : Nat) (hw : wayFree s r) (hp : page < 64)
    (ho : off < 4096) (h4 : off % 4 = 0) (hd : ¬ (page = Pg.CHAIN ∧ off = Reg.CHAIN_WIN_DATA)) :
    access s r (regAddr r page off) v be = commonsWrite (posted s r) r page off v be := by
  obtain ⟨h1, h2, h3, h5⟩ := hw
  have hb := bar0_commons r page off h2 hp ho
  have e : regAddr r page off = 4096 * page + off := by
    cases r <;> first | (simp [regAddr, hp]; done) | cases h2
  have h40 : (4096 * page + off) % 4 = 0 := by omega
  have hok : bar0Ok (regAddr r page off) = true := by
    unfold bar0Ok
    rw [hb, e, h40]
    rfl
  have hm : mayAccess s r (regAddr r page off) = true := by
    unfold mayAccess jtagReaches
    rw [h1]
    cases hj : decide (r ≠ .jtag)
    · simp only [h5 (by simpa using hj), Bool.or_true, Bool.true_and]
    · rfl
  have hw3 : ((posted s r).c.bezel.waiting.any fun w => decide (w.1 = r.source)) = false := by rw [posted_bezel]; exact h3
  cases r
  case core x => cases h2
  all_goals
    simp only [access, hm, Bool.not_true, Bool.false_eq_true, if_false, portAccess, hok, hb, h3, Bool.and_false,
      directWrite, if_neg hd]

theorem pageWrite_commons (s : State) (r : Requester) (page off : Nat) (v : Word) (hw : wayFree s r) (hp : page < 64)
    (ho : off < 4096) (h4 : off % 4 = 0) (hd : ¬ (page = Pg.CHAIN ∧ off = Reg.CHAIN_WIN_DATA)) :
    pageWrite s r page off v = commonsWrite (posted s r) r page off v 15 := access_commons s r page off v 15 hw hp ho h4 hd

/-- A write of a port to a side page is an input through the paired window, counted. -/
theorem access_paired (s : State) (r : Requester) (page off : Nat) (v : Word) (be : Nat)
    (hm : mayAccess s r (regAddr r page off) = true) (h2 : r.isCore = false) (hp : 64 ≤ page) (hq : page < 96) (ho : off < 4096) (h4 : off % 4 = 0) :
    access s r (regAddr r page off) v be =
      (posted s r).offer r.source (pairedInput r (regAddr r page off) v be) := by
  have hb := bar0_paired r page off h2 hp hq ho
  have e : regAddr r page off = 524288 + 4096 * (page - 64) + off := by
    have hn : ¬ page < 64 := by omega
    cases r <;> first | (simp [regAddr, hn]; done) | cases h2
  have h40 : (524288 + 4096 * (page - 64) + off) % 4 = 0 := by omega
  have hok : bar0Ok (regAddr r page off) = true := by
    unfold bar0Ok
    rw [hb, e, h40]
    rfl
  cases r
  case core x => cases h2
  all_goals simp only [access, hm, Bool.not_true, Bool.false_eq_true, if_false, portAccess, hok, hb]

/-- A write to a register of a commons page that has an effect of its own. -/
theorem commonsWrite_act (s : State) (r : Requester) (page off : Nat) (v : Word) (t : State) (h : takesWrite s r page off)
    (hc : (r.isCore && (checkWrite s page off v).isSome) = false) (hl : ¬ (off ≥ 0x40 ∧ off = cntClrOff page))
    (ha : commonsAct s r page off (commonsIdx s.c.regs page off) (rdI s.c.regs page off (commonsIdx s.c.regs page off))
      (wordTaken s page off v) = some t) : commonsWrite s r page off v 15 = t := by
  obtain ⟨⟨row, hrow, hx⟩, hp, hd, hr, hi⟩ := h
  have hx' : (row.expert && !rb s.c.regs page Reg.HDR_CTRL 1) = false := by
    cases hr' : row.expert
    · rfl
    · rw [hx hr']; rfl
  have hr' : (decide (page = Pg.RST) && r.isCore) = false := by
    cases h1 : r.isCore
    · simp
    · simp only [Bool.and_true, decide_eq_false_iff_not]; exact fun h2 => hr ⟨h2, h1⟩
  simp only [wordTaken, hrow] at ha
  unfold commonsWrite
  simp only [hrow, hp, hd, hx', hr', hi, hc, if_neg hl, ha, Bool.not_true, Bool.or_self, Bool.false_eq_true, if_false,
    Option.getD_some]

/-- A write to a register of a commons page that is stored. -/
theorem commonsWrite_store (s : State) (r : Requester) (page off : Nat) (v : Word) (row : RegRow)
    (h : takesWrite s r page off) (hrow : regRow page off = some row)
    (hc : (r.isCore && (checkWrite s page off v).isSome) = false) (hl : ¬ (off ≥ 0x40 ∧ off = cntClrOff page))
    (ha : commonsAct s r page off (commonsIdx s.c.regs page off) (rdI s.c.regs page off (commonsIdx s.c.regs page off))
      (wordTaken s page off v) = none) :
    commonsWrite s r page off v 15 = storeC s r page off (commonsIdx s.c.regs page off) row
      (rdI s.c.regs page off (commonsIdx s.c.regs page off)) (wordTaken s page off v) 15 := by
  obtain ⟨⟨row', hrow', hx⟩, hp, hd, hr, hi⟩ := h
  rw [hrow] at hrow'
  injection hrow' with hrow'
  subst hrow'
  have hx' : (row.expert && !rb s.c.regs page Reg.HDR_CTRL 1) = false := by
    cases hr' : row.expert
    · rfl
    · rw [hx hr']; rfl
  have hr' : (decide (page = Pg.RST) && r.isCore) = false := by
    cases h1 : r.isCore
    · simp
    · simp only [Bool.and_true, decide_eq_false_iff_not]; exact fun h2 => hr ⟨h2, h1⟩
  simp only [wordTaken, hrow] at ha ⊢
  unfold commonsWrite
  simp only [hrow, hp, hd, hx', hr', hi, hc, if_neg hl, ha, Bool.not_true, Bool.or_self, Bool.false_eq_true, if_false,
    Option.getD_none]

/-- A port's write to a register of a commons page that has an effect of its own. -/
theorem port_act (s : State) (r : Requester) (page off : Nat) (v : Word) (t : State) (hw : wayFree s r)
    (ht : takesWrite s r page off) (hp : page < 64) (ho : off < 4096) (h4 : off % 4 = 0)
    (hn : (page ≠ Pg.HOSTA ∧ page ≠ Pg.HOSTB) ∨ off ≠ Reg.HOST_WR_TLP) (hd : ¬ (page = Pg.CHAIN ∧ off = Reg.CHAIN_WIN_DATA)) (hl : ¬ (off ≥ 0x40 ∧ off = cntClrOff page))
    (ha : commonsAct (posted s r) r page off (commonsIdx s.c.regs page off) (rdI s.c.regs page off (commonsIdx s.c.regs page off))
      (wordTaken s page off v) = some t) : pageWrite s r page off v = t := by
  have hp' : page < 128 := by omega
  rw [pageWrite_commons s r page off v hw hp ho h4 hd]
  refine commonsWrite_act _ r page off v t (posted_takes s r r page off hp' ht) ?_ hl ?_
  · rw [hw.2.1]; rfl
  · rw [posted_idx s r page off hp', posted_rdI s r page off _ hp' ho hn, posted_word s r page off v hp' ho hn]
    exact ha

/-- A port's write to a register of a commons page that is stored. -/
theorem port_store (s : State) (r : Requester) (page off : Nat) (v : Word) (row : RegRow) (hw : wayFree s r)
    (ht : takesWrite s r page off) (hrow : regRow page off = some row) (hp : page < 64) (ho : off < 4096) (h4 : off % 4 = 0)
    (hn : (page ≠ Pg.HOSTA ∧ page ≠ Pg.HOSTB) ∨ off ≠ Reg.HOST_WR_TLP) (hd : ¬ (page = Pg.CHAIN ∧ off = Reg.CHAIN_WIN_DATA))
    (hl : ¬ (off ≥ 0x40 ∧ off = cntClrOff page))
    (ha : commonsAct (posted s r) r page off (commonsIdx s.c.regs page off) (rdI s.c.regs page off (commonsIdx s.c.regs page off))
      (wordTaken s page off v) = none) :
    pageWrite s r page off v = storeC (posted s r) r page off (commonsIdx s.c.regs page off) row
      (rdI s.c.regs page off (commonsIdx s.c.regs page off)) (wordTaken s page off v) 15 := by
  have hp' : page < 128 := by omega
  rw [pageWrite_commons s r page off v hw hp ho h4 hd]
  have h := commonsWrite_store (posted s r) r page off v row (posted_takes s r r page off hp' ht) hrow
    (by rw [hw.2.1]; rfl) hl
    (by rw [posted_idx s r page off hp', posted_rdI s r page off _ hp' ho hn, posted_word s r page off v hp' ho hn]
        exact ha)
  rw [posted_idx s r page off hp', posted_rdI s r page off _ hp' ho hn, posted_word s r page off v hp' ho hn] at h
  exact h

/-- A core's address names the register of its own page. -/
theorem coreAddr_own (x : SideId) (page off : Nat) (hp : 64 ≤ page) (hq : page < 96) (ho : off < 4096) :
    coreAddr (regAddr (.core x) page off) = some (page, off) := by
  have hn : ¬ page < 64 := by omega
  have h1 : (0x400000 ≤ 0x400000 + 4096 * (page - 64) + off ∧ 0x400000 + 4096 * (page - 64) + off < 0x420000) := by omega
  have h2 : 64 + (0x400000 + 4096 * (page - 64) + off - 0x400000) / 4096 = page := by omega
  have h3 : (0x400000 + 4096 * (page - 64) + off) % 4096 = off := by omega
  simp only [regAddr, if_neg hn, coreAddr, if_pos h1, h2, h3]

/-- A core's write to its own side takes effect there at once. -/
theorem access_own (s : State) (x : SideId) (page off : Nat) (v : Word) (be : Nat) (hv : s.variant.full = true ∨ x = .a)
    (hr : coresRun s x = true) (hp : 64 ≤ page) (hq : page < 96) (ho : off < 4096) :
    access s (.core x) (regAddr (.core x) page off) v be = sideWrite s x (.core x) page off v be := by
  have hpres : (Requester.core x).presentOn s.variant.full = true := by
    cases x
    · rfl
    · rcases hv with h | h
      · simp only [Requester.presentOn]; exact h
      · cases h
  have hj : decide (Requester.core x ≠ .jtag) = true := rfl
  simp only [access, mayAccess, hpres, hj, Bool.true_or, Bool.and_self, Bool.not_true, Bool.false_eq_true, if_false, coreWrite, hr, coreAddr_own x page off hp hq ho, if_pos hp]

/-- A core of side B is there only on a variant with two sides. -/
theorem coresRun_present (s : State) (x : SideId) (h : coresRun s x = true) : s.variant.full = true ∨ x = .a := by
  simp only [coresRun, Bool.and_eq_true, Bool.or_eq_true, decide_eq_true_eq] at h
  exact h.1.1.1

theorem pageWrite_own (s : State) (x : SideId) (page off : Nat) (v : Word) (hw : ownWay s x) (hp : 64 ≤ page) (hq : page < 96)
    (ho : off < 4096) (hn : page ≠ Pg.SPMB) :
    pageWrite s (.core x) page off v = s.upd x fun d => d.write s.variant d.view s.c.lt (.core x) page off v 15 := by
  have h := access_own s x page off v 15 (coresRun_present s x hw.1) hw.1 hp hq ho
  have h2 : ¬ (page = Pg.SPMB ∧ off = Reg.PMB_RAW_CMD) := fun h => hn h.1
  unfold pageWrite
  rw [h]
  unfold sideWrite
  rw [if_neg (not_not_intro hw.2), if_neg h2]

end Sys2Proof.Machine
end

