-- ==== Sys2Proof/Laws/Bits.lean ====
section
/-! SUPPORT. Fields of words: what a field reads after it is set, and its bits. -/

namespace Sys2Proof.Machine

open Sys2Proof

@[simp] theorem toNat_w32 (n : Nat) : (w32 n).toNat = n % 2 ^ 32 := by simp [w32]

/-- A field set in a zero word reads as it was set, as far as it is wide. -/
theorem fld_setFld_zero (hi lo x : Nat) (h : lo ≤ hi) (h2 : hi < 32) :
    fld (setFld 0#32 hi lo x) hi lo = x % 2 ^ (hi + 1 - lo) := by
  have e : (setFld 0#32 hi lo x).toNat = x % 2 ^ (hi + 1 - lo) * 2 ^ lo := by
    unfold setFld
    rw [toNat_w32]
    have : fld 0#32 hi lo = 0 := by simp [fld]
    rw [this]
    simp
    have h3 : x % 2 ^ (hi + 1 - lo) < 2 ^ (hi + 1 - lo) := Nat.mod_lt _ (Nat.two_pow_pos _)
    have h4 : (2:Nat) ^ (hi + 1 - lo) * 2 ^ lo = 2 ^ (hi + 1) := by rw [← Nat.pow_add]; congr 1; omega
    have h5 : (2:Nat) ^ (hi + 1) ≤ 2 ^ 32 := Nat.pow_le_pow_right (by omega) (by omega)
    have h6 := (Nat.mul_lt_mul_right (Nat.two_pow_pos lo)).2 h3
    omega
  unfold fld
  rw [e, Nat.mul_div_cancel _ (Nat.two_pow_pos _), Nat.mod_mod]

/-- A field is no wider than its bits. -/
@[simp] theorem fld_mod (v : Word) (hi lo : Nat) : fld v hi lo % 2 ^ (hi + 1 - lo) = fld v hi lo := by
  unfold fld; rw [Nat.mod_mod]

/-- A bit of a field is the word's bit at its place. -/
theorem fld_testBit (v : Word) (hi lo b : Nat) (h : lo ≤ hi) (hb : b ≤ hi - lo) :
    (fld v hi lo).testBit b = bitOf v (lo + b) := by
  unfold fld bitOf
  rw [Nat.testBit_mod_two_pow, ← Nat.shiftRight_eq_div_pow, Nat.testBit_shiftRight]
  have : b < hi + 1 - lo := by omega
  simp [this]

@[simp] theorem fld_all (v : Word) : fld v 31 0 = v.toNat := by unfold fld; simp; exact v.isLt

@[simp] theorem setFld_all (x : Nat) : setFld 0#32 31 0 x = w32 x := by
  unfold setFld; simp [fld, w32]; apply BitVec.eq_of_toNat_eq; simp

/-- A header register has no index. -/
theorem commonsIdx_header (t : Tab Word) (page off : Nat) (h : off < 0x40) : commonsIdx t page off = 0 := by
  unfold commonsIdx
  simp only [Reg.ETH_VID_MAP, Reg.ETH_MC_LO, Reg.ETH_MC_HI, Reg.CEVT_SRC_ROUTE, Reg.FACET_CH_LANES, Reg.FACET_CHSEL_DET,
    Reg.FACET_CHSEL_FULL, Reg.PD_DOM_CFG, Reg.PMB_RAIL_CFG, Reg.PMB_RAIL_VRET, Reg.WAKE_PROF_MASK]
  repeat' split
  all_goals first | rfl | omega

/-- A header register of a side page has no index. -/
theorem sideIdx_header (t : Tab Word) (page off : Nat) (h : off < 0x40) : sideIdx t page off = 0 := by
  unfold sideIdx
  simp only [Reg.STRAND_CFG, Reg.STRAND_PUSHED, Reg.STRAND_BAD_DESC, Reg.SEVT_SRC_ROUTE, Reg.NODE_TEN_LIMIT,
    Reg.FILIG_TEN_MAP, Reg.SEC_TEN_CFG, Reg.TROWEL_SHP_CIR, Reg.TROWEL_SHP_PBS, Reg.GATE_SWAPS, Reg.PMB_RAIL_CFG,
    Reg.PMB_RAIL_VRET]
  repeat' split
  all_goals first | rfl | omega

end Sys2Proof.Machine
end

