-- ==== Sys2Proof/Laws/Carriers.lean ====
section
/-! SUPPORT. Carriers and bursts: the first burst that satisfies a test is the one found, and what a changed carrier reads. -/

namespace Sys2Proof.Machine

open Sys2Proof

/-- The first burst that satisfies a test is found, with its place. -/
theorem findBurst_first {k : Carrier} {f : Burst → Bool} {i : Nat} {b : Burst} (h : firstBurst k f i b) :
    findBurst k f = some (i, b) := by
  obtain ⟨h1, h2, h3⟩ := h
  have hl : i < k.bursts.length := by
    rcases Nat.lt_or_ge i k.bursts.length with h | h
    · exact h
    · rw [List.getElem?_eq_none h] at h1; cases h1
  unfold findBurst
  split
  · rename_i j hj
    rw [List.find?_range_eq_some] at hj
    obtain ⟨hj1, _, hj3⟩ := hj
    have e : j = i := by
      rcases Nat.lt_trichotomy j i with hlt | he | hgt
      · exfalso
        cases hc : k.bursts[j]? with
        | none => rw [hc] at hj1; cases hj1
        | some c =>
          rw [hc] at hj1
          have e : f c = true := hj1
          rw [h3 j c hlt hc] at e; cases e
      · exact he
      · exfalso
        have := hj3 i hgt
        rw [h1] at this
        simp [h2] at this
    subst e
    rw [h1]; rfl
  · rename_i hn
    exfalso
    rw [List.find?_eq_none] at hn
    have := hn i (List.mem_range.2 hl)
    rw [h1] at this
    exact this h2

/-- A port changed reads as changed. -/
@[simp] theorem port_updPort_same (c : Commons) (p : RPort) (f : RfPort → RfPort) : (c.updPort p f).port p = f (c.port p) := by
  cases p <;> rfl

/-- Another port reads as before. -/
theorem port_updPort_other (c : Commons) (p q : RPort) (f : RfPort → RfPort) (h : q ≠ p) : (c.updPort p f).port q = c.port q := by
  cases p <;> cases q <;> first | rfl | exact absurd rfl h

/-- A carrier changed reads as changed. -/
@[simp] theorem carrier_updCar_same (c : Commons) (p : RPort) (n : Nat) (f : Carrier → Carrier) (h : n < 4) :
    ((c.updCar p n f).port p).carrier n = f ((c.port p).carrier n) := by
  simp [Commons.updCar, RfPort.carrier, setAt, Vector.getD, h]

/-- Another carrier of the port reads as before. -/
theorem carrier_updCar_other (c : Commons) (p : RPort) (n m : Nat) (f : Carrier → Carrier) (h : m ≠ n) :
    ((c.updCar p n f).port p).carrier m = (c.port p).carrier m := by
  simp [Commons.updCar, RfPort.carrier, setAt, Vector.getD, Array.getD_eq_getD_getElem?, Ne.symm h]

end Sys2Proof.Machine
end

