-- ==== Sys2Proof/Laws/Finish.lean ====
section
/-! SUPPORT. The end of a command: what bringing the events and the summary up to date leaves as it is, operation by operation. -/

namespace Sys2Proof.Machine

open Sys2Proof

theorem sameWork.refl (c : Commons) : sameWork c c := by simp [sameWork]

theorem sameWork.trans {c d e : Commons} (h : sameWork c d) (k : sameWork d e) : sameWork c e := by
  unfold sameWork at *
  simp_all

theorem sameUnits.refl (d : Side) : sameUnits d d := by simp [sameUnits]

theorem sameUnits.trans {c d e : Side} (h : sameUnits c d) (k : sameUnits d e) : sameUnits c e := by
  unfold sameUnits at *
  simp_all

/-- A fold keeps the work of the commons if each step does. -/
theorem foldl_sameWork {α : Type} (g : Commons → α → Commons) (h : ∀ c a, sameWork c (g c a)) (l : List α) (c : Commons) :
    sameWork c (l.foldl g c) := by
  induction l generalizing c with
  | nil => exact sameWork.refl c
  | cons a l ih => exact (h c a).trans (ih _)

theorem foldl_sameUnits {α : Type} (g : Side → α → Side) (h : ∀ c a, sameUnits c (g c a)) (l : List α) (c : Side) :
    sameUnits c (l.foldl g c) := by
  induction l generalizing c with
  | nil => exact sameUnits.refl c
  | cons a l ih => exact (h c a).trans (ih _)

/-! ## The commons -/

theorem updHost_sameWork (c : Commons) (second : Bool) (f : HostPort → HostPort) : sameWork c (c.updHost second f) := by
  simp [sameWork]

theorem message_sameWork (c : Commons) (second : Bool) (vec : Nat) : sameWork c (c.message second vec) := by
  unfold Commons.message
  split
  · exact updHost_sameWork _ _ _
  · simp [sameWork]

theorem messageDue_sameWork (c : Commons) (second : Bool) (vec : Nat) : sameWork c (c.messageDue second vec) := by
  have h := message_sameWork c second vec
  unfold Commons.messageDue
  dsimp only
  repeat' split
  all_goals first
    | exact h
    | (simp [sameWork]; done)
    | (unfold sameWork at *; simpa using h)

theorem trySend_sameWork (second : Bool) (c : Commons) (src : Nat) : sameWork c (Commons.trySend second c src) := by
  unfold Commons.trySend
  split
  · exact sameWork.trans (by simp [sameWork]) (messageDue_sameWork _ _ _)
  · exact sameWork.refl c

theorem raise_sameWork (c : Commons) (now : List Nat) : sameWork c (c.raise now) := by
  unfold Commons.raise
  have h1 := foldl_sameWork (Commons.trySend false) (fun c a => trySend_sameWork false c a) (now ++ c.evt.sidePend) c
  have h2 := foldl_sameWork (Commons.trySend true) (fun c a => trySend_sameWork true c a) (now ++ c.evt.sidePend)
    ((now ++ c.evt.sidePend).foldl (Commons.trySend false) c)
  exact (h1.trans h2).trans (by simp [sameWork])

theorem summarise_sameWork (c : Commons) (sum : List Nat) : sameWork c (c.summarise sum) := by
  unfold Commons.summarise
  dsimp only
  split <;> simp [sameWork, Commons.errEvent]

theorem report_sameWork (c : Commons) (r : Report) : sameWork c (c.report r) := by
  cases r <;> simp [sameWork, Commons.report]

/-! ## A side -/

theorem updDisp_sameUnits (d : Side) (f : DispState → DispState) : sameUnits d (d.updDisp f) := by simp [sameUnits]

theorem count_sameUnits (d : Side) (page off : Nat) : sameUnits d (d.count page off) := by simp [sameUnits]

theorem emit_sameUnits (d : Side) (b : TxnBody) : sameUnits d (d.emit b) := by simp [sameUnits]

theorem makeReady_sameUnits (d : Side) (lt t : Nat) : sameUnits d (d.makeReady lt t) := by
  unfold Side.makeReady
  split
  · exact sameUnits.refl d
  · dsimp only
    repeat' split
    all_goals simp [sameUnits, Side.interrupt]

theorem wakeWith_sameUnits (d : Side) (lt t res : Nat) : sameUnits d (d.wakeWith lt t res) :=
  (updDisp_sameUnits d _).trans (makeReady_sameUnits _ _ _)

theorem wakeAll_sameUnits (lt o n : Nat) : ∀ d : Side, sameUnits d (d.wakeAll lt o n) := by
  induction n with
  | zero => intro d; exact sameUnits.refl d
  | succ n ih =>
    intro d
    unfold Side.wakeAll
    split
    · exact (wakeWith_sameUnits _ _ _ _).trans (ih _)
    · exact sameUnits.refl d

theorem signal_sameUnits (d : Side) (lt n : Nat) (all : Bool) : sameUnits d (d.signal lt n all).2 := by
  unfold Side.signal
  repeat' split
  all_goals first
    | exact count_sameUnits _ _ _
    | exact updDisp_sameUnits _ _
    | exact wakeAll_sameUnits _ _ _ _
    | exact wakeWith_sameUnits _ _ _ _
    | (dsimp only; split <;> first | exact wakeAll_sameUnits _ _ _ _ | exact wakeWith_sameUnits _ _ _ _)

theorem sourceRises_sameUnits (d : Side) (lt src : Nat) : sameUnits d (d.sourceRises lt src) := by
  unfold Side.sourceRises
  dsimp only
  repeat' split
  all_goals first
    | exact sameUnits.refl d
    | exact count_sameUnits _ _ _
    | exact (signal_sameUnits _ _ _ _).trans (count_sameUnits _ _ _)

theorem syncSources_sameUnits (d : Side) (lt : Nat) : sameUnits d (d.syncSources lt) := by
  have h1 := foldl_sameUnits (fun d n => (d.emit (.sourceState n true)).sourceRises lt n)
    (fun d n => (emit_sameUnits d _).trans (sourceRises_sameUnits _ _ _))
    ((sidePending d).filter fun n => !d.evt.lastPend.contains n) d
  have h2 := foldl_sameUnits (fun d n => Side.emit d (.sourceState n false)) (fun d n => emit_sameUnits d _)
    (d.evt.lastPend.filter fun n => !(sidePending d).contains n)
    (((sidePending d).filter fun n => !d.evt.lastPend.contains n).foldl
      (fun d n => (d.emit (.sourceState n true)).sourceRises lt n) d)
  have h3 : ∀ (e : Side) (v : SideEvt), sameUnits e { e with evt := v } := fun e v => by simp [sameUnits]
  exact (h1.trans h2).trans (h3 _ _)

/-! ## The state -/

theorem sameBlock.refl (s : State) : sameBlock s s := ⟨sameWork.refl _, sameUnits.refl _, sameUnits.refl _, rfl, rfl⟩

theorem sameBlock.trans {s t u : State} (h : sameBlock s t) (k : sameBlock t u) : sameBlock s u :=
  ⟨h.1.trans k.1, h.2.1.trans k.2.1, h.2.2.1.trans k.2.2.1, k.2.2.2.1.trans h.2.2.2.1, k.2.2.2.2.trans h.2.2.2.2⟩

theorem syncSide_sameBlock (s : State) (x : SideId) : sameBlock s (syncSide s x) := by
  unfold syncSide
  split
  · exact sameBlock.refl s
  · cases x
    · exact ⟨sameWork.refl _, syncSources_sameUnits _ _, sameUnits.refl _, rfl, rfl⟩
    · exact ⟨sameWork.refl _, sameUnits.refl _, syncSources_sameUnits _ _, rfl, rfl⟩

theorem takeReports_sameBlock (s : State) : sameBlock s (takeReports s) := by
  refine ⟨foldl_sameWork Commons.report (fun c r => report_sameWork c r) _ s.c, ?_, ?_, rfl, rfl⟩ <;>
    simp [sameUnits, takeReports]

theorem deliver_sameUnits (d : Side) (yes : Bool) (i : Seqd) : sameUnits d (d.deliver yes i) := by
  unfold Side.deliver
  split
  · simp [sameUnits]
  · exact sameUnits.refl d

theorem sequence_sameBlock (s : State) (i : Input) : sameBlock s (s.sequence i) :=
  ⟨by simp [sameWork, State.sequence], deliver_sameUnits _ _ _, deliver_sameUnits _ _ _, rfl, rfl⟩

theorem offer_sameBlock (s : State) (src : InputSource) (i : Input) : sameBlock s (s.offer src i) := by
  unfold State.offer
  split
  · exact ⟨by simp [sameWork], sameUnits.refl _, sameUnits.refl _, rfl, rfl⟩
  · exact sequence_sameBlock s i

theorem foldl_sameBlock {α : Type} (g : State → α → State) (h : ∀ c a, sameBlock c (g c a)) (l : List α) (c : State) :
    sameBlock c (l.foldl g c) := by
  induction l generalizing c with
  | nil => exact sameBlock.refl c
  | cons a l ih => exact (h c a).trans (ih _)

end Sys2Proof.Machine
end

