-- ==== Sys2Proof/Laws/KeepsRadio.lean ====
section
/-! SUPPORT. Operations of the commons' queues and radio that leave the queue of commands, the variant and LT as they are. -/

namespace Sys2Proof.Machine

open Sys2Proof

/-- A fold over a list keeps what each of its steps keeps. -/
@[simp] theorem foldl_keeps {α : Type} (g : State → α → State)
    (h : ∀ s a, (g s a).pending = s.pending ∧ (g s a).variant = s.variant ∧ (g s a).c.lt = s.c.lt) (l : List α) (s : State) :
    (l.foldl g s).pending = s.pending ∧ (l.foldl g s).variant = s.variant ∧ (l.foldl g s).c.lt = s.c.lt := by
  induction l generalizing s with
  | nil => simp
  | cons a l ih =>
    have h1 := ih (g s a)
    have h2 := h s a
    simp only [List.foldl]
    exact ⟨h1.1.trans h2.1, h1.2.1.trans h2.2.1, h1.2.2.trans h2.2.2⟩

/-- The same for the commons. -/
@[simp] theorem foldl_lt {α : Type} (g : Commons → α → Commons) (h : ∀ c a, (g c a).lt = c.lt) (l : List α) (c : Commons) :
    (l.foldl g c).lt = c.lt := by
  induction l generalizing c with
  | nil => rfl
  | cons a l ih => simp only [List.foldl]; exact (ih _).trans (h c a)

@[simp] theorem State.sequence_keeps (s : State) (i : Input) :
    (State.sequence s i).pending = s.pending ∧ (State.sequence s i).variant = s.variant ∧ (State.sequence s i).c.lt = s.c.lt := by
  unfold State.sequence
  repeat' (first | (simp; done) | split | simp)

@[simp] theorem State.offer_keeps (s : State) (src : InputSource) (i : Input) :
    (State.offer s src i).pending = s.pending ∧ (State.offer s src i).variant = s.variant ∧ (State.offer s src i).c.lt = s.c.lt := by
  unfold State.offer
  repeat' (first | (simp; done) | split | simp)

@[simp] theorem State.notice_keeps (s : State) (n : Notice) :
    (State.notice s n).pending = s.pending ∧ (State.notice s n).variant = s.variant ∧ (State.notice s n).c.lt = s.c.lt := by
  unfold State.notice
  repeat' (first | (simp; done) | split | simp)

@[simp] theorem grant_keeps (s : State) (tgt : SideId) (marker : Bool) :
    (grant s tgt marker).pending = s.pending ∧ (grant s tgt marker).variant = s.variant ∧ (grant s tgt marker).c.lt = s.c.lt := by
  unfold grant
  repeat' (first | (simp; done) | split | simp)

@[simp] theorem revoke_keeps (s : State) :
    (revoke s).pending = s.pending ∧ (revoke s).variant = s.variant ∧ (revoke s).c.lt = s.c.lt := by
  unfold revoke
  repeat' (first | (simp; done) | split | simp)

@[simp] theorem endDrill_keeps (s : State) :
    (endDrill s).pending = s.pending ∧ (endDrill s).variant = s.variant ∧ (endDrill s).c.lt = s.c.lt := by
  unfold endDrill
  repeat' (first | (simp; done) | split | simp)

@[simp] theorem failUpdates_keeps (s : State) (cause : Nat) :
    (failUpdates s cause).pending = s.pending ∧ (failUpdates s cause).variant = s.variant ∧ (failUpdates s cause).c.lt = s.c.lt := by
  unfold failUpdates
  repeat' (first | (simp; done) | split | simp)

@[simp] theorem halt_keeps (s : State) :
    (halt s).pending = s.pending ∧ (halt s).variant = s.variant ∧ (halt s).c.lt = s.c.lt := by
  unfold halt
  repeat' (first | (simp; done) | split | simp)

@[simp] theorem mismatch_keeps (s : State) (cause : Nat) (point : Nat) (mA : Option Txn) (mB : Option Txn) (rA : Option Bool) (rB : Option Bool) :
    (mismatch s cause point mA mB rA rB).pending = s.pending ∧ (mismatch s cause point mA mB rA rB).variant = s.variant ∧ (mismatch s cause point mA mB rA rB).c.lt = s.c.lt := by
  unfold mismatch
  repeat' (first | (simp; done) | split | simp)

@[simp] theorem refillFail_keeps (s : State) (cause : Nat) :
    (refillFail s cause).pending = s.pending ∧ (refillFail s cause).variant = s.variant ∧ (refillFail s cause).c.lt = s.c.lt := by
  unfold refillFail
  repeat' (first | (simp; done) | split | simp)

@[simp] theorem sideError_keeps (s : State) (x : SideId) :
    (sideError s x).pending = s.pending ∧ (sideError s x).variant = s.variant ∧ (sideError s x).c.lt = s.c.lt := by
  unfold sideError
  repeat' (first | (simp; done) | split | simp)

@[simp] theorem trackSkew_keeps (s : State) :
    (trackSkew s).pending = s.pending ∧ (trackSkew s).variant = s.variant ∧ (trackSkew s).c.lt = s.c.lt := by
  unfold trackSkew
  repeat' (first | (simp; done) | split | simp)

@[simp] theorem Commons.message_keeps (c : Commons) (second : Bool) (vec : Nat) :
    (Commons.message c second vec).lt = c.lt := by
  unfold Commons.message
  repeat' (first | (simp; done) | split | simp)

@[simp] theorem Commons.messageDue_keeps (c : Commons) (second : Bool) (vec : Nat) :
    (Commons.messageDue c second vec).lt = c.lt := by
  unfold Commons.messageDue
  repeat' (first | (simp; done) | split | simp)

@[simp] theorem Commons.trySend_keeps (second : Bool) (c : Commons) (src : Nat) :
    (Commons.trySend second c src).lt = c.lt := by
  unfold Commons.trySend
  repeat' (first | (simp; done) | split | simp)

@[simp] theorem Commons.errEvent_keeps (c : Commons) (bit : Nat) :
    (Commons.errEvent c bit).lt = c.lt := by
  unfold Commons.errEvent
  repeat' (first | (simp; done) | split | simp)

@[simp] theorem Commons.summarise_keeps (c : Commons) (sum : List Nat) :
    (Commons.summarise c sum).lt = c.lt := by
  unfold Commons.summarise
  repeat' (first | (simp; done) | split | simp)

@[simp] theorem Commons.raise_keeps (c : Commons) (now : List Nat) :
    (Commons.raise c now).lt = c.lt := by
  unfold Commons.raise
  repeat' (first | (simp; done) | split | simp)

@[simp] theorem Commons.report_keeps (c : Commons) (z0 : Report) :
    (Commons.report c z0).lt = c.lt := by
  unfold Commons.report
  repeat' (first | (simp; done) | split | simp)

@[simp] theorem takeReports_keeps (s : State) :
    (takeReports s).pending = s.pending ∧ (takeReports s).variant = s.variant ∧ (takeReports s).c.lt = s.c.lt := by
  unfold takeReports
  repeat' (first | (simp; done) | split | simp)

@[simp] theorem syncSide_keeps (s : State) (x : SideId) :
    (syncSide s x).pending = s.pending ∧ (syncSide s x).variant = s.variant ∧ (syncSide s x).c.lt = s.c.lt := by
  unfold syncSide
  repeat' (first | (simp; done) | split | simp)

@[simp] theorem refresh_keeps (s : State) :
    (refresh s).pending = s.pending ∧ (refresh s).variant = s.variant ∧ (refresh s).c.lt = s.c.lt := by
  unfold refresh
  repeat' (first | (simp; done) | split | simp)

@[simp] theorem closeLanes_keeps (c : Commons) (p : RPort) (sel : Lane → Bool) (page : Nat) (off : Nat) :
    (closeLanes c p sel page off).lt = c.lt := by
  unfold closeLanes
  repeat' (first | (simp; done) | split | simp)

@[simp] theorem reblank_keeps (c : Commons) (p : RPort) :
    (reblank c p).lt = c.lt := by
  unfold reblank
  repeat' (first | (simp; done) | split | simp)

@[simp] theorem Commons.updCar_keeps (c : Commons) (p : RPort) (n : Nat) (f : Carrier → Carrier) :
    (Commons.updCar c p n f).lt = c.lt := by
  unfold Commons.updCar
  repeat' (first | (simp; done) | split | simp)

@[simp] theorem completeLaunch_keeps (s : State) (l : Launch) (status : Nat) (lt : Nat) (air : Nat) :
    (completeLaunch s l status lt air).pending = s.pending ∧ (completeLaunch s l status lt air).variant = s.variant ∧ (completeLaunch s l status lt air).c.lt = s.c.lt := by
  unfold completeLaunch
  repeat' (first | (simp; done) | split | simp)

@[simp] theorem lateCheck_keeps (s : State) (p : RPort) (n : Nat) (l : Launch) (d : ChanDef) :
    (lateCheck s p n l d).pending = s.pending ∧ (lateCheck s p n l d).variant = s.variant ∧ (lateCheck s p n l d).c.lt = s.c.lt := by
  unfold lateCheck
  repeat' (first | (simp; done) | split | simp)

@[simp] theorem launchArrive_keeps (s : State) (p : RPort) (n : Nat) :
    (launchArrive s p n).pending = s.pending ∧ (launchArrive s p n).variant = s.variant ∧ (launchArrive s p n).c.lt = s.c.lt := by
  unfold launchArrive
  repeat' (first | (simp; done) | split | simp)

@[simp] theorem carrierFrees_keeps (s : State) (p : RPort) (n : Nat) :
    (carrierFrees s p n).pending = s.pending ∧ (carrierFrees s p n).variant = s.variant ∧ (carrierFrees s p n).c.lt = s.c.lt := by
  unfold carrierFrees
  repeat' (first | (simp; done) | split | simp)

@[simp] theorem charge_keeps (c : Commons) (p : RPort) (d : ChanDef) (ch : Nat) (air : Nat) (acct : Bool) :
    (charge c p d ch air acct).lt = c.lt := by
  unfold charge
  repeat' (first | (simp; done) | split | simp)

@[simp] theorem setBurst_keeps (c : Commons) (p : RPort) (n : Nat) (i : Nat) (b : Burst) :
    (setBurst c p n i b).lt = c.lt := by
  unfold setBurst
  repeat' (first | (simp; done) | split | simp)

@[simp] theorem dropBurst_keeps (c : Commons) (p : RPort) (n : Nat) (i : Nat) :
    (dropBurst c p n i).lt = c.lt := by
  unfold dropBurst
  repeat' (first | (simp; done) | split | simp)

@[simp] theorem vet_keeps (s : State) (p : RPort) (n : Nat) (i : Nat) (b : Burst) (b' : Burst) :
    (vet s p n i b b').pending = s.pending ∧ (vet s p n i b b').variant = s.variant ∧ (vet s p n i b b').c.lt = s.c.lt := by
  unfold vet
  repeat' (first | (simp; done) | split | simp)

@[simp] theorem holdBurst_keeps (s : State) (p : RPort) (n : Nat) (i : Nat) (b : Burst) :
    (holdBurst s p n i b).pending = s.pending ∧ (holdBurst s p n i b).variant = s.variant ∧ (holdBurst s p n i b).c.lt = s.c.lt := by
  unfold holdBurst
  repeat' (first | (simp; done) | split | simp)

@[simp] theorem holdCovered_keeps (c : Commons) (p : RPort) :
    (holdCovered c p).lt = c.lt := by
  unfold holdCovered
  repeat' (first | (simp; done) | split | simp)

@[simp] theorem launchCheck_keeps (s : State) (p : RPort) (n : Nat) :
    (launchCheck s p n).pending = s.pending ∧ (launchCheck s p n).variant = s.variant ∧ (launchCheck s p n).c.lt = s.c.lt := by
  unfold launchCheck
  repeat' (first | (simp; done) | split | simp)

@[simp] theorem listen_keeps (s : State) (p : RPort) (n : Nat) (code : Nat) :
    (listen s p n code).pending = s.pending ∧ (listen s p n code).variant = s.variant ∧ (listen s p n code).c.lt = s.c.lt := by
  unfold listen
  repeat' (first | (simp; done) | split | simp)

@[simp] theorem deferExpire_keeps (s : State) (p : RPort) (n : Nat) :
    (deferExpire s p n).pending = s.pending ∧ (deferExpire s p n).variant = s.variant ∧ (deferExpire s p n).c.lt = s.c.lt := by
  unfold deferExpire
  repeat' (first | (simp; done) | split | simp)

@[simp] theorem blankStart_keeps (s : State) (p : RPort) (n : Nat) :
    (blankStart s p n).pending = s.pending ∧ (blankStart s p n).variant = s.variant ∧ (blankStart s p n).c.lt = s.c.lt := by
  unfold blankStart
  repeat' (first | (simp; done) | split | simp)

@[simp] theorem burstStarts_keeps (s : State) (p : RPort) (n : Nat) (i : Nat) (b : Burst) :
    (burstStarts s p n i b).pending = s.pending ∧ (burstStarts s p n i b).variant = s.variant ∧ (burstStarts s p n i b).c.lt = s.c.lt := by
  unfold burstStarts
  repeat' (first | (simp; done) | split | simp)

@[simp] theorem burstBegin_keeps (s : State) (p : RPort) (n : Nat) :
    (burstBegin s p n).pending = s.pending ∧ (burstBegin s p n).variant = s.variant ∧ (burstBegin s p n).c.lt = s.c.lt := by
  unfold burstBegin
  repeat' (first | (simp; done) | split | simp)

@[simp] theorem burstFinish_keeps (s : State) (p : RPort) (n : Nat) :
    (burstFinish s p n).pending = s.pending ∧ (burstFinish s p n).variant = s.variant ∧ (burstFinish s p n).c.lt = s.c.lt := by
  unfold burstFinish
  repeat' (first | (simp; done) | split | simp)

@[simp] theorem blankFinish_keeps (s : State) (p : RPort) (n : Nat) :
    (blankFinish s p n).pending = s.pending ∧ (blankFinish s p n).variant = s.variant ∧ (blankFinish s p n).c.lt = s.c.lt := by
  unfold blankFinish
  repeat' (first | (simp; done) | split | simp)

@[simp] theorem reenterCarrier_keeps (s : State) (p : RPort) (n : Nat) :
    (reenterCarrier s p n).pending = s.pending ∧ (reenterCarrier s p n).variant = s.variant ∧ (reenterCarrier s p n).c.lt = s.c.lt := by
  unfold reenterCarrier
  have h := foldl_keeps (fun (s : State) (e : Held) => completeLaunch s e.launch stBadParam e.launch.lt 0) (by intro s e; simp)
  simp only [carrierFrees_keeps, h]
  simp

@[simp] theorem reenter_keeps (s : State) (p : RPort) :
    (reenter s p).pending = s.pending ∧ (reenter s p).variant = s.variant ∧ (reenter s p).c.lt = s.c.lt := by
  unfold reenter
  repeat' (first | (simp; done) | split | simp)

@[simp] theorem ackBegin_keeps (s : State) (p : RPort) (n : Nat) :
    (ackBegin s p n).pending = s.pending ∧ (ackBegin s p n).variant = s.variant ∧ (ackBegin s p n).c.lt = s.c.lt := by
  unfold ackBegin
  repeat' (first | (simp; done) | split | simp)

@[simp] theorem ackFinish_keeps (s : State) (p : RPort) (n : Nat) :
    (ackFinish s p n).pending = s.pending ∧ (ackFinish s p n).variant = s.variant ∧ (ackFinish s p n).c.lt = s.c.lt := by
  unfold ackFinish
  repeat' (first | (simp; done) | split | simp)

@[simp] theorem retuneNow_keeps (c : Commons) (p : RPort) (lo : Nat) :
    (retuneNow c p lo).lt = c.lt := by
  unfold retuneNow
  repeat' (first | (simp; done) | split | simp)

@[simp] theorem retuneBegin_keeps (s : State) (p : RPort) :
    (retuneBegin s p).pending = s.pending ∧ (retuneBegin s p).variant = s.variant ∧ (retuneBegin s p).c.lt = s.c.lt := by
  unfold retuneBegin
  repeat' (first | (simp; done) | split | simp)

@[simp] theorem retuneFinish_keeps (s : State) (p : RPort) :
    (retuneFinish s p).pending = s.pending ∧ (retuneFinish s p).variant = s.variant ∧ (retuneFinish s p).c.lt = s.c.lt := by
  unfold retuneFinish
  repeat' (first | (simp; done) | split | simp)

@[simp] theorem calBegin_keeps (c : Commons) (p : RPort) :
    (calBegin c p).lt = c.lt := by
  unfold calBegin
  repeat' (first | (simp; done) | split | simp)

@[simp] theorem calFinish_keeps (s : State) (p : RPort) (converged : Bool) :
    (calFinish s p converged).pending = s.pending ∧ (calFinish s p converged).variant = s.variant ∧ (calFinish s p converged).c.lt = s.c.lt := by
  unfold calFinish
  repeat' (first | (simp; done) | split | simp)

@[simp] theorem calWarn_keeps (s : State) (p : RPort) :
    (calWarn s p).pending = s.pending ∧ (calWarn s p).variant = s.variant ∧ (calWarn s p).c.lt = s.c.lt := by
  unfold calWarn
  repeat' (first | (simp; done) | split | simp)

@[simp] theorem gapBegin_keeps (s : State) (p : RPort) :
    (gapBegin s p).pending = s.pending ∧ (gapBegin s p).variant = s.variant ∧ (gapBegin s p).c.lt = s.c.lt := by
  unfold gapBegin
  repeat' (first | (simp; done) | split | simp)

@[simp] theorem gapFinish_keeps (s : State) (p : RPort) (ok : Bool) :
    (gapFinish s p ok).pending = s.pending ∧ (gapFinish s p ok).variant = s.variant ∧ (gapFinish s p ok).c.lt = s.c.lt := by
  unfold gapFinish
  repeat' (first | (simp; done) | split | simp)

@[simp] theorem bucketStep_keeps (c : Commons) :
    (bucketStep c).lt = c.lt := by
  unfold bucketStep
  repeat' (first | (simp; done) | split | simp)

@[simp] theorem dwellStep_keeps (c : Commons) (p : RPort) :
    (dwellStep c p).lt = c.lt := by
  unfold dwellStep
  repeat' (first | (simp; done) | split | simp)

@[simp] theorem writeLoFreq_keeps (c : Commons) (p : RPort) (v : Word) :
    (writeLoFreq c p v).lt = c.lt := by
  unfold writeLoFreq
  repeat' (first | (simp; done) | split | simp)

@[simp] theorem writePortCfg_keeps (c : Commons) (p : RPort) (on : Bool) (v : Word) :
    (writePortCfg c p on v).lt = c.lt := by
  unfold writePortCfg
  repeat' (first | (simp; done) | split | simp)

@[simp] theorem writeBlankDist_keeps (c : Commons) (p : RPort) (v : Word) :
    (writeBlankDist c p v).lt = c.lt := by
  unfold writeBlankDist
  repeat' (first | (simp; done) | split | simp)

@[simp] theorem chanWrite_keeps (s : State) (p : RPort) :
    (chanWrite s p).pending = s.pending ∧ (chanWrite s p).variant = s.variant ∧ (chanWrite s p).c.lt = s.c.lt := by
  unfold chanWrite
  repeat' (first | (simp; done) | split | simp)

@[simp] theorem chanRead_keeps (c : Commons) (p : RPort) :
    (chanRead c p).lt = c.lt := by
  unfold chanRead
  repeat' (first | (simp; done) | split | simp)

@[simp] theorem feApply_keeps (c : Commons) (n : Nat) :
    (feApply c n).lt = c.lt := by
  unfold feApply
  repeat' (first | (simp; done) | split | simp)

@[simp] theorem feEdge_keeps (c : Commons) (n : Nat) :
    (feEdge c n).lt = c.lt := by
  unfold feEdge
  repeat' (first | (simp; done) | split | simp)

@[simp] theorem adcClips_keeps (c : Commons) (p : RPort) :
    (adcClips c p).lt = c.lt := by
  unfold adcClips
  repeat' (first | (simp; done) | split | simp)

@[simp] theorem launchDark_keeps (s : State) (p : RPort) (n : Nat) :
    (launchDark s p n).pending = s.pending ∧ (launchDark s p n).variant = s.variant ∧ (launchDark s p n).c.lt = s.c.lt := by
  unfold launchDark
  repeat' (first | (simp; done) | split | simp)

@[simp] theorem countDet_keeps (c : Commons) (p : RPort) (off : Nat) (chOff : Nat) (ch : Nat) :
    (countDet c p off chOff ch).lt = c.lt := by
  unfold countDet
  repeat' (first | (simp; done) | split | simp)

@[simp] theorem seekLane_keeps (c : Commons) (p : RPort) (d : Det) :
    (seekLane c p d).lt = c.lt := by
  unfold seekLane
  repeat' (first | (simp; done) | split | simp)

@[simp] theorem serveWinners_keeps (c : Commons) (p : RPort) (ds : List Det) :
    (serveWinners c p ds).lt = c.lt := by
  unfold serveWinners
  repeat' (first | (simp; done) | split | simp)

@[simp] theorem detect_keeps (c : Commons) (p : RPort) (ch : Nat) (mode : Nat) (freq : Nat) (quality : Nat) (power : Nat) :
    (detect c p ch mode freq quality power).lt = c.lt := by
  unfold detect
  repeat' (first | (simp; done) | split | simp)

@[simp] theorem mergeClose_keeps (c : Commons) (p : RPort) :
    (mergeClose c p).lt = c.lt := by
  unfold mergeClose
  repeat' (first | (simp; done) | split | simp)

@[simp] theorem Commons.updLane_keeps (c : Commons) (p : RPort) (l : Lane) :
    (Commons.updLane c p l).lt = c.lt := by
  unfold Commons.updLane
  repeat' (first | (simp; done) | split | simp)

@[simp] theorem closeLane_keeps (c : Commons) (p : RPort) (no : Nat) (page : Nat) (off : Nat) :
    (closeLane c p no page off).lt = c.lt := by
  unfold closeLane
  repeat' (first | (simp; done) | split | simp)

@[simp] theorem sfdFound_keeps (c : Commons) (p : RPort) (no : Nat) (lt : Nat) :
    (sfdFound c p no lt).lt = c.lt := by
  unfold sfdFound
  repeat' (first | (simp; done) | split | simp)

@[simp] theorem sfdExpire_keeps (c : Commons) (p : RPort) (no : Nat) :
    (sfdExpire c p no).lt = c.lt := by
  unfold sfdExpire
  repeat' (first | (simp; done) | split | simp)

@[simp] theorem phrDecode_keeps (s : State) (p : RPort) (no : Nat) (h : PhrData) :
    (phrDecode s p no h).pending = s.pending ∧ (phrDecode s p no h).variant = s.variant ∧ (phrDecode s p no h).c.lt = s.c.lt := by
  unfold phrDecode
  repeat' (first | (simp; done) | split | simp)

@[simp] theorem loseSync_keeps (c : Commons) (p : RPort) (no : Nat) :
    (loseSync c p no).lt = c.lt := by
  unfold loseSync
  repeat' (first | (simp; done) | split | simp)

@[simp] theorem writeChLanes_keeps (c : Commons) (p : RPort) (v : Word) :
    (writeChLanes c p v).lt = c.lt := by
  unfold writeChLanes
  repeat' (first | (simp; done) | split | simp)

@[simp] theorem writePortLimit_keeps (c : Commons) (p : RPort) (v : Word) :
    (writePortLimit c p v).lt = c.lt := by
  unfold writePortLimit
  repeat' (first | (simp; done) | split | simp)

@[simp] theorem busyAcc_keeps (c : Commons) (ms : Nat) (p : RPort) :
    (busyAcc c ms p).lt = c.lt := by
  unfold busyAcc
  repeat' (first | (simp; done) | split | simp)

@[simp] theorem preempt_keeps (c : Commons) (p : RPort) (n : Nat) (a : Burst) :
    (preempt c p n a).lt = c.lt := by
  unfold preempt
  repeat' (first | (simp; done) | split | simp)

@[simp] theorem bufferFrame_keeps (c : Commons) (f : RxFrame) :
    (bufferFrame c f).lt = c.lt := by
  unfold bufferFrame
  repeat' (first | (simp; done) | split | simp)

@[simp] theorem goodFrame_keeps (c : Commons) (p : RPort) (l : Lane) (h : PhrData) (e : RxEnd) :
    (goodFrame c p l h e).lt = c.lt := by
  unfold goodFrame
  dsimp only
  repeat' (first | (simp; done) | split | simp)

@[simp] theorem fcsDecide_keeps (c : Commons) (p : RPort) (no : Nat) (e : RxEnd) :
    (fcsDecide c p no e).lt = c.lt := by
  unfold fcsDecide
  repeat' (first | (simp; done) | split | simp)

@[simp] theorem fcsDecisionCore_keeps (s : State) (p : RPort) (no : Nat) (e : RxEnd) :
    (fcsDecisionCore s p no e).pending = s.pending ∧ (fcsDecisionCore s p no e).variant = s.variant ∧ (fcsDecisionCore s p no e).c.lt = s.c.lt := by
  unfold fcsDecisionCore
  repeat' (first | (simp; done) | split | simp)

@[simp] theorem plUpdate_keeps (s : State) (want : PlOp → Bool) :
    (plUpdate s want).pending = s.pending ∧ (plUpdate s want).variant = s.variant ∧ (plUpdate s want).c.lt = s.c.lt := by
  unfold plUpdate
  repeat' (first | (simp; done) | split | simp)

@[simp] theorem plQuery_keeps (c : Commons) (v : Word) :
    (plQuery c v).lt = c.lt := by
  unfold plQuery
  repeat' (first | (simp; done) | split | simp)

end Sys2Proof.Machine
end

