-- ==== Sys2Proof/Laws/KeepsTime.lean ====
section
/-! SUPPORT. Operations of time, units and hosts that leave the queue of commands, the variant and LT as they are. -/

namespace Sys2Proof.Machine

open Sys2Proof

@[simp] theorem Commons.flag_keeps (c : Commons) (n : Nat) :
    (Commons.flag c n).lt = c.lt := by
  unfold Commons.flag
  repeat' (first | (simp; done) | split | simp)

@[simp] theorem slotExpire_keeps (s : State) (n : Nat) (late : Bool) :
    (slotExpire s n late).pending = s.pending ∧ (slotExpire s n late).variant = s.variant ∧ (slotExpire s n late).c.lt = s.c.lt := by
  unfold slotExpire
  repeat' (first | (simp; done) | split | simp)

@[simp] theorem slotDue_keeps (s : State) (n : Nat) :
    (slotDue s n).pending = s.pending ∧ (slotDue s n).variant = s.variant ∧ (slotDue s n).c.lt = s.c.lt := by
  unfold slotDue
  repeat' (first | (simp; done) | split | simp)

@[simp] theorem slotLate_keeps (s : State) (n : Nat) :
    (slotLate s n).pending = s.pending ∧ (slotLate s n).variant = s.variant ∧ (slotLate s n).c.lt = s.c.lt := by
  unfold slotLate
  repeat' (first | (simp; done) | split | simp)

@[simp] theorem writeTmrCtrl_keeps (s : State) (n : Nat) (w : Word) :
    (writeTmrCtrl s n w).pending = s.pending ∧ (writeTmrCtrl s n w).variant = s.variant ∧ (writeTmrCtrl s n w).c.lt = s.c.lt := by
  unfold writeTmrCtrl
  repeat' (first | (simp; done) | split | simp)

@[simp] theorem Commons.setTpo_keeps (c : Commons) (n : Nat) (x : TpoState) :
    (Commons.setTpo c n x).lt = c.lt := by
  unfold Commons.setTpo
  repeat' (first | (simp; done) | split | simp)

@[simp] theorem tpoFlag_keeps (c : Commons) (n : Nat) (bit : Nat) :
    (tpoFlag c n bit).lt = c.lt := by
  unfold tpoFlag
  repeat' (first | (simp; done) | split | simp)

@[simp] theorem tpoMiss_keeps (c : Commons) (n : Nat) (k : Nat) :
    (tpoMiss c n k).lt = c.lt := by
  unfold tpoMiss
  repeat' (first | (simp; done) | split | simp)

@[simp] theorem tpoOver_keeps (c : Commons) (n : Nat) (active : Bool) :
    (tpoOver c n active).lt = c.lt := by
  unfold tpoOver
  repeat' (first | (simp; done) | split | simp)

@[simp] theorem tpoArm_keeps (c : Commons) (n : Nat) :
    (tpoArm c n).lt = c.lt := by
  unfold tpoArm
  repeat' (first | (simp; done) | split | simp)

@[simp] theorem writeTpoCtrl_keeps (c : Commons) (n : Nat) (v : Word) :
    (writeTpoCtrl c n v).lt = c.lt := by
  unfold writeTpoCtrl
  repeat' (first | (simp; done) | split | simp)

@[simp] theorem tpoEndPulse_keeps (c : Commons) (n : Nat) (x : TpoState) (e : Nat) (active : Bool) :
    (tpoEndPulse c n x e active).lt = c.lt := by
  unfold tpoEndPulse
  repeat' (first | (simp; done) | split | simp)

@[simp] theorem tpoSkip_keeps (c : Commons) (n : Nat) (x : TpoState) (k : Nat) :
    (tpoSkip c n x k).lt = c.lt := by
  unfold tpoSkip
  repeat' (first | (simp; done) | split | simp)

@[simp] theorem tpoEdge_keeps (c : Commons) (n : Nat) :
    (tpoEdge c n).lt = c.lt := by
  unfold tpoEdge
  repeat' (first | (simp; done) | split | simp)

@[simp] theorem tpoRetarget_keeps (c : Commons) (n : Nat) (off : Nat) :
    (tpoRetarget c n off).lt = c.lt := by
  unfold tpoRetarget
  repeat' (first | (simp; done) | split | simp)

@[simp] theorem rebaseCommons_keeps (c : Commons) (step : Nat) :
    (rebaseCommons c step).lt = c.lt := by
  unfold rebaseCommons
  repeat' (first | (simp; done) | split | simp)

@[simp] theorem passOver_keeps (s : State) (old : Nat) (new : Nat) :
    (passOver s old new).pending = s.pending ∧ (passOver s old new).variant = s.variant ∧ (passOver s old new).c.lt = s.c.lt := by
  unfold passOver
  dsimp only
  have h := foldl_keeps (fun (s : State) (n : Nat) =>
    if tmrArmed s.c.regs n ∧ stPassed old new (tmrTarget s.c.regs n) then slotExpire s n true else s)
    (by intro s n; split <;> simp) (List.range 32)
  simp [h]

@[simp] theorem Commons.delaysStepped_keeps (c : Commons) (step : Nat) :
    (Commons.delaysStepped c step).lt = c.lt := by
  unfold Commons.delaysStepped
  repeat' (first | (simp; done) | split | simp)

@[simp] theorem refuseStep_keeps (c : Commons) (off : Int) :
    (refuseStep c off).lt = c.lt := by
  unfold refuseStep
  repeat' (first | (simp; done) | split | simp)

@[simp] theorem servo_keeps (c : Commons) (code : Nat) :
    (servo c code).lt = c.lt := by
  unfold servo
  repeat' (first | (simp; done) | split | simp)

@[simp] theorem switchTo_keeps (c : Commons) (code : Nat) :
    (switchTo c code).lt = c.lt := by
  unfold switchTo
  repeat' (first | (simp; done) | split | simp)

@[simp] theorem noteValid_keeps (c : Commons) (code : Nat) (off : Int) :
    (noteValid c code off).lt = c.lt := by
  unfold noteValid
  repeat' (first | (simp; done) | split | simp)

@[simp] theorem writeTod_keeps (c : Commons) :
    (writeTod c).lt = c.lt := by
  unfold writeTod
  repeat' (first | (simp; done) | split | simp)

@[simp] theorem ref10Seen_keeps (c : Commons) :
    (ref10Seen c).lt = c.lt := by
  unfold ref10Seen
  repeat' (first | (simp; done) | split | simp)

@[simp] theorem acceptSlewCore_keeps (c : Commons) :
    (acceptSlewCore c).lt = c.lt := by
  unfold acceptSlewCore
  repeat' (first | (simp; done) | split | simp)

@[simp] theorem slewEnd_keeps (c : Commons) :
    (slewEnd c).lt = c.lt := by
  unfold slewEnd
  repeat' (first | (simp; done) | split | simp)

@[simp] theorem holdoverExpire_keeps (c : Commons) :
    (holdoverExpire c).lt = c.lt := by
  unfold holdoverExpire
  repeat' (first | (simp; done) | split | simp)

@[simp] theorem xtalStops_keeps (c : Commons) :
    (xtalStops c).lt = c.lt := by
  unfold xtalStops
  repeat' (first | (simp; done) | split | simp)

@[simp] theorem coreOp_keeps (s : State) (x : SideId) (n : Nat) (args : Nat × Nat) (f : Side → Side) :
    (coreOp s x n args f).pending = s.pending ∧ (coreOp s x n args f).variant = s.variant ∧ (coreOp s x n args f).c.lt = s.c.lt := by
  unfold coreOp
  repeat' (first | (simp; done) | split | simp)

@[simp] theorem tableCmd_keeps (s : State) (x : SideId) (strand : Nat) (code : Nat) (unit : Nat) (f : Side → List Byte → Nat × List Byte × Side) :
    (tableCmd s x strand code unit f).pending = s.pending ∧ (tableCmd s x strand code unit f).variant = s.variant ∧ (tableCmd s x strand code unit f).c.lt = s.c.lt := by
  unfold tableCmd
  repeat' (first | (simp; done) | split | simp)

@[simp] theorem camCmd_keeps (s : State) (x : SideId) (strand : Nat) (code : Nat) (f : Side → List Byte → Nat × List Byte × Side) :
    (camCmd s x strand code f).pending = s.pending ∧ (camCmd s x strand code f).variant = s.variant ∧ (camCmd s x strand code f).c.lt = s.c.lt := by
  unfold camCmd
  repeat' (first | (simp; done) | split | simp)

@[simp] theorem ibeLoad_keeps (s : State) (a : IbeArgs) :
    (ibeLoad s a).pending = s.pending ∧ (ibeLoad s a).variant = s.variant ∧ (ibeLoad s a).c.lt = s.c.lt := by
  unfold ibeLoad
  repeat' (first | (simp; done) | split | simp)

@[simp] theorem ibeFinish_keeps (s : State) (cause : Nat) :
    (ibeFinish s cause).pending = s.pending ∧ (ibeFinish s cause).variant = s.variant ∧ (ibeFinish s cause).c.lt = s.c.lt := by
  unfold ibeFinish
  repeat' (first | (simp; done) | split | simp)

@[simp] theorem ibeLoaded_keeps (s : State) :
    (ibeLoaded s).pending = s.pending ∧ (ibeLoaded s).variant = s.variant ∧ (ibeLoaded s).c.lt = s.c.lt := by
  unfold ibeLoaded
  repeat' (first | (simp; done) | split | simp)

@[simp] theorem ibeStopDue_keeps (s : State) :
    (ibeStopDue s).pending = s.pending ∧ (ibeStopDue s).variant = s.variant ∧ (ibeStopDue s).c.lt = s.c.lt := by
  unfold ibeStopDue
  repeat' (first | (simp; done) | split | simp)

@[simp] theorem symServe_keeps (s0 : State) :
    (symServe s0).pending = s0.pending ∧ (symServe s0).variant = s0.variant ∧ (symServe s0).c.lt = s0.c.lt := by
  unfold symServe
  repeat' (first | (simp; done) | split | simp)

@[simp] theorem reportAdd_keeps (s : State) :
    (reportAdd s).pending = s.pending ∧ (reportAdd s).variant = s.variant ∧ (reportAdd s).c.lt = s.c.lt := by
  unfold reportAdd
  dsimp only
  repeat' (first | (simp; done) | split | simp)

@[simp] theorem imageCmd_keeps (s : State) (x : SideId) (strand : Nat) (code : Nat) (f : Side → List Byte → Nat × List Byte × Side) :
    (imageCmd s x strand code f).pending = s.pending ∧ (imageCmd s x strand code f).variant = s.variant ∧ (imageCmd s x strand code f).c.lt = s.c.lt := by
  unfold imageCmd
  repeat' (first | (simp; done) | split | simp)

@[simp] theorem keyCmd_keeps (s : State) (x : SideId) (strand : Nat) (code : Nat) (f : Side → List Byte → Nat × List Byte × Side) :
    (keyCmd s x strand code f).pending = s.pending ∧ (keyCmd s x strand code f).variant = s.variant ∧ (keyCmd s x strand code f).c.lt = s.c.lt := by
  unfold keyCmd
  repeat' (first | (simp; done) | split | simp)

@[simp] theorem bootSide_keeps (s : State) (x : SideId) (keepRoot : Bool) :
    (bootSide s x keepRoot).pending = s.pending ∧ (bootSide s x keepRoot).variant = s.variant ∧ (bootSide s x keepRoot).c.lt = s.c.lt := by
  unfold bootSide
  repeat' (first | (simp; done) | split | simp)

@[simp] theorem startSide_keeps (s : State) (x : SideId) (run : Nat) :
    (startSide s x run).pending = s.pending ∧ (startSide s x run).variant = s.variant ∧ (startSide s x run).c.lt = s.c.lt := by
  unfold startSide
  repeat' (first | (simp; done) | split | simp)

@[simp] theorem bootFails_keeps (s : State) (x : SideId) :
    (bootFails s x).pending = s.pending ∧ (bootFails s x).variant = s.variant ∧ (bootFails s x).c.lt = s.c.lt := by
  unfold bootFails
  repeat' (first | (simp; done) | split | simp)

@[simp] theorem trySlot_keeps (s : State) (x : SideId) (factory : Bool) :
    (trySlot s x factory).pending = s.pending ∧ (trySlot s x factory).variant = s.variant ∧ (trySlot s x factory).c.lt = s.c.lt := by
  unfold trySlot
  repeat' (first | (simp; done) | split | simp)

@[simp] theorem tryHostImage_keeps (s : State) (x : SideId) :
    (tryHostImage s x).pending = s.pending ∧ (tryHostImage s x).variant = s.variant ∧ (tryHostImage s x).c.lt = s.c.lt := by
  unfold tryHostImage
  dsimp only
  repeat' (first | (simp; done) | split | simp)

@[simp] theorem commonsEnable_keeps (s : State) :
    (commonsEnable s).pending = s.pending ∧ (commonsEnable s).variant = s.variant ∧ (commonsEnable s).c.lt = s.c.lt := by
  unfold commonsEnable
  repeat' (first | (simp; done) | split | simp)

@[simp] theorem firstGrant_keeps (s : State) (tgt : SideId) :
    (firstGrant s tgt).pending = s.pending ∧ (firstGrant s tgt).variant = s.variant ∧ (firstGrant s tgt).c.lt = s.c.lt := by
  unfold firstGrant
  repeat' (first | (simp; done) | split | simp)

@[simp] theorem tryGrant_keeps (s : State) :
    (tryGrant s).pending = s.pending ∧ (tryGrant s).variant = s.variant ∧ (tryGrant s).c.lt = s.c.lt := by
  unfold tryGrant
  repeat' (first | (simp; done) | split | simp)

@[simp] theorem verifyImage_keeps (s : State) (x : SideId) (factory : Bool) :
    (verifyImage s x factory).pending = s.pending ∧ (verifyImage s x factory).variant = s.variant ∧ (verifyImage s x factory).c.lt = s.c.lt := by
  unfold verifyImage
  repeat' (first | (simp; done) | split | simp)

@[simp] theorem leave_keeps (s : State) (x : SideId) :
    (leave s x).pending = s.pending ∧ (leave s x).variant = s.variant ∧ (leave s x).c.lt = s.c.lt := by
  unfold leave
  repeat' (first | (simp; done) | split | simp)

@[simp] theorem startRefill_keeps (s : State) (x : SideId) (tries : Nat) (fwu : Bool) :
    (startRefill s x tries fwu).pending = s.pending ∧ (startRefill s x tries fwu).variant = s.variant ∧ (startRefill s x tries fwu).c.lt = s.c.lt := by
  unfold startRefill
  repeat' (first | (simp; done) | split | simp)

@[simp] theorem sideReady_keeps (s : State) (x : SideId) :
    (sideReady s x).pending = s.pending ∧ (sideReady s x).variant = s.variant ∧ (sideReady s x).c.lt = s.c.lt := by
  unfold sideReady
  repeat' (first | (simp; done) | split | simp)

@[simp] theorem applyTransfer_keeps (s : State) (y : SideId) :
    (applyTransfer s y).pending = s.pending ∧ (applyTransfer s y).variant = s.variant ∧ (applyTransfer s y).c.lt = s.c.lt := by
  unfold applyTransfer
  repeat' (first | (simp; done) | split | simp)

@[simp] theorem sequenceTransfer_keeps (s : State) :
    (sequenceTransfer s).pending = s.pending ∧ (sequenceTransfer s).variant = s.variant ∧ (sequenceTransfer s).c.lt = s.c.lt := by
  unfold sequenceTransfer
  repeat' (first | (simp; done) | split | simp)

@[simp] theorem copyDone_keeps (s : State) :
    (copyDone s).pending = s.pending ∧ (copyDone s).variant = s.variant ∧ (copyDone s).c.lt = s.c.lt := by
  unfold copyDone
  repeat' (first | (simp; done) | split | simp)

@[simp] theorem sequenceJoin_keeps (s : State) :
    (sequenceJoin s).pending = s.pending ∧ (sequenceJoin s).variant = s.variant ∧ (sequenceJoin s).c.lt = s.c.lt := by
  unfold sequenceJoin
  repeat' (first | (simp; done) | split | simp)

@[simp] theorem joinBoth_keeps (s : State) :
    (joinBoth s).pending = s.pending ∧ (joinBoth s).variant = s.variant ∧ (joinBoth s).c.lt = s.c.lt := by
  unfold joinBoth
  repeat' (first | (simp; done) | split | simp)

@[simp] theorem updateSwap_keeps (s : State) :
    (updateSwap s).pending = s.pending ∧ (updateSwap s).variant = s.variant ∧ (updateSwap s).c.lt = s.c.lt := by
  unfold updateSwap
  repeat' (first | (simp; done) | split | simp)

@[simp] theorem retryRefill_keeps (s : State) :
    (retryRefill s).pending = s.pending ∧ (retryRefill s).variant = s.variant ∧ (retryRefill s).c.lt = s.c.lt := by
  unfold retryRefill
  repeat' (first | (simp; done) | split | simp)

@[simp] theorem startUpdate_keeps (s : State) :
    (startUpdate s).pending = s.pending ∧ (startUpdate s).variant = s.variant ∧ (startUpdate s).c.lt = s.c.lt := by
  unfold startUpdate
  repeat' (first | (simp; done) | split | simp)

@[simp] theorem sleepersOff_keeps (s : State) (x : SideId) :
    (sleepersOff s x).pending = s.pending ∧ (sleepersOff s x).variant = s.variant ∧ (sleepersOff s x).c.lt = s.c.lt := by
  unfold sleepersOff
  repeat' (first | (simp; done) | split | simp)

@[simp] theorem Commons.firstTrip_keeps (c : Commons) :
    (Commons.firstTrip c).lt = c.lt := by
  unfold Commons.firstTrip
  split
  · exact Commons.updR_lt c _
  · rfl

@[simp] theorem recordTrip_keeps (s : State) (n : Nat) (phase : Nat) :
    (recordTrip s n phase).pending = s.pending ∧ (recordTrip s n phase).variant = s.variant ∧ (recordTrip s n phase).c.lt = s.c.lt := by
  unfold recordTrip
  refine ⟨State.updC_pending .., State.updC_variant .., ?_⟩
  rw [State.updC_c, Commons.count_lt, Commons.hwSet_lt, Commons.firstTrip_keeps]

@[simp] theorem dropShadow_keeps (s : State) :
    (dropShadow s).pending = s.pending ∧ (dropShadow s).variant = s.variant ∧ (dropShadow s).c.lt = s.c.lt := by
  unfold dropShadow
  repeat' (first | (simp; done) | split | simp)

@[simp] theorem tamperTrip_keeps (s : State) (n : Nat) :
    (tamperTrip s n).pending = s.pending ∧ (tamperTrip s n).variant = s.variant ∧ (tamperTrip s n).c.lt = s.c.lt := by
  unfold tamperTrip
  repeat' (first | (simp; done) | split | simp)

@[simp] theorem takeNonce_keeps (c : Commons) :
    (takeNonce c).lt = c.lt := by
  unfold takeNonce
  repeat' (first | (simp; done) | split | simp)

@[simp] theorem noteTrng_keeps (c : Commons) (w : Word64) :
    (noteTrng c w).lt = c.lt := by
  unfold noteTrng
  repeat' (first | (simp; done) | split | simp)

@[simp] theorem loupeChallenge_keeps (c : Commons) :
    (loupeChallenge c).lt = c.lt := by
  unfold loupeChallenge
  repeat' (first | (simp; done) | split | simp)

@[simp] theorem loupeOpen_keeps (s : State) :
    (loupeOpen s).pending = s.pending ∧ (loupeOpen s).variant = s.variant ∧ (loupeOpen s).c.lt = s.c.lt := by
  unfold loupeOpen
  repeat' (first | (simp; done) | split | simp)

@[simp] theorem loupeClose_keeps (s : State) :
    (loupeClose s).pending = s.pending ∧ (loupeClose s).variant = s.variant ∧ (loupeClose s).c.lt = s.c.lt := by
  unfold loupeClose
  repeat' (first | (simp; done) | split | simp)

@[simp] theorem writeLoupeCmd_keeps (s : State) (v : Word) :
    (writeLoupeCmd s v).pending = s.pending ∧ (writeLoupeCmd s v).variant = s.variant ∧ (writeLoupeCmd s v).c.lt = s.c.lt := by
  unfold writeLoupeCmd
  repeat' (first | (simp; done) | split | simp)

@[simp] theorem lockoutEnd_keeps (s : State) :
    (lockoutEnd s).pending = s.pending ∧ (lockoutEnd s).variant = s.variant ∧ (lockoutEnd s).c.lt = s.c.lt := by
  unfold lockoutEnd
  repeat' (first | (simp; done) | split | simp)

@[simp] theorem shadowRestarts_keeps (s : State) (x : SideId) :
    (shadowRestarts s x).pending = s.pending ∧ (shadowRestarts s x).variant = s.variant ∧ (shadowRestarts s x).c.lt = s.c.lt := by
  unfold shadowRestarts
  repeat' (first | (simp; done) | split | simp)

@[simp] theorem countMem_keeps (s : State) (x : SideId) (loc : MemLoc) (correctable : Bool) :
    (countMem s x loc correctable).pending = s.pending ∧ (countMem s x loc correctable).variant = s.variant ∧ (countMem s x loc correctable).c.lt = s.c.lt := by
  unfold countMem
  repeat' (first | (simp; done) | split | simp)

@[simp] theorem launchesLost_keeps (s : State) (ids : List Nat) :
    (launchesLost s ids).pending = s.pending ∧ (launchesLost s ids).variant = s.variant ∧ (launchesLost s ids).c.lt = s.c.lt := by
  unfold launchesLost
  repeat' (first | (simp; done) | split | simp)

@[simp] theorem rxCellLost_keeps (c : Commons) (n : Nat) :
    (rxCellLost c n).lt = c.lt := by
  unfold rxCellLost
  repeat' (first | (simp; done) | split | simp)

@[simp] theorem memoryError_keeps (s : State) (x : SideId) (loc : MemLoc) (correctable : Bool) :
    (memoryError s x loc correctable).pending = s.pending ∧ (memoryError s x loc correctable).variant = s.variant ∧ (memoryError s x loc correctable).c.lt = s.c.lt := by
  unfold memoryError
  repeat' (first | (simp; done) | split | simp)

@[simp] theorem disablePort_keeps (s : State) (p : RPort) :
    (disablePort s p).pending = s.pending ∧ (disablePort s p).variant = s.variant ∧ (disablePort s p).c.lt = s.c.lt := by
  unfold disablePort
  repeat' (first | (simp; done) | split | simp)

@[simp] theorem commonsStops_keeps (s : State) (page : Nat) :
    (commonsStops s page).pending = s.pending ∧ (commonsStops s page).variant = s.variant ∧ (commonsStops s page).c.lt = s.c.lt := by
  unfold commonsStops
  repeat' (first | (simp; done) | split | simp)

@[simp] theorem writeCtrlC_keeps (s : State) (page : Nat) (v : Word) :
    (writeCtrlC s page v).pending = s.pending ∧ (writeCtrlC s page v).variant = s.variant ∧ (writeCtrlC s page v).c.lt = s.c.lt := by
  unfold writeCtrlC
  repeat' (first | (simp; done) | split | simp)

@[simp] theorem disableDone_keeps (s : State) (page : Nat) :
    (disableDone s page).pending = s.pending ∧ (disableDone s page).variant = s.variant ∧ (disableDone s page).c.lt = s.c.lt := by
  unfold disableDone
  repeat' (first | (simp; done) | split | simp)

@[simp] theorem stallSeen_keeps (s : State) (x : SideId) (n : Nat) :
    (stallSeen s x n).pending = s.pending ∧ (stallSeen s x n).variant = s.variant ∧ (stallSeen s x n).c.lt = s.c.lt := by
  unfold stallSeen
  repeat' (first | (simp; done) | split | simp)

@[simp] theorem modEnd_keeps (c : Commons) (second : Bool) (vec : Nat) :
    (modEnd c second vec).lt = c.lt := by
  unfold modEnd
  repeat' (first | (simp; done) | split | simp)

@[simp] theorem Commons.flushPba_keeps (c : Commons) (second : Bool) :
    (Commons.flushPba c second).lt = c.lt := by
  unfold Commons.flushPba
  repeat' (first | (simp; done) | split | simp)

@[simp] theorem unmask_keeps (c : Commons) (second : Bool) (vec : Nat) :
    (unmask c second vec).lt = c.lt := by
  unfold unmask
  repeat' (first | (simp; done) | split | simp)

@[simp] theorem hostPortReset_keeps (s : State) (second : Bool) (kind : PortReset) :
    (hostPortReset s second kind).pending = s.pending ∧ (hostPortReset s second kind).variant = s.variant ∧ (hostPortReset s second kind).c.lt = s.c.lt := by
  unfold hostPortReset
  repeat' (first | (simp; done) | split | simp)

@[simp] theorem chainFetch_keeps (s : State) :
    (chainFetch s).pending = s.pending ∧ (chainFetch s).variant = s.variant ∧ (chainFetch s).c.lt = s.c.lt := by
  unfold chainFetch
  repeat' (first | (simp; done) | split | simp)

@[simp] theorem setAddress_keeps (s : State) (frame : List Byte) :
    (setAddress s frame).pending = s.pending ∧ (setAddress s frame).variant = s.variant ∧ (setAddress s frame).c.lt = s.c.lt := by
  unfold setAddress
  repeat' (first | (simp; done) | split | simp)

@[simp] theorem clrAddr_keeps (c : Commons) :
    (clrAddr c).lt = c.lt := by
  unfold clrAddr
  repeat' (first | (simp; done) | split | simp)

@[simp] theorem ethRx_keeps (s : State) (second : Bool) (frame : List Byte) (fcsOk : Bool) (ts : Nat) :
    (ethRx s second frame fcsOk ts).pending = s.pending ∧ (ethRx s second frame fcsOk ts).variant = s.variant ∧ (ethRx s second frame fcsOk ts).c.lt = s.c.lt := by
  unfold ethRx
  repeat' (first | (simp; done) | split | simp)

@[simp] theorem ethFinish_keeps (s : State) (second : Bool) (id : Nat) (status : Nat) (ts : Nat) :
    (ethFinish s second id status ts).pending = s.pending ∧ (ethFinish s second id status ts).variant = s.variant ∧ (ethFinish s second id status ts).c.lt = s.c.lt := by
  unfold ethFinish
  repeat' (first | (simp; done) | split | simp)

@[simp] theorem ethSend_keeps (s : State) (second : Bool) (id : Nat) (tenant : Nat) (p : List Byte) :
    (ethSend s second id tenant p).pending = s.pending ∧ (ethSend s second id tenant p).variant = s.variant ∧ (ethSend s second id tenant p).c.lt = s.c.lt := by
  unfold ethSend
  repeat' (first | (simp; done) | split | simp)

@[simp] theorem ethSent_keeps (s : State) (second : Bool) (ts : Nat) :
    (ethSent s second ts).pending = s.pending ∧ (ethSent s second ts).variant = s.variant ∧ (ethSent s second ts).c.lt = s.c.lt := by
  unfold ethSent
  repeat' (first | (simp; done) | split | simp)

@[simp] theorem ethLink_keeps (s : State) (second : Bool) (up : Bool) (speed : Nat) :
    (ethLink s second up speed).pending = s.pending ∧ (ethLink s second up speed).variant = s.variant ∧ (ethLink s second up speed).c.lt = s.c.lt := by
  unfold ethLink
  repeat' (first | (simp; done) | split | simp)

@[simp] theorem writeVidMap_keeps (c : Commons) (second : Bool) (v : Word) :
    (writeVidMap c second v).lt = c.lt := by
  unfold writeVidMap
  repeat' (first | (simp; done) | split | simp)

end Sys2Proof.Machine
end

