-- ==== Sys2Proof/Laws/KeepsPower.lean ====
section
/-! SUPPORT. Operations of power, resets, the lease and the bus that leave the queue of commands, the variant and LT as they are. -/

namespace Sys2Proof.Machine

open Sys2Proof

@[simp] theorem State.updPmb_keeps (s : State) (owner : Nat) (f : PmbState → PmbState) :
    (State.updPmb s owner f).pending = s.pending ∧ (State.updPmb s owner f).variant = s.variant ∧ (State.updPmb s owner f).c.lt = s.c.lt := by
  unfold State.updPmb
  repeat' (first | (simp; done) | split | simp)

@[simp] theorem State.updPmbRegs_keeps (s : State) (owner : Nat) (f : Tab Word → Nat → Tab Word) :
    (State.updPmbRegs s owner f).pending = s.pending ∧ (State.updPmbRegs s owner f).variant = s.variant ∧ (State.updPmbRegs s owner f).c.lt = s.c.lt := by
  unfold State.updPmbRegs
  repeat' (first | (simp; done) | split | simp)

@[simp] theorem railAsk_keeps (s : State) (r : Nat) :
    (railAsk s r).pending = s.pending ∧ (railAsk s r).variant = s.variant ∧ (railAsk s r).c.lt = s.c.lt := by
  unfold railAsk
  repeat' (first | (simp; done) | split | simp)

@[simp] theorem sideOff_keeps (s : State) (x : SideId) :
    (sideOff s x).pending = s.pending ∧ (sideOff s x).variant = s.variant ∧ (sideOff s x).c.lt = s.c.lt := by
  unfold sideOff
  repeat' (first | (simp; done) | split | simp)

@[simp] theorem feIsolate_keeps (s : State) (p : RPort) :
    (feIsolate s p).pending = s.pending ∧ (feIsolate s p).variant = s.variant ∧ (feIsolate s p).c.lt = s.c.lt := by
  unfold feIsolate
  exact foldl_keeps (fun (s : State) (n : Nat) =>
    if fePort (feCfg s.c n) = some p then s.updSys fun y => { y with feOut := setNBit y.feOut n (feLevel s.c (feCfg s.c n)) } else s)
    (by intro s n; split <;> simp) (List.range 24) s

@[simp] theorem domLowered_keeps (s : State) (n : Nat) (st : DomSt) :
    (domLowered s n st).pending = s.pending ∧ (domLowered s n st).variant = s.variant ∧ (domLowered s n st).c.lt = s.c.lt := by
  unfold domLowered
  repeat' (first | (simp; done) | split | simp)

@[simp] theorem locketReturns_keeps (s : State) (x : SideId) :
    (locketReturns s x).pending = s.pending ∧ (locketReturns s x).variant = s.variant ∧ (locketReturns s x).c.lt = s.c.lt := by
  unfold locketReturns
  repeat' (first | (simp; done) | split | simp)

@[simp] theorem commonsRaised_keeps (s : State) (n : Nat) :
    (commonsRaised s n).pending = s.pending ∧ (commonsRaised s n).variant = s.variant ∧ (commonsRaised s n).c.lt = s.c.lt := by
  unfold commonsRaised
  have h := foldl_keeps (fun (s : State) (pg : Nat) => s.updR fun t => resetStatus t pg) (by intro s n; simp) (domPages n) s
  dsimp only
  repeat' (first | (simp [h]; done) | split | simp [h])

@[simp] theorem locketRaised_keeps (s : State) (x : SideId) (was : DomSt) (st : DomSt) :
    (locketRaised s x was st).pending = s.pending ∧ (locketRaised s x was st).variant = s.variant ∧ (locketRaised s x was st).c.lt = s.c.lt := by
  unfold locketRaised
  repeat' (first | (simp; done) | split | simp)

@[simp] theorem scanAsked_keeps (s : State) (n : Nat) (was : DomSt) (st : DomSt) :
    (scanAsked s n was st).pending = s.pending ∧ (scanAsked s n was st).variant = s.variant ∧ (scanAsked s n was st).c.lt = s.c.lt := by
  unfold scanAsked
  repeat' (first | (simp; done) | split | simp)

@[simp] theorem sideRaised_keeps (s : State) (x : SideId) (was : DomSt) :
    (sideRaised s x was).pending = s.pending ∧ (sideRaised s x was).variant = s.variant ∧ (sideRaised s x was).c.lt = s.c.lt := by
  unfold sideRaised
  repeat' (first | (simp; done) | split | simp)

@[simp] theorem domRaised_keeps (s : State) (n : Nat) (was : DomSt) (st : DomSt) :
    (domRaised s n was st).pending = s.pending ∧ (domRaised s n was st).variant = s.variant ∧ (domRaised s n was st).c.lt = s.c.lt := by
  rw [domRaised.eq_def]
  repeat' (first | (simp; done) | (simp_all; done) | split)

@[simp] theorem setDom_keeps (s : State) (n : Nat) (st : DomSt) :
    (setDom s n st).pending = s.pending ∧ (setDom s n st).variant = s.variant ∧ (setDom s n st).c.lt = s.c.lt := by
  unfold setDom
  repeat' (first | (simp; done) | split | simp)

@[simp] theorem resumeSides_keeps (s : State) :
    (resumeSides s).pending = s.pending ∧ (resumeSides s).variant = s.variant ∧ (resumeSides s).c.lt = s.c.lt := by
  unfold resumeSides
  repeat' (first | (simp; done) | split | simp)

@[simp] theorem pdEnd_keeps (s : State) (q : PdReq) (result : Nat) :
    (pdEnd s q result).pending = s.pending ∧ (pdEnd s q result).variant = s.variant ∧ (pdEnd s q result).c.lt = s.c.lt := by
  unfold pdEnd
  repeat' (first | (simp; done) | split | simp)

@[simp] theorem noteRefuse_keeps (s : State) (n : Nat) (reason : Nat) :
    (noteRefuse s n reason).pending = s.pending ∧ (noteRefuse s n reason).variant = s.variant ∧ (noteRefuse s n reason).c.lt = s.c.lt := by
  unfold noteRefuse
  repeat' (first | (simp; done) | split | simp)

@[simp] theorem quiesceBegin_keeps (s : State) (n : Nat) :
    (quiesceBegin s n).pending = s.pending ∧ (quiesceBegin s n).variant = s.variant ∧ (quiesceBegin s n).c.lt = s.c.lt := by
  unfold quiesceBegin
  repeat' (first | (simp; done) | split | simp)

@[simp] theorem pdGo_keeps (z0 : Nat) (z1 : State) :
    (pdGo z0 z1).pending = z1.pending ∧ (pdGo z0 z1).variant = z1.variant ∧ (pdGo z0 z1).c.lt = z1.c.lt := by
  induction z0 generalizing z1 with
  | zero => rw [pdGo]; exact ⟨rfl, rfl, rfl⟩
  | succ n ih =>
    rw [pdGo.eq_def]
    dsimp only
    repeat' (first | (simp [ih]; done) | split | simp [ih])

@[simp] theorem domArrives_keeps (s : State) (r : PdRun) (n : Nat) (st : DomSt) :
    (domArrives s r n st).pending = s.pending ∧ (domArrives s r n st).variant = s.variant ∧ (domArrives s r n st).c.lt = s.c.lt := by
  unfold domArrives
  repeat' (first | (simp; done) | split | simp)

@[simp] theorem domRefuses_keeps (s : State) (n : Nat) (reason : Nat) :
    (domRefuses s n reason).pending = s.pending ∧ (domRefuses s n reason).variant = s.variant ∧ (domRefuses s n reason).c.lt = s.c.lt := by
  unfold domRefuses
  repeat' (first | (simp; done) | split | simp)

@[simp] theorem quiesceDone_keeps (s : State) :
    (quiesceDone s).pending = s.pending ∧ (quiesceDone s).variant = s.variant ∧ (quiesceDone s).c.lt = s.c.lt := by
  unfold quiesceDone
  repeat' (first | (simp; done) | split | simp)

@[simp] theorem quiesceTimeout_keeps (s : State) :
    (quiesceTimeout s).pending = s.pending ∧ (quiesceTimeout s).variant = s.variant ∧ (quiesceTimeout s).c.lt = s.c.lt := by
  unfold quiesceTimeout
  repeat' (first | (simp; done) | split | simp)

@[simp] theorem railOver_keeps (s : State) (r : Nat) :
    (railOver s r).pending = s.pending ∧ (railOver s r).variant = s.variant ∧ (railOver s r).c.lt = s.c.lt := by
  unfold railOver
  repeat' (first | (simp; done) | split | simp)

@[simp] theorem pmbAck_keeps (s : State) (status : Nat) :
    (pmbAck s status).pending = s.pending ∧ (pmbAck s status).variant = s.variant ∧ (pmbAck s status).c.lt = s.c.lt := by
  unfold pmbAck
  repeat' (first | (simp; done) | split | simp)

@[simp] theorem pmbTimeout_keeps (s : State) :
    (pmbTimeout s).pending = s.pending ∧ (pmbTimeout s).variant = s.variant ∧ (pmbTimeout s).c.lt = s.c.lt := by
  unfold pmbTimeout
  repeat' (first | (simp; done) | split | simp)

@[simp] theorem pdOffer_keeps (s : State) (q : PdReq) :
    (pdOffer s q).pending = s.pending ∧ (pdOffer s q).variant = s.variant ∧ (pdOffer s q).c.lt = s.c.lt := by
  unfold pdOffer
  repeat' (first | (simp; done) | split | simp)

@[simp] theorem writeReqCmd_keeps (s : State) (r : Requester) (v : Word) :
    (writeReqCmd s r v).pending = s.pending ∧ (writeReqCmd s r v).variant = s.variant ∧ (writeReqCmd s r v).c.lt = s.c.lt := by
  unfold writeReqCmd
  repeat' (first | (simp; done) | split | simp)

@[simp] theorem wakeInterrupts_keeps (s : State) (mask : Nat) :
    (wakeInterrupts s mask).pending = s.pending ∧ (wakeInterrupts s mask).variant = s.variant ∧ (wakeInterrupts s mask).c.lt = s.c.lt := by
  unfold wakeInterrupts
  repeat' (first | (simp; done) | split | simp)

@[simp] theorem wakeFor_keeps (s : State) (source : Nat) (profile : Nat) :
    (wakeFor s source profile).pending = s.pending ∧ (wakeFor s source profile).variant = s.variant ∧ (wakeFor s source profile).c.lt = s.c.lt := by
  unfold wakeFor
  repeat' (first | (simp; done) | split | simp)

@[simp] theorem banksAlone_keeps (s : State) (x : SideId) (mask : Nat) :
    (banksAlone s x mask).pending = s.pending ∧ (banksAlone s x mask).variant = s.variant ∧ (banksAlone s x mask).c.lt = s.c.lt := by
  unfold banksAlone
  exact foldl_keeps (fun (s : State) (b : Nat) => match (s.side x).bankLost (s.side x).view b with
    | some d =>
      let cells := (s.side x).strand.used.filter fun n => decide (16 + Config.memBank n % 2 = b)
      launchesLost (s.upd x fun _ => d) (if b = 16 ∨ b = 17 then cells.flatMap (s.side x).cellFlights else [])
    | none => sideError s x) (by intro s e; split <;> simp) (bitsBelow mask 24) s

@[simp] theorem refillAfterLoss_keeps (s : State) (x : SideId) :
    (refillAfterLoss s x).pending = s.pending ∧ (refillAfterLoss s x).variant = s.variant ∧ (refillAfterLoss s x).c.lt = s.c.lt := by
  unfold refillAfterLoss
  repeat' (first | (simp; done) | split | simp)

@[simp] theorem lossVerdict_keeps (s : State) :
    (lossVerdict s).pending = s.pending ∧ (lossVerdict s).variant = s.variant ∧ (lossVerdict s).c.lt = s.c.lt := by
  unfold lossVerdict
  dsimp only
  repeat' (first | (simp; done) | split | simp)

@[simp] theorem scanDone_keeps (s : State) (x : SideId) (lostBanks : Nat) (locketLost : Bool) (corrected : Nat) :
    (scanDone s x lostBanks locketLost corrected).pending = s.pending ∧ (scanDone s x lostBanks locketLost corrected).variant = s.variant ∧ (scanDone s x lostBanks locketLost corrected).c.lt = s.c.lt := by
  unfold scanDone
  repeat' (first | (simp; done) | split | simp)

@[simp] theorem writeRawCmd_keeps (s : State) (owner : Nat) (v : Word) :
    (writeRawCmd s owner v).pending = s.pending ∧ (writeRawCmd s owner v).variant = s.variant ∧ (writeRawCmd s owner v).c.lt = s.c.lt := by
  unfold writeRawCmd
  repeat' (first | (simp; done) | split | simp)

@[simp] theorem rawDone_keeps (s : State) (owner : Nat) (nak : Bool) (pecErr : Bool) (data : Nat) :
    (rawDone s owner nak pecErr data).pending = s.pending ∧ (rawDone s owner nak pecErr data).variant = s.variant ∧ (rawDone s owner nak pecErr data).c.lt = s.c.lt := by
  unfold rawDone
  repeat' (first | (simp; done) | split | simp)

@[simp] theorem jtagTick_keeps (v : Variant) (c : Commons) :
    (jtagTick v c).lt = c.lt := by
  unfold jtagTick
  repeat' (first | (simp; done) | split | simp)

@[simp] theorem tamperChecks_keeps (s : State) (status : Nat) :
    (tamperChecks s status).pending = s.pending ∧ (tamperChecks s status).variant = s.variant ∧ (tamperChecks s status).c.lt = s.c.lt := by
  unfold tamperChecks
  dsimp only
  repeat' (first | (simp; done) | split | simp)

@[simp] theorem startSides_keeps (s : State) (keepA : Bool) (keepB : Bool) :
    (startSides s keepA keepB).pending = s.pending ∧ (startSides s keepA keepB).variant = s.variant ∧ (startSides s keepA keepB).c.lt = s.c.lt := by
  unfold startSides
  repeat' (first | (simp; done) | split | simp)

@[simp] theorem Commons.warm_keeps (c : Commons) :
    (Commons.warm c).lt = c.lt := by
  unfold Commons.warm
  repeat' (first | (simp; done) | split | simp)

@[simp] theorem warmReset_keeps (s : State) (tamper : Nat) :
    (warmReset s tamper).pending = s.pending ∧ (warmReset s tamper).variant = s.variant ∧ (warmReset s tamper).c.lt = s.c.lt := by
  unfold warmReset
  repeat' (first | (simp; done) | split | simp)

@[simp] theorem sideReset_keeps (s : State) (x : SideId) :
    (sideReset s x).pending = s.pending ∧ (sideReset s x).variant = s.variant ∧ (sideReset s x).c.lt = s.c.lt := by
  unfold sideReset
  repeat' (first | (simp; done) | split | simp)

@[simp] theorem writeSideCmd_keeps (s : State) (r : Requester) (v : Word) :
    (writeSideCmd s r v).pending = s.pending ∧ (writeSideCmd s r v).variant = s.variant ∧ (writeSideCmd s r v).c.lt = s.c.lt := by
  unfold writeSideCmd
  repeat' (first | (simp; done) | split | simp)

@[simp] theorem pllLost_keeps (s : State) (n : Nat) :
    (pllLost s n).pending = s.pending ∧ (pllLost s n).variant = s.variant ∧ (pllLost s n).c.lt = s.c.lt := by
  unfold pllLost
  repeat' (first | (simp; done) | split | simp)

@[simp] theorem commonsStop_keeps (s : State) :
    (commonsStop s).pending = s.pending ∧ (commonsStop s).variant = s.variant ∧ (commonsStop s).c.lt = s.c.lt := by
  unfold commonsStop
  refine ⟨rfl, rfl, ?_⟩
  rw [State.updC_c]
  split <;> rfl

@[simp] theorem ethLinksDown_keeps (s : State) :
    (ethLinksDown s).pending = s.pending ∧ (ethLinksDown s).variant = s.variant ∧ (ethLinksDown s).c.lt = s.c.lt := by
  unfold ethLinksDown
  repeat' (first | (simp; done) | split | simp)

@[simp] theorem clockLoss_keeps (s : State) (z0 : ClockId) :
    (clockLoss s z0).pending = s.pending ∧ (clockLoss s z0).variant = s.variant ∧ (clockLoss s z0).c.lt = s.c.lt := by
  unfold clockLoss
  repeat' (first | (simp; done) | split | simp)

@[simp] theorem writeHbootData_keeps (s : State) (r : Requester) (v : Word) :
    (writeHbootData s r v).pending = s.pending ∧ (writeHbootData s r v).variant = s.variant ∧ (writeHbootData s r v).c.lt = s.c.lt := by
  unfold writeHbootData
  repeat' (first | (simp; done) | split | simp)

@[simp] theorem writeHbootGo_keeps (s : State) (r : Requester) :
    (writeHbootGo s r).pending = s.pending ∧ (writeHbootGo s r).variant = s.variant ∧ (writeHbootGo s r).c.lt = s.c.lt := by
  unfold writeHbootGo
  repeat' (first | (simp; done) | split | simp)

@[simp] theorem writeGpio_keeps (c : Commons) (r : Requester) (dir : Bool) (v : Word) :
    (writeGpio c r dir v).lt = c.lt := by
  unfold writeGpio
  repeat' (first | (simp; done) | split | simp)

@[simp] theorem claspCmd_keeps (s : State) (v : Word) :
    (claspCmd s v).pending = s.pending ∧ (claspCmd s v).variant = s.variant ∧ (claspCmd s v).c.lt = s.c.lt := by
  unfold claspCmd
  repeat' (first | (simp; done) | split | simp)

@[simp] theorem cmdBusy_keeps (s : State) :
    (cmdBusy s).pending = s.pending ∧ (cmdBusy s).variant = s.variant ∧ (cmdBusy s).c.lt = s.c.lt := by
  unfold cmdBusy
  repeat' (first | (simp; done) | split | simp)

@[simp] theorem takeOut_keeps (s : State) (x : SideId) :
    (takeOut s x).pending = s.pending ∧ (takeOut s x).variant = s.variant ∧ (takeOut s x).c.lt = s.c.lt := by
  unfold takeOut
  repeat' (first | (simp; done) | split | simp)

@[simp] theorem bringIn_keeps (s : State) (x : SideId) :
    (bringIn s x).pending = s.pending ∧ (bringIn s x).variant = s.variant ∧ (bringIn s x).c.lt = s.c.lt := by
  unfold bringIn
  repeat' (first | (simp; done) | split | simp)

@[simp] theorem restartSide_keeps (s : State) (x : SideId) :
    (restartSide s x).pending = s.pending ∧ (restartSide s x).variant = s.variant ∧ (restartSide s x).c.lt = s.c.lt := by
  unfold restartSide
  repeat' (first | (simp; done) | split | simp)

@[simp] theorem recoverBoth_keeps (s : State) :
    (recoverBoth s).pending = s.pending ∧ (recoverBoth s).variant = s.variant ∧ (recoverBoth s).c.lt = s.c.lt := by
  have hk := fun (s : State) (f : ClaspState → ClaspState) =>
    (⟨rfl, rfl, rfl⟩ : (s.updK f).pending = s.pending ∧ (s.updK f).variant = s.variant ∧ (s.updK f).c.lt = s.c.lt)
  unfold recoverBoth
  split
  · dsimp only
    simp only [hk, State.updC_pending, State.updC_variant, State.updC_c, Commons.hwSet_lt]
    simp
  · simp

@[simp] theorem clearPaths_keeps (s : State) :
    (clearPaths s).pending = s.pending ∧ (clearPaths s).variant = s.variant ∧ (clearPaths s).c.lt = s.c.lt := by
  unfold clearPaths
  repeat' (first | (simp; done) | split | simp)

@[simp] theorem bezelCmd_keeps (s : State) (v : Word) :
    (bezelCmd s v).pending = s.pending ∧ (bezelCmd s v).variant = s.variant ∧ (bezelCmd s v).c.lt = s.c.lt := by
  unfold bezelCmd
  repeat' (first | (simp; done) | split | simp)

@[simp] theorem renewLease_keeps (s : State) (v : Word) :
    (renewLease s v).pending = s.pending ∧ (renewLease s v).variant = s.variant ∧ (renewLease s v).c.lt = s.c.lt := by
  unfold renewLease
  repeat' (first | (simp; done) | split | simp)

@[simp] theorem voteReplicas_keeps (s : State) :
    (voteReplicas s).pending = s.pending ∧ (voteReplicas s).variant = s.variant ∧ (voteReplicas s).c.lt = s.c.lt := by
  unfold voteReplicas
  repeat' (first | (simp; done) | split | simp)

@[simp] theorem replicaUpset_keeps (s : State) (n : Nat) (r : Replica) :
    (replicaUpset s n r).pending = s.pending ∧ (replicaUpset s n r).variant = s.variant ∧ (replicaUpset s n r).c.lt = s.c.lt := by
  unfold replicaUpset
  repeat' (first | (simp; done) | split | simp)

@[simp] theorem leaseExpire_keeps (s : State) :
    (leaseExpire s).pending = s.pending ∧ (leaseExpire s).variant = s.variant ∧ (leaseExpire s).c.lt = s.c.lt := by
  unfold leaseExpire
  repeat' (first | (simp; done) | split | simp)

@[simp] theorem drillSwapped_keeps (s : State) (h : Nat) :
    (drillSwapped s h).pending = s.pending ∧ (drillSwapped s h).variant = s.variant ∧ (drillSwapped s h).c.lt = s.c.lt := by
  unfold drillSwapped
  repeat' (first | (simp; done) | split | simp)

@[simp] theorem swapMark_keeps (s : State) :
    (swapMark s).pending = s.pending ∧ (swapMark s).variant = s.variant ∧ (swapMark s).c.lt = s.c.lt := by
  unfold swapMark
  repeat' (first | (simp; done) | split | simp)

@[simp] theorem drillBegin_keeps (s : State) :
    (drillBegin s).pending = s.pending ∧ (drillBegin s).variant = s.variant ∧ (drillBegin s).c.lt = s.c.lt := by
  unfold drillBegin
  dsimp only
  generalize (match s.c.clasp.drillNext with
    | some t => decide (t ≤ s.c.lt)
    | none => false) = due
  have hk := fun (s : State) (f : ClaspState → ClaspState) =>
    (⟨rfl, rfl, rfl⟩ : (s.updK f).pending = s.pending ∧ (s.updK f).variant = s.variant ∧ (s.updK f).c.lt = s.c.lt)
  have hb := fun (s : State) (p o : Nat) =>
    (⟨rfl, rfl, rfl⟩ : (s.bumpC p o).pending = s.pending ∧ (s.bumpC p o).variant = s.variant ∧ (s.bumpC p o).c.lt = s.c.lt)
  generalize nextDrill s.c s.c.lt = nd
  cases due <;> repeat' split
  all_goals simp only [hk, hb, and_self]

@[simp] theorem drillBack_keeps (s : State) :
    (drillBack s).pending = s.pending ∧ (drillBack s).variant = s.variant ∧ (drillBack s).c.lt = s.c.lt := by
  unfold drillBack
  repeat' (first | (simp; done) | split | simp)

@[simp] theorem cntClrC_keeps (s : State) (page : Nat) :
    (cntClrC s page).pending = s.pending ∧ (cntClrC s page).variant = s.variant ∧ (cntClrC s page).c.lt = s.c.lt := by
  unfold cntClrC
  repeat' (first | (simp; done) | split | simp)

@[simp] theorem semFreed_keeps (s : State) (n : Nat) :
    (semFreed s n).pending = s.pending ∧ (semFreed s n).variant = s.variant ∧ (semFreed s n).c.lt = s.c.lt := by
  unfold semFreed
  repeat' (first | (simp; done) | split | simp)

@[simp] theorem semOwn_keeps (s : State) (n : Nat) (id : Nat) :
    (semOwn s n id).pending = s.pending ∧ (semOwn s n id).variant = s.variant ∧ (semOwn s n id).c.lt = s.c.lt := by
  unfold semOwn
  repeat' (first | (simp; done) | split | simp)

@[simp] theorem semNote_keeps (s : State) (n : Nat) (k : SemCycle) :
    (semNote s n k).pending = s.pending ∧ (semNote s n k).variant = s.variant ∧ (semNote s n k).c.lt = s.c.lt := by
  unfold semNote
  repeat' (first | (simp; done) | split | simp)

@[simp] theorem semAcquire_keeps (s : State) (n : Nat) (id : Nat) (owner : Nat) :
    (semAcquire s n id owner).pending = s.pending ∧ (semAcquire s n id owner).variant = s.variant ∧ (semAcquire s n id owner).c.lt = s.c.lt := by
  unfold semAcquire
  repeat' (first | (simp; done) | split | simp)

@[simp] theorem semRetake_keeps (s : State) (n : Nat) (id : Nat) :
    (semRetake s n id).pending = s.pending ∧ (semRetake s n id).variant = s.variant ∧ (semRetake s n id).c.lt = s.c.lt := by
  unfold semRetake
  repeat' (first | (simp; done) | split | simp)

@[simp] theorem semWrite_keeps (s : State) (r : Requester) (n : Nat) (w : Word) :
    (semWrite s r n w).pending = s.pending ∧ (semWrite s r n w).variant = s.variant ∧ (semWrite s r n w).c.lt = s.c.lt := by
  unfold semWrite
  dsimp only
  repeat' (first | (simp; done) | split | simp)

@[simp] theorem semForce_keeps (s : State) (w : Word) :
    (semForce s w).pending = s.pending ∧ (semForce s w).variant = s.variant ∧ (semForce s w).c.lt = s.c.lt := by
  unfold semForce
  repeat' (first | (simp; done) | split | simp)

@[simp] theorem causeLeft_keeps (c : Commons) :
    (causeLeft c).lt = c.lt := by
  unfold causeLeft
  dsimp only
  split
  · exact Commons.updR_lt c _
  · rfl

@[simp] theorem tpoWritten_keeps (s : State) (off : Nat) :
    (tpoWritten s off).pending = s.pending ∧ (tpoWritten s off).variant = s.variant ∧ (tpoWritten s off).c.lt = s.c.lt := by
  unfold tpoWritten
  repeat' (first | (simp; done) | split | simp)

@[simp] theorem noteWrite_keeps (c : Commons) (r : Requester) (key : Nat) (be : Nat) :
    (noteWrite c r key be).lt = c.lt := by
  unfold noteWrite
  repeat' (first | (simp; done) | split | simp)

@[simp] theorem sideWrite_keeps (s : State) (x : SideId) (r : Requester) (page : Nat) (off : Nat) (v : Word) (be : Nat) :
    (sideWrite s x r page off v be).pending = s.pending ∧ (sideWrite s x r page off v be).variant = s.variant ∧ (sideWrite s x r page off v be).c.lt = s.c.lt := by
  unfold sideWrite
  repeat' (first | (simp; done) | split | simp)

@[simp] theorem hostCount_keeps (s : State) (r : Requester) (off : Nat) :
    (hostCount s r off).pending = s.pending ∧ (hostCount s r off).variant = s.variant ∧ (hostCount s r off).c.lt = s.c.lt := by
  unfold hostCount
  repeat' (first | (simp; done) | split | simp)

@[simp] theorem bar2Data_keeps (s : State) (r : Requester) (off : Nat) (data : List Byte) :
    (bar2Data s r off data).pending = s.pending ∧ (bar2Data s r off data).variant = s.variant ∧ (bar2Data s r off data).c.lt = s.c.lt := by
  unfold bar2Data
  repeat' (first | (simp; done) | split | simp)

@[simp] theorem bar2Write_keeps (s : State) (r : Requester) (off : Nat) (data : List Byte) :
    (bar2Write s r off data).pending = s.pending ∧ (bar2Write s r off data).variant = s.variant ∧ (bar2Write s r off data).c.lt = s.c.lt := by
  unfold bar2Write
  repeat' (first | (simp; done) | split | simp)

@[simp] theorem msixWrite_keeps (s : State) (second : Bool) (off : Nat) (v : Word) (be : Nat) :
    (msixWrite s second off v be).pending = s.pending ∧ (msixWrite s second off v be).variant = s.variant ∧ (msixWrite s second off v be).c.lt = s.c.lt := by
  unfold msixWrite
  repeat' (first | (simp; done) | split | simp)

@[simp] theorem winStep_keeps (s : State) :
    (winStep s).pending = s.pending ∧ (winStep s).variant = s.variant ∧ (winStep s).c.lt = s.c.lt := by
  unfold winStep
  repeat' (first | (simp; done) | split | simp)

@[simp] theorem posted_keeps (s : State) (r : Requester) :
    (posted s r).pending = s.pending ∧ (posted s r).variant = s.variant ∧ (posted s r).c.lt = s.c.lt := by
  unfold posted
  repeat' (first | (simp; done) | split | simp)

@[simp] theorem coreWrite_keeps (s : State) (x : SideId) (a : Nat) (v : Word) (be : Nat) :
    (coreWrite s x a v be).pending = s.pending ∧ (coreWrite s x a v be).variant = s.variant ∧ (coreWrite s x a v be).c.lt = s.c.lt := by
  unfold coreWrite
  repeat' (first | (simp; done) | split | simp)

@[simp] theorem readDone_keeps (s : State) (r : Requester) (off : Nat) (v : Word) :
    (readDone s r off v).pending = s.pending ∧ (readDone s r off v).variant = s.variant ∧ (readDone s r off v).c.lt = s.c.lt := by
  unfold readDone
  repeat' (first | (simp; done) | split | simp)

@[simp] theorem coreRead_keeps (s : State) (x : SideId) (a : Nat) :
    (coreRead s x a).pending = s.pending ∧ (coreRead s x a).variant = s.variant ∧ (coreRead s x a).c.lt = s.c.lt := by
  unfold coreRead
  repeat' (first | (simp; done) | split | simp)

@[simp] theorem gapEnds_keeps (s : State) :
    (gapEnds s).pending = s.pending ∧ (gapEnds s).variant = s.variant ∧ (gapEnds s).c.lt = s.c.lt := by
  unfold gapEnds
  repeat' (first | (simp; done) | split | simp)

@[simp] theorem conflict_keeps (s : State) (x : SideId) :
    (conflict s x).pending = s.pending ∧ (conflict s x).variant = s.variant ∧ (conflict s x).c.lt = s.c.lt := by
  unfold conflict
  repeat' (first | (simp; done) | split | simp)

@[simp] theorem State.hold_keeps (s : State) (x : SideId) (t : Txn) :
    (State.hold s x t).pending = s.pending ∧ (State.hold s x t).variant = s.variant ∧ (State.hold s x t).c.lt = s.c.lt := by
  unfold State.hold
  repeat' (first | (simp; done) | split | simp)

@[simp] theorem settleFor_keeps (s : State) (m : Mismatch) (w : SideId) :
    (settleFor s m w).pending = s.pending ∧ (settleFor s m w).variant = s.variant ∧ (settleFor s m w).c.lt = s.c.lt := by
  unfold settleFor
  repeat' (first | (simp; done) | split | simp)

@[simp] theorem verdict_keeps (s : State) (m : Mismatch) (h : SideId) (active : Bool) (shadow : Bool) :
    (verdict s m h active shadow).pending = s.pending ∧ (verdict s m h active shadow).variant = s.variant ∧ (verdict s m h active shadow).c.lt = s.c.lt := by
  unfold verdict
  repeat' (first | (simp; done) | split | simp)

@[simp] theorem judge_keeps (s : State) :
    (judge s).pending = s.pending ∧ (judge s).variant = s.variant ∧ (judge s).c.lt = s.c.lt := by
  unfold judge
  repeat' (first | (simp; done) | split | simp)

@[simp] theorem selfCheckReport_keeps (s : State) (x : SideId) (r : SelfCheck) :
    (selfCheckReport s x r).pending = s.pending ∧ (selfCheckReport s x r).variant = s.variant ∧ (selfCheckReport s x r).c.lt = s.c.lt := by
  unfold selfCheckReport
  repeat' (first | (simp; done) | split | simp)

@[simp] theorem selfCheckTimeout_keeps (s : State) (x : SideId) :
    (selfCheckTimeout s x).pending = s.pending ∧ (selfCheckTimeout s x).variant = s.variant ∧ (selfCheckTimeout s x).c.lt = s.c.lt := by
  unfold selfCheckTimeout
  repeat' (first | (simp; done) | split | simp)

@[simp] theorem skewTimeout_keeps (s : State) :
    (skewTimeout s).pending = s.pending ∧ (skewTimeout s).variant = s.variant ∧ (skewTimeout s).c.lt = s.c.lt := by
  unfold skewTimeout
  repeat' (first | (simp; done) | split | simp)

@[simp] theorem readDiffers_keeps (s : State) (off : Nat) :
    (readDiffers s off).pending = s.pending ∧ (readDiffers s off).variant = s.variant ∧ (readDiffers s off).c.lt = s.c.lt := by
  unfold readDiffers
  repeat' (first | (simp; done) | split | simp)

@[simp] theorem reachRead_keeps (s : State) (x : SideId) (seq : Nat) (r : Requester) (off : Nat) :
    (reachRead s x seq r off).pending = s.pending ∧ (reachRead s x seq r off).variant = s.variant ∧ (reachRead s x seq r off).c.lt = s.c.lt := by
  unfold reachRead
  repeat' (first | (simp; done) | split | simp)

@[simp] theorem failRead_keeps (s : State) (e : Requester × Nat) :
    (failRead s e).pending = s.pending ∧ (failRead s e).variant = s.variant ∧ (failRead s e).c.lt = s.c.lt := by
  unfold failRead
  repeat' (first | (simp; done) | split | simp)

@[simp] theorem failReads_keeps (s : State) :
    (failReads s).pending = s.pending ∧ (failReads s).variant = s.variant ∧ (failReads s).c.lt = s.c.lt := by
  unfold failReads
  repeat' (first | (simp; done) | split | simp)

@[simp] theorem takeMarker_keeps (s : State) (x : SideId) (z0 : Marker) :
    (takeMarker s x z0).pending = s.pending ∧ (takeMarker s x z0).variant = s.variant ∧ (takeMarker s x z0).c.lt = s.c.lt := by
  unfold takeMarker
  repeat' (first | (simp; done) | split | simp)

@[simp] theorem giveHelper_keeps (s : State) (x : SideId) (root : List Byte) :
    (giveHelper s x root).pending = s.pending ∧ (giveHelper s x root).variant = s.variant ∧ (giveHelper s x root).c.lt = s.c.lt := by
  unfold giveHelper
  repeat' (first | (simp; done) | split | simp)

@[simp] theorem countClass_keeps (s : State) (f : RxFrame) :
    (countClass s f).pending = s.pending ∧ (countClass s f).variant = s.variant ∧ (countClass s f).c.lt = s.c.lt := by
  unfold countClass
  repeat' (first | (simp; done) | split | simp)

@[simp] theorem sequenceFrame_keeps (s : State) :
    (sequenceFrame s).pending = s.pending ∧ (sequenceFrame s).variant = s.variant ∧ (sequenceFrame s).c.lt = s.c.lt := by
  unfold sequenceFrame
  repeat' (first | (simp; done) | split | simp)

@[simp] theorem trngOffered_keeps (s : State) (w : Word64) :
    (trngOffered s w).pending = s.pending ∧ (trngOffered s w).variant = s.variant ∧ (trngOffered s w).c.lt = s.c.lt := by
  unfold trngOffered
  repeat' (first | (simp; done) | split | simp)

@[simp] theorem commonsEvent_keeps (s : State) (x : SideId) :
    (commonsEvent s x).pending = s.pending ∧ (commonsEvent s x).variant = s.variant ∧ (commonsEvent s x).c.lt = s.c.lt := by
  unfold commonsEvent
  repeat' (first | (simp; done) | split | simp)

@[simp] theorem grantWaitOver_keeps (s : State) :
    (grantWaitOver s).pending = s.pending ∧ (grantWaitOver s).variant = s.variant ∧ (grantWaitOver s).c.lt = s.c.lt := by
  unfold grantWaitOver
  repeat' (first | (simp; done) | split | simp)

end Sys2Proof.Machine
end

