-- ==== Sys2Proof/Laws/Later.lean ====
section
/-! SUPPORT. Operations that may move LT: they leave the queue of commands and the variant as they are, and never move LT back
(R42). -/

namespace Sys2Proof.Machine

open Sys2Proof

/-- The second state keeps the queue and the variant of the first, and its LT is not earlier. -/
def Later (s t : State) : Prop := t.pending = s.pending ∧ t.variant = s.variant ∧ s.c.lt ≤ t.c.lt

theorem Later.refl (s : State) : Later s s := ⟨rfl, rfl, Nat.le_refl _⟩

theorem Later.trans {s t u : State} (h : Later s t) (k : Later t u) : Later s u :=
  ⟨k.1.trans h.1, k.2.1.trans h.2.1, Nat.le_trans h.2.2 k.2.2⟩

theorem Later.of {s t : State} (h : t.pending = s.pending ∧ t.variant = s.variant ∧ t.c.lt = s.c.lt) : Later s t :=
  ⟨h.1, h.2.1, Nat.le_of_eq h.2.2.symm⟩

theorem Later.upd (s : State) (x : SideId) (f : Side → Side) : Later s (s.upd x f) := Later.of (by simp)

theorem Later.updZ (s : State) (f : BezelState → BezelState) : Later s (s.updZ f) := ⟨rfl, rfl, Nat.le_refl _⟩

theorem Later.updR (s : State) (f : Tab Word → Tab Word) : Later s (s.updR f) := ⟨rfl, rfl, Nat.le_refl _⟩

theorem Later.updC (s : State) (f : Commons → Commons) (h : s.c.lt ≤ (f s.c).lt) : Later s (s.updC f) := ⟨rfl, rfl, h⟩

/-! ## Time -/

@[simp] theorem runTo_lt (c : Commons) (lt : Nat) : (runTo c lt).lt = lt := by simp [runTo]

/-- A fold keeps what each of its steps keeps. -/
theorem Later.foldl {α : Type} (g : State → α → State) (h : ∀ s a, Later s (g s a)) (l : List α) (s : State) :
    Later s (l.foldl g s) := by
  induction l generalizing s with
  | nil => exact Later.refl s
  | cons a l ih => exact (h s a).trans (ih _)

/-- A step moves LT by its size. -/
theorem stepForward_lt (s : State) (step : Nat) (acq rebase : Bool) :
    (stepForward s step acq rebase).pending = s.pending ∧ (stepForward s step acq rebase).variant = s.variant ∧
    (stepForward s step acq rebase).c.lt = s.c.lt + step := by
  unfold stepForward
  dsimp only
  cases rebase <;> split <;> simp_all

theorem stepForward_later (s : State) (step : Nat) (acq rebase : Bool) : Later s (stepForward s step acq rebase) := by
  have h := stepForward_lt s step acq rebase
  exact ⟨h.1, h.2.1, by omega⟩

theorem discipline_later (s : State) (code : Nat) (off : Int) : Later s (discipline s code off) := by
  unfold discipline
  dsimp only
  split
  · split
    · exact Later.trans (Later.of (by simp)) (stepForward_later _ _ _ _)
    · exact Later.of (by simp)
  · split <;> exact Later.of (by simp)

theorem selectSource_later (s : State) (code : Nat) : Later s (selectSource s code) := by
  unfold selectSource
  split
  · exact Later.refl s
  · dsimp only
    split
    · exact Later.of (by simp)
    · split
      · exact Later.of (by simp)
      · exact Later.trans (Later.of (by simp)) (discipline_later _ _ _)

theorem selectIfNone_later (s : State) : Later s (selectIfNone s) := by
  unfold selectIfNone
  split
  · exact selectSource_later _ _
  · exact Later.refl s

theorem loseSource_later (s : State) (code : Nat) : Later s (loseSource s code) := by
  unfold loseSource
  dsimp only
  split
  · exact Later.trans (Later.updC s _ (Nat.le_refl _)) (selectSource_later _ _)
  · exact Later.updC s _ (Nat.le_refl _)

theorem revert_later (s : State) : Later s (revert s) := by
  unfold revert
  split
  · exact selectSource_later _ _
  · exact Later.refl s

theorem judgeSources_later (s : State) : Later s (judgeSources s) := by
  refine Later.trans (Later.trans ?_ (selectIfNone_later _)) (revert_later _)
  exact Later.foldl _ (fun s k => by
    split
    · exact loseSource_later s k
    · exact Later.refl s) _ s

theorem measure_later (s : State) (code : Nat) (off : Int) : Later s (measure s code off) := by
  have h : Later s (s.updC fun c => noteValid c code off) := Later.of (by simp)
  unfold measure
  split
  · exact Later.refl s
  · dsimp only
    split
    · exact h.trans (selectIfNone_later _)
    · split
      · exact h.trans (discipline_later _ _ _)
      · exact h

theorem ppsEdgeCore_later (s : State) : Later s (ppsEdgeCore s) := by
  unfold ppsEdgeCore
  dsimp only
  repeat' split
  all_goals first
    | exact Later.refl s
    | exact Later.trans (Later.updC _ _ (Nat.le_refl _)) (measure_later _ _ _)
    | exact loseSource_later _ _

theorem ref10Core_later (s : State) : Later s (ref10Core s) := by
  have h : Later s (s.updC ref10Seen) := Later.updC _ _ (by simp)
  unfold ref10Core
  split
  · exact Later.refl s
  · dsimp only
    split
    · exact h.trans (selectIfNone_later _)
    · split
      · exact h.trans (Later.of (by simp))
      · exact h

theorem sourceLostCore_later (s : State) (code : Nat) : Later s (sourceLostCore s code) := by
  unfold sourceLostCore
  repeat' split
  all_goals first
    | exact Later.trans (Later.updC s _ (Nat.le_refl _)) (loseSource_later _ _)
    | exact loseSource_later _ _
    | exact Later.refl s

theorem writeHostTime_later (s : State) (v : Word) : Later s (writeHostTime s v) := by
  unfold writeHostTime
  exact Later.trans (Later.updR _ _) (measure_later _ _ _)

theorem writePtpMeas_later (s : State) (v : Word) : Later s (writePtpMeas s v) := by
  unfold writePtpMeas
  dsimp only
  split
  · exact Later.updC _ _ (Nat.le_refl _)
  · split
    · exact Later.trans (Later.updC _ _ (Nat.le_refl _)) (measure_later _ _ _)
    · exact Later.updC _ _ (Nat.le_refl _)

theorem acceptStepCore_later (s : State) : Later s (acceptStepCore s) := by
  unfold acceptStepCore
  split
  · exact Later.of (by simp)
  · split
    · exact Later.of (by simp)
    · dsimp only
      split <;> exact Later.trans (Later.of (by simp)) (stepForward_later _ _ _ _)

theorem writeLathCmd_later (s : State) (v : Word) : Later s (writeLathCmd s v) := by
  unfold writeLathCmd
  split
  · exact Later.of (by simp)
  · split
    · exact acceptStepCore_later s
    · split
      · exact Later.of (by simp)
      · exact Later.refl s

theorem timeInputCore_later (s : State) (lt : Nat) : Later s (timeInputCore s lt) := by
  unfold timeInputCore
  split
  · rename_i h
    have hl : Later s (s.updC fun c => runTo c lt) := Later.updC _ _ (by rw [runTo_lt]; omega)
    dsimp only
    split
    · exact hl
    · exact hl.trans (Later.of (by simp))
  · exact Later.refl s

theorem xtalRestarts_lt (c : Commons) (coarse : Nat) : c.lt ≤ (xtalRestarts c coarse).lt := by
  unfold xtalRestarts
  split
  · exact Nat.le_max_left _ _
  · exact Nat.le_refl _

/-! ## Accesses -/

@[simp] theorem Commons.clearSticky_lt (c : Commons) (page cause : Nat) (w : Word) : (c.clearSticky page cause w).lt = c.lt := by
  unfold Commons.clearSticky
  repeat' (first | rfl | (simp; done) | split | dsimp only)

theorem hdrWriteC_later (s : State) (page off : Nat) (w : Word) (t : State) (h : hdrWriteC s page off w = some t) : Later s t := by
  unfold hdrWriteC at h
  repeat' split at h
  all_goals first
    | (injection h with h; subst h; exact Later.of (by simp))
    | cases h

/-- What a stored write brings with it. -/
theorem afterWrite_later (s : State) (page off : Nat) (v : Word) : Later s (afterWrite s page off v) := by
  unfold afterWrite
  repeat' split
  all_goals first
    | exact judgeSources_later s
    | exact Later.of (by simp)

theorem storeC_later (s : State) (r : Requester) (page off idx : Nat) (row : RegRow) (old w : Word) (be : Nat) :
    Later s (storeC s r page off idx row old w be) := by
  unfold storeC
  dsimp only
  exact Later.trans (Later.of (by simp)) (afterWrite_later _ _ _ _)

theorem timeWrite_later (s : State) (r : Requester) (page off : Nat) (w : Word) (t : State)
    (h : timeWrite s r page off w = some t) : Later s t := by
  unfold timeWrite at h
  dsimp only at h
  repeat' split at h
  all_goals first
    | (injection h with h; subst h; first
        | exact Later.refl _
        | exact writeLathCmd_later _ _
        | exact writeHostTime_later _ _
        | exact writePtpMeas_later _ _
        | exact Later.of (by simp)
        | (split <;> first | exact writePtpMeas_later _ _ | exact Later.refl _))
    | (cases h; done)
    | (rw [Option.map_eq_some_iff] at h; obtain ⟨n, _, rfl⟩ := h; exact Later.of (by simp))

theorem portWrite_later (s : State) (page off : Nat) (old w : Word) (t : State)
    (h : portWrite s page off old w = some t) : Later s t := by
  unfold portWrite at h
  repeat' split at h
  all_goals first
    | (cases h; done)
    | (injection h with h; subst h; apply Later.of; repeat' (first | (simp; done) | split | simp))

theorem leaseWrite_later (s : State) (r : Requester) (page off : Nat) (w : Word) (t : State)
    (h : leaseWrite s r page off w = some t) : Later s t := by
  unfold leaseWrite at h
  repeat' split at h
  all_goals first
    | (cases h; done)
    | (injection h with h; subst h; apply Later.of; repeat' (first | (simp; done) | split | simp))

theorem checkWrite_later (s : State) (page off : Nat) (v : Word) (t : State) (h : checkWrite s page off v = some t) : Later s t := by
  unfold checkWrite at h
  repeat' split at h
  all_goals first
    | (cases h; done)
    | (injection h with h; subst h; exact Later.updZ _ _)

/-- The branch that answers. -/
theorem ite_some_cases {α : Type} {p : Prop} [Decidable p] {a b : Option α} {t : α} (h : (if p then a else b) = some t) :
    a = some t ∨ b = some t := by
  by_cases hp : p
  · rw [if_pos hp] at h; exact .inl h
  · rw [if_neg hp] at h; exact .inr h

theorem miscWrite_later (s : State) (r : Requester) (page off idx : Nat) (w : Word) (t : State)
    (h : miscWrite s r page off idx w = some t) : Later s t := by
  unfold miscWrite at h
  dsimp only at h
  repeat' (first
    | (cases h; done)
    | (injection h with h; subst h; apply Later.of; repeat' (first | (simp; done) | split | simp))
    | rcases ite_some_cases h with h | h)

/-- The first of two choices that answers. -/
theorem orElse_some {α : Type} (a : Option α) (f : Unit → Option α) (t : α) (h : a.orElse f = some t) :
    a = some t ∨ f () = some t := by
  cases a with
  | none => exact .inr h
  | some x => exact .inl h

theorem commonsAct_later (s : State) (r : Requester) (page off idx : Nat) (old w : Word) (t : State)
    (h : commonsAct s r page off idx old w = some t) : Later s t := by
  unfold commonsAct at h
  split at h
  · exact hdrWriteC_later _ _ _ _ _ h
  · rcases orElse_some _ _ _ h with h | h
    · exact timeWrite_later _ _ _ _ _ _ h
    · rcases orElse_some _ _ _ h with h | h
      · exact portWrite_later _ _ _ _ _ _ h
      · rcases orElse_some _ _ _ h with h | h
        · exact leaseWrite_later _ _ _ _ _ _ h
        · exact miscWrite_later _ _ _ _ _ _ _ h

/-- A write that reaches a commons page. -/
theorem commonsWrite_later (s : State) (r : Requester) (page off : Nat) (v : Word) (be : Nat) :
    Later s (commonsWrite s r page off v be) := by
  unfold commonsWrite
  split
  · exact Later.refl s
  · split
    · exact Later.refl s
    · split
      · exact Later.of (by simp)
      · dsimp only
        split
        · cases hc : checkWrite s page off v with
          | none => exact Later.refl s
          | some t => exact checkWrite_later s page off v t hc
        · split
          · split
            · exact Later.of (by simp)
            · exact Later.refl s
          · cases hact : commonsAct s r page off (commonsIdx s.c.regs page off)
                (rdI s.c.regs page off (commonsIdx s.c.regs page off))
                (RegRow.effect _ (rb s.c.regs page Reg.HDR_LOCK 0) (rdI s.c.regs page off (commonsIdx s.c.regs page off)) v be) with
            | none => exact storeC_later ..
            | some s1 => exact commonsAct_later _ _ _ _ _ _ _ _ hact

theorem directWrite_later (s : State) (r : Requester) (off : Nat) (v : Word) (be : Nat) : Later s (directWrite s r off v be) := by
  unfold directWrite
  split
  · split
    · split
      · exact Later.of (by simp)
      · exact Later.refl s
    · exact commonsWrite_later _ _ _ _ _ _
  · repeat' split
    all_goals first
      | exact Later.refl s
      | exact Later.of (by simp)
  · split
    · exact Later.of (by simp)
    · exact Later.refl s
  · exact Later.refl s

theorem portAccess_later (s : State) (r : Requester) (off : Nat) (v : Word) (be : Nat) : Later s (portAccess s r off v be) := by
  unfold portAccess
  split
  · exact Later.of (by simp)
  · dsimp only
    split
    · exact Later.of (by simp)
    · split
      · exact Later.of (by simp)
      · exact Later.trans (Later.of (by simp)) (directWrite_later _ _ _ _ _)

theorem access_later (s : State) (r : Requester) (off : Nat) (v : Word) (be : Nat) : Later s (access s r off v be) := by
  unfold access
  split
  · exact Later.refl s
  · split
    · exact Later.of (by simp)
    · exact portAccess_later _ _ _ _ _

theorem pageWrite_later (s : State) (r : Requester) (page off : Nat) (v : Word) : Later s (pageWrite s r page off v) :=
  access_later _ _ _ _ _

/-- A read moves nothing of these. -/
@[simp] theorem commonsReadFx_keeps (s : State) (r : Requester) (page off : Nat) :
    (commonsReadFx s r page off).1.pending = s.pending ∧ (commonsReadFx s r page off).1.variant = s.variant ∧
    (commonsReadFx s r page off).1.c.lt = s.c.lt := by
  unfold commonsReadFx
  repeat' split
  all_goals simp [readLtLo]

@[simp] theorem portRead_keeps (s : State) (r : Requester) (off : Nat) :
    (portRead s r off).pending = s.pending ∧ (portRead s r off).variant = s.variant ∧ (portRead s r off).c.lt = s.c.lt := by
  unfold portRead
  repeat' split
  all_goals simp

@[simp] theorem accessRead_keeps (s : State) (r : Requester) (off : Nat) :
    (accessRead s r off).pending = s.pending ∧ (accessRead s r off).variant = s.variant ∧
    (accessRead s r off).c.lt = s.c.lt := by
  unfold accessRead
  repeat' split
  all_goals simp

@[simp] theorem chainReads_keeps (s : State) (frame : List Byte) :
    (chainReads s frame).pending = s.pending ∧ (chainReads s frame).variant = s.variant ∧
    (chainReads s frame).c.lt = s.c.lt := by
  unfold chainReads
  split <;> simp

/-! ## Outputs -/

theorem pass_later (s : State) (x : SideId) (b : TxnBody) : Later s (pass s x b) := by
  cases b
  case regWrite page off v be => exact Later.trans (Later.updC s _ (by simp)) (commonsWrite_later _ _ _ _ _ _)
  all_goals exact Later.of (by simp [pass])

theorem pathFault_later (s : State) (x : SideId) (twin : Option Txn) : Later s (pathFault s x twin) := by
  unfold pathFault
  dsimp only
  split
  · exact Later.of (by simp)
  · have step : ∀ (s0 : State) (b : TxnBody), Later s0 (grant (pass (gapEnds s0) x.other b) x.other false) := fun s0 b =>
      Later.trans (Later.of (gapEnds_keeps s0)) (Later.trans (pass_later _ _ b) (Later.of (grant_keeps _ _ _)))
    refine Later.trans ?_ (step _ _)
    apply Later.of
    repeat' (first | (simp; done) | split | simp)

theorem passMember_later (s : State) (x : SideId) (t : Txn) (twin : Option Txn) (readbackOk : Bool) :
    Later s (passMember s x t twin readbackOk) := by
  unfold passMember
  split
  · exact Later.of (by simp)
  · split
    · exact Later.trans (Later.of (by simp)) (pass_later _ _ _)
    · exact pathFault_later _ _ _

theorem comparePair_later (s : State) (h : SideId) (ea eb : Nat × Txn) (readbackOk : Bool) :
    Later s (comparePair s h ea eb readbackOk) := by
  unfold comparePair
  dsimp only
  split
  · split <;> exact Later.trans (Later.updZ _ _) (passMember_later _ _ _ _ _)
  · exact Later.of (by simp)

theorem passNext_later (s : State) (readbackOk : Bool) (t : State) (h : passNext s readbackOk = some t) : Later s t := by
  unfold passNext at h
  dsimp only at h
  repeat' split at h
  all_goals first
    | (cases h; done)
    | (injection h with h; subst h; first
        | exact comparePair_later _ _ _ _ _
        | exact Later.trans (Later.updZ _ _) (passMember_later _ _ _ _ _)
        | exact Later.of (by simp)
        | (split <;> first
            | exact Later.trans (Later.updZ _ _) (passMember_later _ _ _ _ _)
            | exact Later.of (by simp)))

theorem coreTxn_later (s : State) (x : SideId) (t : CoreTxn) : Later s (coreTxn s x t) := by
  cases t <;> unfold coreTxn <;> dsimp only <;> (try split) <;> exact Later.of (by simp [coreRead_keeps])

/-- What the oldest output of a side leads to. -/
theorem offerFirst_later (s : State) (x : SideId) (readbackOk : Bool) :
    Later s (match (s.side x).outq with
      | [] => s
      | t :: rest =>
        let s1 := s.upd x fun d => { d with outq := rest }
        if takesOffer s1 x t then
          let s2 := s1.hold x t
          (passNext s2 readbackOk).getD s2
        else s1) := by
  split
  · exact Later.refl s
  · have hn : ∀ u, Later u ((passNext u readbackOk).getD u) := by
      intro u
      cases hp : passNext u readbackOk with
      | none => exact Later.refl _
      | some v => exact passNext_later _ _ _ hp
    dsimp only
    split
    · exact Later.trans (Later.of (by simp)) (hn _)
    · exact Later.upd s x _

theorem offerOutput_later (s : State) (x : SideId) (txn : Option CoreTxn) (readbackOk : Bool) :
    Later s (offerOutput s x txn readbackOk) := by
  have h0 : Later s (match txn with
      | some t => coreTxn s x t
      | none => s) := by
    cases txn with
    | none => exact Later.refl s
    | some t => exact coreTxn_later s x t
  exact h0.trans (offerFirst_later _ x readbackOk)

/-! ## The end of a command -/

theorem takeInput_later (s : State) (x : SideId) (i : Seqd) (t : State) (h : takeInput s x i = some t) : Later s t := by
  unfold takeInput at h
  dsimp only at h
  split at h
  all_goals first
    | (cases h; done)
    | (injection h with h; subst h; apply Later.of; repeat' (first | (simp; done) | split | simp))

theorem autoConsume_later (s : State) (x : SideId) (t : State) (h : autoConsume s x = some t) : Later s t := by
  unfold autoConsume at h
  rw [Option.bind_eq_some_iff] at h
  obtain ⟨i, _, h⟩ := h
  exact takeInput_later s x i t h

theorem answerAlone_later (s : State) (t : State) (h : answerAlone s = some t) : Later s t := by
  unfold answerAlone at h
  repeat' split at h
  all_goals first
    | (cases h; done)
    | (injection h with h; subst h; apply Later.of; repeat' (first | (simp; done) | split | simp))

theorem winReadEnds_later (s t : State) (h : winReadEnds s = some t) : Later s t := by
  unfold winReadEnds at h
  repeat' split at h
  all_goals first
    | (cases h; done)
    | (injection h with h; subst h; exact Later.of (by simp))

theorem enrolEnds_later (s : State) (x : SideId) (t : State) (h : enrolEnds s x = some t) : Later s t := by
  unfold enrolEnds at h
  rw [Option.map_eq_some_iff] at h
  obtain ⟨root, _, rfl⟩ := h
  dsimp only
  split <;> exact Later.of (by simp)

theorem settleStep_later (s : State) (t : State) (h : settleStep s = some t) : Later s t := by
  unfold settleStep at h
  split at h
  · rename_i u hu
    injection h with h
    subst h
    rcases orElse_some _ _ _ hu with hu | hu
    · exact winReadEnds_later _ _ hu
    · rcases orElse_some _ _ _ hu with hu | hu
      · exact enrolEnds_later _ _ _ hu
      · rcases orElse_some _ _ _ hu with hu | hu
        · exact enrolEnds_later _ _ _ hu
        · exact autoConsume_later _ _ _ hu
  · split at h
    · injection h with h; subst h; exact autoConsume_later _ _ _ ‹_›
    · split at h
      · injection h with h; subst h; exact passNext_later _ _ _ ‹_›
      · exact answerAlone_later _ _ h

theorem settleBy_later (n : Nat) : ∀ s, Later s (settleBy s n) := by
  induction n with
  | zero => intro s; exact Later.refl s
  | succ n ih =>
    intro s
    unfold settleBy
    split
    · exact (settleStep_later _ _ ‹_›).trans (ih _)
    · exact Later.refl s

theorem settle_later (s : State) : Later s (settle s) := by
  unfold settle
  dsimp only
  refine Later.trans ?_ (settleBy_later _ _)
  apply Later.of
  split <;> simp

/-- The end of a command never moves LT back. -/
theorem fin_later (s : State) : Later s (fin s) := (settle_later s).trans (Later.of (refresh_keeps _))

theorem fin_of {s t : State} (h : Later s t) : Later s (fin t) := h.trans (fin_later t)

theorem sequenceNext_later (s : State) (src : InputSource) : Later s (sequenceNext s src) := by
  unfold sequenceNext
  split
  · exact Later.of (by simp)
  · split
    · exact Later.refl s
    · dsimp only
      split
      · exact (Later.updZ s _).trans ((Later.updC _ Commons.openCycle (by simp)).trans (directWrite_later _ _ _ _ _))
      · split
        · exact Later.refl s
        · exact Later.of (by simp)

theorem renewPassed_later (s : State) (v : Word) : Later s (renewPassed s v) := by
  unfold renewPassed
  repeat' split
  all_goals first
    | exact Later.refl s
    | exact commonsWrite_later _ _ _ _ _ _

/-- A frame of the chain port leads to what its operation does. -/
theorem chainTake_later (s : State) (op : Nat) (fr : List Byte) (f : State → State) (h : ∀ s, Later s (f s)) :
    Later s (chainTake s op fr f) := by
  unfold chainTake
  repeat' split
  all_goals first
    | exact Later.refl s
    | exact Later.of (by simp)
    | exact Later.trans (Later.of (by simp)) (h _)
    | (dsimp only; repeat' split) <;> first
        | exact Later.refl s
        | exact Later.of (by simp)
        | exact Later.trans (Later.of (by simp)) (h _)

/-- A meaning of a unit of a port. -/
theorem onPort_later (s : State) (p : RPort) (f : State → State) (h : ∀ s, Later s (f s)) : Later s (onPort s p f) := by
  unfold onPort
  split
  · exact fin_of (h s)
  · exact Later.refl s

end Sys2Proof.Machine
end

