-- ==== Sys2Proof/Laws/Meanings.lean ====
section
/-! SUPPORT. Every meaning but those of PORST_ASSERT and PORST_RELEASE, which starts LT again, keeps the queue and the variant and never moves LT back (R42). -/

namespace Sys2Proof.Machine

open Sys2Proof

/-- The outcome is a next state that is not earlier. -/
def Onward (s : State) (o : Host.Outcome State Fault Refusal) : Prop := ∃ t, o = .next t ∧ Later s t

theorem onward_fin {s t : State} (h : Later s t) : Onward s (.next (fin t)) := ⟨_, rfl, fin_of h⟩

theorem onward_cond {s t : State} (b : Bool) (h : Later s t) : Onward s (.next (if b = true then fin t else s)) := by
  cases b
  · exact ⟨_, rfl, Later.refl s⟩
  · exact ⟨_, rfl, fin_of h⟩

theorem onward_ite {s t : State} {p : Prop} [Decidable p] (h : Later s t) : Onward s (.next (fin (if p then t else s))) := by
  by_cases hp : p
  · rw [if_pos hp]; exact onward_fin h
  · rw [if_neg hp]; exact onward_fin (Later.refl s)

theorem onward_of {s t : State} (h : Later s t) : Onward s (.next t) := ⟨_, rfl, h⟩

theorem execRegisterWrite_onward (r : Requester) (off : Nat) (v : Word) (be : Nat) (s : State) :
    Onward s (execRegisterWrite r off v be s) := by
  exact onward_fin (access_later _ _ _ _ _)

theorem execSideRangeWrite_onward (r : Requester) (off : Nat) (v : Word) (be : Nat) (s : State) :
    Onward s (execSideRangeWrite r off v be s) := by
  unfold execSideRangeWrite
  apply onward_fin
  repeat' split
  all_goals first
    | exact Later.refl _
    | exact pageWrite_later _ _ _ _ _
    | exact access_later _ _ _ _ _
    | exact Later.of (by simp)

theorem execPairedWindowWrite_onward (r : Requester) (off : Nat) (v : Word) (be : Nat) (s : State) :
    Onward s (execPairedWindowWrite r off v be s) := by
  exact onward_fin (access_later _ _ _ _ _)

theorem execPairedWindowRead_onward (r : Requester) (off : Nat) (s : State) :
    Onward s (execPairedWindowRead r off s) := by
  exact onward_fin (Later.of (by simp))

theorem execCntClr_onward (r : Requester) (page : Nat) (s : State) :
    Onward s (execCntClr r page s) := by
  exact onward_fin (pageWrite_later _ _ _ _ _)

theorem execLockWrite_onward (r : Requester) (page : Nat) (v : Word) (s : State) :
    Onward s (execLockWrite r page v s) := by
  exact onward_fin (pageWrite_later _ _ _ _ _)

theorem execErrStickyClear_onward (r : Requester) (page : Nat) (v : Word) (s : State) :
    Onward s (execErrStickyClear r page v s) := by
  exact onward_fin (pageWrite_later _ _ _ _ _)

theorem execErrMaskWrite_onward (r : Requester) (page : Nat) (v : Word) (s : State) :
    Onward s (execErrMaskWrite r page v s) := by
  exact onward_fin (pageWrite_later _ _ _ _ _)

theorem execInputSequenced_onward (src : InputSource) (s : State) :
    Onward s (execInputSequenced src s) := by
  exact onward_fin (sequenceNext_later s src)

theorem execTimeInput_onward (lt : Nat) (s : State) :
    Onward s (execTimeInput lt s) := by
  exact onward_fin (timeInputCore_later s lt)

theorem execSideTimeInput_onward (x : SideId) (s : State) :
    Onward s (execSideTimeInput x s) := by
  unfold execSideTimeInput
  apply onward_fin
  repeat' split
  all_goals first
    | exact Later.refl _
    | exact pageWrite_later _ _ _ _ _
    | exact access_later _ _ _ _ _
    | exact Later.of (by simp)

theorem execTrngWord_onward (w : Word64) (s : State) :
    Onward s (execTrngWord w s) := by
  unfold execTrngWord
  apply onward_fin
  repeat' split
  all_goals first
    | exact Later.refl _
    | exact pageWrite_later _ _ _ _ _
    | exact access_later _ _ _ _ _
    | exact Later.of (by simp)

theorem execOutputOffer_onward (x : SideId) (txn : Option CoreTxn) (readbackOk : Bool) (s : State) :
    Onward s (execOutputOffer x txn readbackOk s) := by
  exact onward_fin (offerOutput_later s x txn readbackOk)

theorem execSkewTimeout_onward (s : State) :
    Onward s (execSkewTimeout s) := by
  exact onward_fin (Later.of (by simp))

theorem execSideCommonsEvent_onward (x : SideId) (s : State) :
    Onward s (execSideCommonsEvent x s) := by
  exact onward_fin (Later.of (by simp))

theorem execLtLoRead_onward (r : Requester) (s : State) :
    Onward s (execLtLoRead r s) := by
  exact onward_fin (Later.of (by simp))

theorem execLossCfgWrite_onward (r : Requester) (off : Nat) (v : Word) (be : Nat) (s : State) :
    Onward s (execLossCfgWrite r off v be s) := by
  exact onward_ite (access_later _ _ _ _ _)

theorem execSourceLost_onward (code : Nat) (s : State) :
    Onward s (execSourceLost code s) := by
  exact onward_fin (sourceLostCore_later s code)

theorem execRevertHoldoffExpiry_onward (s : State) :
    Onward s (execRevertHoldoffExpiry s) := by
  exact onward_fin (revert_later s)

theorem execPpsEdge_onward (s : State) :
    Onward s (execPpsEdge s) := by
  exact onward_fin (ppsEdgeCore_later s)

theorem execHostTimeWrite_onward (r : Requester) (v : Word) (s : State) :
    Onward s (execHostTimeWrite r v s) := by
  exact onward_fin (pageWrite_later _ _ _ _ _)

theorem execPtpMeasurement_onward (w3 : Word) (s : State) :
    Onward s (execPtpMeasurement w3 s) := by
  exact onward_fin (writePtpMeas_later s w3)

theorem execSlewComplete_onward (s : State) :
    Onward s (execSlewComplete s) := by
  unfold execSlewComplete
  apply onward_fin
  apply Later.of
  repeat' (first | (simp; done) | (simp_all; done) | split | simp)

theorem execAcceptStep_onward (r : Requester) (s : State) :
    Onward s (execAcceptStep r s) := by
  exact onward_fin (pageWrite_later _ _ _ _ _)

theorem execAcceptSlew_onward (r : Requester) (s : State) :
    Onward s (execAcceptSlew r s) := by
  exact onward_fin (pageWrite_later _ _ _ _ _)

theorem execHoldoverExpired_onward (s : State) :
    Onward s (execHoldoverExpired s) := by
  exact onward_fin (Later.of (by simp))

theorem execXtalStop_onward (s : State) :
    Onward s (execXtalStop s) := by
  exact onward_fin (Later.of (by simp))

theorem execXtalRestart_onward (coarse : Nat) (s : State) :
    Onward s (execXtalRestart coarse s) := by
  exact onward_fin (Later.updC _ _ (xtalRestarts_lt _ _))

theorem execTimerSlotArm_onward (r : Requester) (n : Nat) (v : Word) (s : State) :
    Onward s (execTimerSlotArm r n v s) := by
  unfold execTimerSlotArm
  apply onward_fin
  repeat' split
  all_goals first
    | exact Later.refl _
    | exact pageWrite_later _ _ _ _ _
    | exact access_later _ _ _ _ _
    | exact Later.of (by simp)

theorem execTimerSlotExpiry_onward (n : Nat) (s : State) :
    Onward s (execTimerSlotExpiry n s) := by
  exact onward_fin (Later.of (by simp))

theorem execTpoCtrlWrite_onward (r : Requester) (n : Nat) (v : Word) (s : State) :
    Onward s (execTpoCtrlWrite r n v s) := by
  unfold execTpoCtrlWrite
  apply onward_fin
  repeat' split
  all_goals first
    | exact Later.refl _
    | exact pageWrite_later _ _ _ _ _
    | exact access_later _ _ _ _ _
    | exact Later.of (by simp)

theorem execTpoEdge_onward (n : Nat) (s : State) :
    Onward s (execTpoEdge n s) := by
  exact onward_cond _ (Later.of (by simp))

theorem execLoFreqWrite_onward (r : Requester) (p : RPort) (v : Word) (s : State) :
    Onward s (execLoFreqWrite r p v s) := by
  exact onward_fin (pageWrite_later _ _ _ _ _)

theorem execRetuneStart_onward (p : RPort) (s : State) :
    Onward s (execRetuneStart p s) := by
  exact onward_of (onPort_later _ _ _ fun s => Later.of (by simp))

theorem execRetuneEnd_onward (p : RPort) (s : State) :
    Onward s (execRetuneEnd p s) := by
  exact onward_of (onPort_later _ _ _ fun s => Later.of (by simp))

theorem execChWrite_onward (r : Requester) (p : RPort) (s : State) :
    Onward s (execChWrite r p s) := by
  exact onward_fin (pageWrite_later _ _ _ _ _)

theorem execChRead_onward (r : Requester) (p : RPort) (s : State) :
    Onward s (execChRead r p s) := by
  exact onward_fin (pageWrite_later _ _ _ _ _)

theorem execLaunchArrival_onward (p : RPort) (n : Nat) (s : State) :
    Onward s (execLaunchArrival p n s) := by
  unfold execLaunchArrival
  by_cases h : s.c.pd.leaving (portDomain p) = true
  · rw [if_pos h]; exact onward_of (Later.refl s)
  · rw [if_neg h]
    split
    · exact onward_fin (Later.of (by simp))
    · exact onward_of (onPort_later _ _ _ fun s => Later.of (by simp))

theorem execCarrierFree_onward (p : RPort) (n : Nat) (s : State) :
    Onward s (execCarrierFree p n s) := by
  exact onward_of (onPort_later _ _ _ fun s => Later.of (by simp))

theorem execLaunchCheckDue_onward (p : RPort) (n : Nat) (s : State) :
    Onward s (execLaunchCheckDue p n s) := by
  exact onward_of (onPort_later _ _ _ fun s => Later.of (by simp))

theorem execLbtListen_onward (p : RPort) (n rssi : Nat) (s : State) :
    Onward s (execLbtListen p n rssi s) := by
  exact onward_of (onPort_later _ _ _ fun s => Later.of (by simp))

theorem execLbtDeferExpiry_onward (p : RPort) (n : Nat) (s : State) :
    Onward s (execLbtDeferExpiry p n s) := by
  exact onward_of (onPort_later _ _ _ fun s => Later.of (by simp))

theorem execFeLineEdge_onward (n : Nat) (s : State) :
    Onward s (execFeLineEdge n s) := by
  exact onward_cond _ (Later.of (by simp))

theorem execBlankingStart_onward (p : RPort) (n : Nat) (s : State) :
    Onward s (execBlankingStart p n s) := by
  exact onward_of (onPort_later _ _ _ fun s => Later.of (by simp))

theorem execBurstStart_onward (p : RPort) (n : Nat) (s : State) :
    Onward s (execBurstStart p n s) := by
  exact onward_of (onPort_later _ _ _ fun s => Later.of (by simp))

theorem execBurstEnd_onward (p : RPort) (n : Nat) (s : State) :
    Onward s (execBurstEnd p n s) := by
  exact onward_of (onPort_later _ _ _ fun s => Later.of (by simp))

theorem execBlankingEnd_onward (p : RPort) (n : Nat) (s : State) :
    Onward s (execBlankingEnd p n s) := by
  exact onward_of (onPort_later _ _ _ fun s => Later.of (by simp))

theorem execAckBurstStart_onward (p : RPort) (n : Nat) (s : State) :
    Onward s (execAckBurstStart p n s) := by
  exact onward_of (onPort_later _ _ _ fun s => Later.of (by simp))

theorem execAckBurstEnd_onward (p : RPort) (n : Nat) (s : State) :
    Onward s (execAckBurstEnd p n s) := by
  exact onward_of (onPort_later _ _ _ fun s => Later.of (by simp))

theorem execFeCfgApply_onward (n : Nat) (s : State) :
    Onward s (execFeCfgApply n s) := by
  exact onward_cond _ (Later.of (by simp))

theorem execStartupCalDone_onward (p : RPort) (converged : Bool) (s : State) :
    Onward s (execStartupCalDone p converged s) := by
  exact onward_of (onPort_later _ _ _ fun s => Later.of (by simp))

theorem execCalNotice_onward (p : RPort) (s : State) :
    Onward s (execCalNotice p s) := by
  exact onward_of (onPort_later _ _ _ fun s => Later.of (by simp))

theorem execGapNow_onward (r : Requester) (p : RPort) (s : State) :
    Onward s (execGapNow r p s) := by
  exact onward_fin (pageWrite_later _ _ _ _ _)

theorem execCalGapStart_onward (p : RPort) (s : State) :
    Onward s (execCalGapStart p s) := by
  exact onward_of (onPort_later _ _ _ fun s => Later.of (by simp))

theorem execCalGapEnd_onward (p : RPort) (cancOk : Bool) (s : State) :
    Onward s (execCalGapEnd p cancOk s) := by
  exact onward_of (onPort_later _ _ _ fun s => Later.of (by simp))

theorem execDutyBucketBoundary_onward (s : State) :
    Onward s (execDutyBucketBoundary s) := by
  exact onward_cond _ (Later.of (by simp))

theorem execDwellSubbucketBoundary_onward (p : RPort) (s : State) :
    Onward s (execDwellSubbucketBoundary p s) := by
  exact onward_of (onPort_later _ _ _ fun s => Later.of (by simp))

theorem execPortCfgWrite_onward (r : Requester) (p : RPort) (v : Word) (s : State) :
    Onward s (execPortCfgWrite r p v s) := by
  exact onward_fin (pageWrite_later _ _ _ _ _)

theorem execDetection_onward (p : RPort) (ch mode freq quality power : Nat) (s : State) :
    Onward s (execDetection p ch mode freq quality power s) := by
  exact onward_of (onPort_later _ _ _ fun s => Later.of (by simp))

theorem execMergeWindowClose_onward (p : RPort) (s : State) :
    Onward s (execMergeWindowClose p s) := by
  exact onward_of (onPort_later _ _ _ fun s => Later.of (by simp))

theorem execSfdFound_onward (p : RPort) (lane lt : Nat) (s : State) :
    Onward s (execSfdFound p lane lt s) := by
  exact onward_of (onPort_later _ _ _ fun s => Later.of (by simp))

theorem execSfdTimeout_onward (p : RPort) (lane : Nat) (s : State) :
    Onward s (execSfdTimeout p lane s) := by
  exact onward_of (onPort_later _ _ _ fun s => Later.of (by simp))

theorem execPhrReceived_onward (p : RPort) (lane : Nat) (phr : PhrData) (s : State) :
    Onward s (execPhrReceived p lane phr s) := by
  exact onward_of (onPort_later _ _ _ fun s => Later.of (by simp))

theorem execSyncLost_onward (p : RPort) (lane : Nat) (s : State) :
    Onward s (execSyncLost p lane s) := by
  exact onward_of (onPort_later _ _ _ fun s => Later.of (by simp))

theorem execFcsDecision_onward (p : RPort) (lane : Nat) (rx : RxEnd) (s : State) :
    Onward s (execFcsDecision p lane rx s) := by
  exact onward_of (onPort_later _ _ _ fun s => Later.of (by simp))

theorem execChLanesWrite_onward (r : Requester) (p : RPort) (v : Word) (s : State) :
    Onward s (execChLanesWrite r p v s) := by
  exact onward_fin (pageWrite_later _ _ _ _ _)

theorem execPortLimitWrite_onward (r : Requester) (p : RPort) (v : Word) (s : State) :
    Onward s (execPortLimitWrite r p v s) := by
  exact onward_fin (pageWrite_later _ _ _ _ _)

theorem execPendingListSet_onward (s : State) :
    Onward s (execPendingListSet s) := by
  exact onward_cond _ (Later.of (by simp))

theorem execPendingListClear_onward (s : State) :
    Onward s (execPendingListClear s) := by
  exact onward_cond _ (Later.of (by simp))

theorem execPendingListClearAll_onward (s : State) :
    Onward s (execPendingListClearAll s) := by
  exact onward_cond _ (Later.of (by simp))

theorem execPendingListQuery_onward (r : Requester) (v : Word) (s : State) :
    Onward s (execPendingListQuery r v s) := by
  exact onward_fin (pageWrite_later _ _ _ _ _)

theorem execPendingUpdateCompletion_onward (x : SideId) (s : State) :
    Onward s (execPendingUpdateCompletion x s) := by
  unfold execPendingUpdateCompletion
  apply onward_fin
  repeat' split
  all_goals first
    | exact Later.refl _
    | exact pageWrite_later _ _ _ _ _
    | exact access_later _ _ _ _ _
    | exact Later.of (by simp)

theorem execRxFrameConsume_onward (x : SideId) (s : State) :
    Onward s (execRxFrameConsume x s) := by
  unfold execRxFrameConsume
  apply onward_fin
  repeat' split
  all_goals first
    | exact Later.refl _
    | exact pageWrite_later _ _ _ _ _
    | exact access_later _ _ _ _ _
    | exact Later.of (by simp)

theorem execAckWaitExpiry_onward (x : SideId) (s : State) :
    Onward s (execAckWaitExpiry x s) := by
  unfold execAckWaitExpiry
  apply onward_fin
  repeat' split
  all_goals first
    | exact Later.refl _
    | exact pageWrite_later _ _ _ _ _
    | exact access_later _ _ _ _ _
    | exact Later.of (by simp)

theorem execScheduledWindow_onward (x : SideId) (s : State) :
    Onward s (execScheduledWindow x s) := by
  unfold execScheduledWindow
  apply onward_fin
  repeat' split
  all_goals first
    | exact Later.refl _
    | exact pageWrite_later _ _ _ _ _
    | exact access_later _ _ _ _ _
    | exact Later.of (by simp)

theorem execParkedFrameExpiry_onward (x : SideId) (s : State) :
    Onward s (execParkedFrameExpiry x s) := by
  unfold execParkedFrameExpiry
  apply onward_fin
  repeat' split
  all_goals first
    | exact Later.refl _
    | exact pageWrite_later _ _ _ _ _
    | exact access_later _ _ _ _ _
    | exact Later.of (by simp)

theorem execPendingSetRetry_onward (x : SideId) (s : State) :
    Onward s (execPendingSetRetry x s) := by
  unfold execPendingSetRetry
  apply onward_fin
  repeat' split
  all_goals first
    | exact Later.refl _
    | exact pageWrite_later _ _ _ _ _
    | exact access_later _ _ _ _ _
    | exact Later.of (by simp)

theorem execWinRead_onward (r : Requester) (s : State) :
    Onward s (execWinRead r s) := by
  exact onward_fin (pageWrite_later _ _ _ _ _)

theorem execWinWrite_onward (r : Requester) (s : State) :
    Onward s (execWinWrite r s) := by
  exact onward_fin (pageWrite_later _ _ _ _ _)

theorem execWinDelete_onward (r : Requester) (s : State) :
    Onward s (execWinDelete r s) := by
  exact onward_fin (pageWrite_later _ _ _ _ _)

theorem execRelayDecision_onward (x : SideId) (s : State) :
    Onward s (execRelayDecision x s) := by
  unfold execRelayDecision
  apply onward_fin
  repeat' split
  all_goals first
    | exact Later.refl _
    | exact pageWrite_later _ _ _ _ _
    | exact access_later _ _ _ _ _
    | exact Later.of (by simp)

theorem execReassemblyTimeout_onward (x : SideId) (s : State) :
    Onward s (execReassemblyTimeout x s) := by
  unfold execReassemblyTimeout
  apply onward_fin
  repeat' split
  all_goals first
    | exact Later.refl _
    | exact pageWrite_later _ _ _ _ _
    | exact access_later _ _ _ _ _
    | exact Later.of (by simp)

theorem execSkimSweep_onward (x : SideId) (s : State) :
    Onward s (execSkimSweep x s) := by
  unfold execSkimSweep
  apply onward_fin
  repeat' split
  all_goals first
    | exact Later.refl _
    | exact pageWrite_later _ _ _ _ _
    | exact access_later _ _ _ _ _
    | exact Later.of (by simp)

theorem execCtxRead_onward (r : Requester) (s : State) :
    Onward s (execCtxRead r s) := by
  exact onward_fin (pageWrite_later _ _ _ _ _)

theorem execCtxWrite_onward (r : Requester) (s : State) :
    Onward s (execCtxWrite r s) := by
  exact onward_fin (pageWrite_later _ _ _ _ _)

theorem execSanderVisit_onward (x : SideId) (s : State) :
    Onward s (execSanderVisit x s) := by
  unfold execSanderVisit
  apply onward_fin
  repeat' split
  all_goals first
    | exact Later.refl _
    | exact pageWrite_later _ _ _ _ _
    | exact access_later _ _ _ _ _
    | exact Later.of (by simp)

theorem execRestart_onward (r : Requester) (s : State) :
    Onward s (execRestart r s) := by
  exact onward_fin (pageWrite_later _ _ _ _ _)

theorem execSanderEnWrite_onward (r : Requester) (v : Word) (s : State) :
    Onward s (execSanderEnWrite r v s) := by
  exact onward_fin (pageWrite_later _ _ _ _ _)

theorem execHashSeedWrite_onward (r : Requester) (v : Word) (s : State) :
    Onward s (execHashSeedWrite r v s) := by
  exact onward_fin (pageWrite_later _ _ _ _ _)

theorem execNtRead_onward (x : SideId) (strand : Nat) (s : State) :
    Onward s (execNtRead x strand s) := by
  exact onward_fin (Later.of (by simp))

theorem execNtLock_onward (x : SideId) (strand : Nat) (s : State) :
    Onward s (execNtLock x strand s) := by
  exact onward_fin (Later.of (by simp))

theorem execNtWrite_onward (x : SideId) (strand : Nat) (s : State) :
    Onward s (execNtWrite x strand s) := by
  exact onward_fin (Later.of (by simp))

theorem execNtDelete_onward (x : SideId) (strand : Nat) (s : State) :
    Onward s (execNtDelete x strand s) := by
  exact onward_fin (Later.of (by simp))

theorem execNtScan_onward (x : SideId) (strand : Nat) (s : State) :
    Onward s (execNtScan x strand s) := by
  exact onward_fin (Later.of (by simp))

theorem execSkimRead_onward (x : SideId) (strand : Nat) (s : State) :
    Onward s (execSkimRead x strand s) := by
  exact onward_fin (Later.of (by simp))

theorem execPcRead_onward (x : SideId) (strand : Nat) (s : State) :
    Onward s (execPcRead x strand s) := by
  exact onward_fin (Later.of (by simp))

theorem execPcInsert_onward (x : SideId) (strand : Nat) (s : State) :
    Onward s (execPcInsert x strand s) := by
  exact onward_fin (Later.of (by simp))

theorem execPcDelete_onward (x : SideId) (strand : Nat) (s : State) :
    Onward s (execPcDelete x strand s) := by
  exact onward_fin (Later.of (by simp))

theorem execCamMovesDone_onward (x : SideId) (s : State) :
    Onward s (execCamMovesDone x s) := by
  unfold execCamMovesDone
  apply onward_fin
  repeat' split
  all_goals first
    | exact Later.refl _
    | exact pageWrite_later _ _ _ _ _
    | exact access_later _ _ _ _ _
    | exact Later.of (by simp)

theorem execLockLong_onward (x : SideId) (slot : Nat) (s : State) :
    Onward s (execLockLong x slot s) := by
  unfold execLockLong
  apply onward_fin
  repeat' split
  all_goals first
    | exact Later.refl _
    | exact pageWrite_later _ _ _ _ _
    | exact access_later _ _ _ _ _
    | exact Later.of (by simp)

theorem execEnrol_onward (r : Requester) (s : State) :
    Onward s (execEnrol r s) := by
  exact onward_fin (pageWrite_later _ _ _ _ _)

theorem execRemaskPass_onward (x : SideId) (s : State) :
    Onward s (execRemaskPass x s) := by
  unfold execRemaskPass
  apply onward_fin
  repeat' split
  all_goals first
    | exact Later.refl _
    | exact pageWrite_later _ _ _ _ _
    | exact access_later _ _ _ _ _
    | exact Later.of (by simp)

theorem execDerivationComplete_onward (x : SideId) (s : State) :
    Onward s (execDerivationComplete x s) := by
  unfold execDerivationComplete
  apply onward_fin
  repeat' split
  all_goals first
    | exact Later.refl _
    | exact pageWrite_later _ _ _ _ _
    | exact access_later _ _ _ _ _
    | exact Later.of (by simp)

theorem execTenMapWrite_onward (r : Requester) (v : Word) (s : State) :
    Onward s (execTenMapWrite r v s) := by
  exact onward_fin (pageWrite_later _ _ _ _ _)

theorem execKeyInfo_onward (x : SideId) (strand : Nat) (s : State) :
    Onward s (execKeyInfo x strand s) := by
  exact onward_fin (Later.of (by simp))

theorem execKeyInvalidate_onward (x : SideId) (strand : Nat) (s : State) :
    Onward s (execKeyInvalidate x strand s) := by
  exact onward_fin (Later.of (by simp))

theorem execTenInvalidate_onward (x : SideId) (strand : Nat) (s : State) :
    Onward s (execTenInvalidate x strand s) := by
  exact onward_fin (Later.of (by simp))

theorem execNodeInvalidate_onward (x : SideId) (strand : Nat) (s : State) :
    Onward s (execNodeInvalidate x strand s) := by
  exact onward_fin (Later.of (by simp))

theorem execCacheFlush_onward (x : SideId) (strand : Nat) (s : State) :
    Onward s (execCacheFlush x strand s) := by
  exact onward_fin (Later.of (by simp))

theorem execKeyExport_onward (x : SideId) (strand : Nat) (s : State) :
    Onward s (execKeyExport x strand s) := by
  exact onward_fin (Later.of (by simp))

theorem execKeyUpdate_onward (x : SideId) (strand : Nat) (s : State) :
    Onward s (execKeyUpdate x strand s) := by
  exact onward_fin (Later.of (by simp))

theorem execTamperTrip_onward (source : Nat) (s : State) :
    Onward s (execTamperTrip source s) := by
  exact onward_fin (Later.of (by simp))

theorem execSideTamper_onward (x : SideId) (s : State) :
    Onward s (execSideTamper x s) := by
  unfold execSideTamper
  apply onward_fin
  repeat' split
  all_goals first
    | exact Later.refl _
    | exact pageWrite_later _ _ _ _ _
    | exact access_later _ _ _ _ _
    | exact Later.of (by simp)

theorem execLoupeChallenge_onward (r : Requester) (s : State) :
    Onward s (execLoupeChallenge r s) := by
  exact onward_fin (pageWrite_later _ _ _ _ _)

theorem execLoupeOpen_onward (r : Requester) (s : State) :
    Onward s (execLoupeOpen r s) := by
  exact onward_fin (pageWrite_later _ _ _ _ _)

theorem execLoupeClose_onward (r : Requester) (s : State) :
    Onward s (execLoupeClose r s) := by
  exact onward_fin (pageWrite_later _ _ _ _ _)

theorem execLoupeLockoutEnd_onward (s : State) :
    Onward s (execLoupeLockoutEnd s) := by
  exact onward_fin (Later.of (by simp))

theorem execSideLoupeOpen_onward (x : SideId) (s : State) :
    Onward s (execSideLoupeOpen x s) := by
  unfold execSideLoupeOpen
  apply onward_fin
  repeat' split
  all_goals first
    | exact Later.refl _
    | exact pageWrite_later _ _ _ _ _
    | exact access_later _ _ _ _ _
    | exact Later.of (by simp)

theorem execSideLoupeClose_onward (x : SideId) (s : State) :
    Onward s (execSideLoupeClose x s) := by
  unfold execSideLoupeClose
  apply onward_fin
  repeat' split
  all_goals first
    | exact Later.refl _
    | exact pageWrite_later _ _ _ _ _
    | exact access_later _ _ _ _ _
    | exact Later.of (by simp)

theorem execHostFrameItem_onward (x : SideId) (strand : Nat) (s : State) :
    Onward s (execHostFrameItem x strand s) := by
  unfold execHostFrameItem
  apply onward_fin
  repeat' split
  all_goals first
    | exact Later.refl _
    | exact pageWrite_later _ _ _ _ _
    | exact access_later _ _ _ _ _
    | exact Later.of (by simp)

theorem execEthFrameConsume_onward (x : SideId) (s : State) :
    Onward s (execEthFrameConsume x s) := by
  unfold execEthFrameConsume
  apply onward_fin
  repeat' split
  all_goals first
    | exact Later.refl _
    | exact pageWrite_later _ _ _ _ _
    | exact access_later _ _ _ _ _
    | exact Later.of (by simp)

theorem execReleaseDecision_onward (x : SideId) (carrier : Nat) (s : State) :
    Onward s (execReleaseDecision x carrier s) := by
  unfold execReleaseDecision
  apply onward_fin
  repeat' split
  all_goals first
    | exact Later.refl _
    | exact pageWrite_later _ _ _ _ _
    | exact access_later _ _ _ _ _
    | exact Later.of (by simp)

theorem execHostPortRelease_onward (x : SideId) (port : Nat) (s : State) :
    Onward s (execHostPortRelease x port s) := by
  unfold execHostPortRelease
  apply onward_fin
  repeat' split
  all_goals first
    | exact Later.refl _
    | exact pageWrite_later _ _ _ _ _
    | exact access_later _ _ _ _ _
    | exact Later.of (by simp)

theorem execLaunchCompletion_onward (x : SideId) (s : State) :
    Onward s (execLaunchCompletion x s) := by
  unfold execLaunchCompletion
  apply onward_fin
  repeat' split
  all_goals first
    | exact Later.refl _
    | exact pageWrite_later _ _ _ _ _
    | exact access_later _ _ _ _ _
    | exact Later.of (by simp)

theorem execGateSwap_onward (r : Requester) (s : State) :
    Onward s (execGateSwap r s) := by
  exact onward_fin (pageWrite_later _ _ _ _ _)

theorem execGateAbort_onward (r : Requester) (s : State) :
    Onward s (execGateAbort r s) := by
  exact onward_fin (pageWrite_later _ _ _ _ _)

theorem execGateSwapApply_onward (x : SideId) (carrier : Nat) (s : State) :
    Onward s (execGateSwapApply x carrier s) := by
  unfold execGateSwapApply
  apply onward_fin
  repeat' split
  all_goals first
    | exact Later.refl _
    | exact pageWrite_later _ _ _ _ _
    | exact access_later _ _ _ _ _
    | exact Later.of (by simp)

theorem execGateEnWrite_onward (r : Requester) (v : Word) (s : State) :
    Onward s (execGateEnWrite r v s) := by
  exact onward_fin (pageWrite_later _ _ _ _ _)

theorem execFwWrite_onward (x : SideId) (strand : Nat) (s : State) :
    Onward s (execFwWrite x strand s) := by
  exact onward_fin (Later.of (by simp))

theorem execFwCommit_onward (x : SideId) (strand : Nat) (s : State) :
    Onward s (execFwCommit x strand s) := by
  exact onward_fin (Later.of (by simp))

theorem execFwUpdate_onward (x : SideId) (strand : Nat) (s : State) :
    Onward s (execFwUpdate x strand s) := by
  exact onward_fin (Later.of (by simp))

theorem execFwuSwap_onward (s : State) :
    Onward s (execFwuSwap s) := by
  exact onward_fin (Later.of (by simp))

theorem execFwConfirm_onward (x : SideId) (strand : Nat) (s : State) :
    Onward s (execFwConfirm x strand s) := by
  exact onward_fin (Later.of (by simp))

theorem execTrialExpired_onward (x : SideId) (s : State) :
    Onward s (execTrialExpired x s) := by
  unfold execTrialExpired
  apply onward_fin
  repeat' split
  all_goals first
    | exact Later.refl _
    | exact pageWrite_later _ _ _ _ _
    | exact access_later _ _ _ _ _
    | exact Later.of (by simp)

theorem execSlotVerifyDone_onward (x : SideId) (s : State) :
    Onward s (execSlotVerifyDone x s) := by
  unfold execSlotVerifyDone
  apply onward_fin
  repeat' split
  all_goals first
    | exact Later.refl _
    | exact pageWrite_later _ _ _ _ _
    | exact access_later _ _ _ _ _
    | exact Later.of (by simp)

theorem execImgWrite_onward (x : SideId) (strand : Nat) (s : State) :
    Onward s (execImgWrite x strand s) := by
  exact onward_fin (Later.of (by simp))

theorem execImgCommit_onward (x : SideId) (strand : Nat) (s : State) :
    Onward s (execImgCommit x strand s) := by
  exact onward_fin (Later.of (by simp))

theorem execImgErase_onward (x : SideId) (strand : Nat) (s : State) :
    Onward s (execImgErase x strand s) := by
  exact onward_fin (Later.of (by simp))

theorem execImgRead_onward (x : SideId) (strand : Nat) (s : State) :
    Onward s (execImgRead x strand s) := by
  exact onward_fin (Later.of (by simp))

theorem execIbeStart_onward (x : SideId) (strand : Nat) (s : State) :
    Onward s (execIbeStart x strand s) := by
  exact onward_fin (Later.of (by simp))

theorem execIbeStop_onward (x : SideId) (strand : Nat) (s : State) :
    Onward s (execIbeStop x strand s) := by
  exact onward_fin (Later.of (by simp))

theorem execIbeLoadDone_onward (s : State) :
    Onward s (execIbeLoadDone s) := by
  unfold execIbeLoadDone
  apply onward_fin
  repeat' split
  all_goals first
    | exact Later.refl _
    | exact pageWrite_later _ _ _ _ _
    | exact access_later _ _ _ _ _
    | exact Later.of (by simp)

theorem execSymNext_onward (s : State) :
    Onward s (execSymNext s) := by
  unfold execSymNext
  apply onward_fin
  repeat' split
  all_goals first
    | exact Later.refl _
    | exact pageWrite_later _ _ _ _ _
    | exact access_later _ _ _ _ _
    | exact Later.of (by simp)

theorem execReportAdd_onward (_v : Word) (s : State) :
    Onward s (execReportAdd _v s) := by
  unfold execReportAdd
  apply onward_fin
  repeat' split
  all_goals first
    | exact Later.refl _
    | exact pageWrite_later _ _ _ _ _
    | exact access_later _ _ _ _ _
    | exact Later.of (by simp)

theorem execIbeStopLt_onward (s : State) :
    Onward s (execIbeStopLt s) := by
  unfold execIbeStopLt
  apply onward_fin
  repeat' split
  all_goals first
    | exact Later.refl _
    | exact pageWrite_later _ _ _ _ _
    | exact access_later _ _ _ _ _
    | exact Later.of (by simp)

theorem execStrandPush_onward (r : Requester) (v : Word) (s : State) :
    Onward s (execStrandPush r v s) := by
  exact onward_fin (pageWrite_later _ _ _ _ _)

theorem execCellWrite_onward (r : Requester) (off : Nat) (data : List Byte) (s : State) :
    Onward s (execCellWrite r off data s) := by
  unfold execCellWrite
  apply onward_fin
  repeat' split
  all_goals first
    | exact Later.refl _
    | exact pageWrite_later _ _ _ _ _
    | exact access_later _ _ _ _ _
    | exact Later.of (by simp)

theorem execPop_onward (r : Requester) (s : State) :
    Onward s (execPop r s) := by
  exact onward_fin (pageWrite_later _ _ _ _ _)

theorem execMark_onward (r : Requester) (s : State) :
    Onward s (execMark r s) := by
  exact onward_fin (pageWrite_later _ _ _ _ _)

theorem execRewind_onward (r : Requester) (s : State) :
    Onward s (execRewind r s) := by
  exact onward_fin (pageWrite_later _ _ _ _ _)

theorem execRelease_onward (r : Requester) (s : State) :
    Onward s (execRelease r s) := by
  exact onward_fin (pageWrite_later _ _ _ _ _)

theorem execDropRest_onward (r : Requester) (s : State) :
    Onward s (execDropRest r s) := by
  exact onward_fin (pageWrite_later _ _ _ _ _)

theorem execFlush_onward (r : Requester) (s : State) :
    Onward s (execFlush r s) := by
  exact onward_fin (pageWrite_later _ _ _ _ _)

theorem execStrandEnable_onward (r : Requester) (v : Word) (s : State) :
    Onward s (execStrandEnable r v s) := by
  exact onward_fin (pageWrite_later _ _ _ _ _)

theorem execStrandPopUnblock_onward (x : SideId) (strand : Nat) (s : State) :
    Onward s (execStrandPopUnblock x strand s) := by
  unfold execStrandPopUnblock
  apply onward_fin
  repeat' split
  all_goals first
    | exact Later.refl _
    | exact pageWrite_later _ _ _ _ _
    | exact access_later _ _ _ _ _
    | exact Later.of (by simp)

theorem execStrandPushResume_onward (x : SideId) (strand : Nat) (s : State) :
    Onward s (execStrandPushResume x strand s) := by
  unfold execStrandPushResume
  apply onward_fin
  repeat' split
  all_goals first
    | exact Later.refl _
    | exact pageWrite_later _ _ _ _ _
    | exact access_later _ _ _ _ _
    | exact Later.of (by simp)

theorem execCreate_onward (x : SideId) (core arg0 _arg1 : Nat) (s : State) :
    Onward s (execCreate x core arg0 _arg1 s) := by
  exact onward_fin (Later.of (by simp))

theorem execResume_onward (x : SideId) (core arg0 _arg1 : Nat) (s : State) :
    Onward s (execResume x core arg0 _arg1 s) := by
  exact onward_fin (Later.of (by simp))

theorem execWait_onward (x : SideId) (core arg0 arg1 : Nat) (s : State) :
    Onward s (execWait x core arg0 arg1 s) := by
  exact onward_fin (Later.of (by simp))

theorem execTrywait_onward (x : SideId) (core arg0 _arg1 : Nat) (s : State) :
    Onward s (execTrywait x core arg0 _arg1 s) := by
  exact onward_fin (Later.of (by simp))

theorem execSignal_onward (x : SideId) (core arg0 _arg1 : Nat) (s : State) :
    Onward s (execSignal x core arg0 _arg1 s) := by
  exact onward_fin (Later.of (by simp))

theorem execCancel_onward (x : SideId) (core arg0 _arg1 : Nat) (s : State) :
    Onward s (execCancel x core arg0 _arg1 s) := by
  exact onward_fin (Later.of (by simp))

theorem execDelete_onward (x : SideId) (core arg0 _arg1 : Nat) (s : State) :
    Onward s (execDelete x core arg0 _arg1 s) := by
  exact onward_fin (Later.of (by simp))

theorem execYield_onward (x : SideId) (core : Nat) (s : State) :
    Onward s (execYield x core s) := by
  exact onward_fin (Later.of (by simp))

theorem execExit_onward (x : SideId) (core : Nat) (s : State) :
    Onward s (execExit x core s) := by
  exact onward_fin (Later.of (by simp))

theorem execSetprio_onward (x : SideId) (core arg0 arg1 : Nat) (s : State) :
    Onward s (execSetprio x core arg0 arg1 s) := by
  exact onward_fin (Later.of (by simp))

theorem execObjInit_onward (x : SideId) (core arg0 arg1 : Nat) (s : State) :
    Onward s (execObjInit x core arg0 arg1 s) := by
  exact onward_fin (Later.of (by simp))

theorem execDnext_onward (x : SideId) (core : Nat) (s : State) :
    Onward s (execDnext x core s) := by
  unfold execDnext
  apply onward_fin
  repeat' split
  all_goals first
    | exact Later.refl _
    | exact pageWrite_later _ _ _ _ _
    | exact access_later _ _ _ _ _
    | exact Later.of (by simp)

theorem execCoreEnWrite_onward (r : Requester) (v : Word) (s : State) :
    Onward s (execCoreEnWrite r v s) := by
  exact onward_fin (pageWrite_later _ _ _ _ _)

theorem execWaitTimeout_onward (x : SideId) (s : State) :
    Onward s (execWaitTimeout x s) := by
  unfold execWaitTimeout
  apply onward_fin
  repeat' split
  all_goals first
    | exact Later.refl _
    | exact pageWrite_later _ _ _ _ _
    | exact access_later _ _ _ _ _
    | exact Later.of (by simp)

theorem execTsliceExpiry_onward (x : SideId) (core : Nat) (s : State) :
    Onward s (execTsliceExpiry x core s) := by
  unfold execTsliceExpiry
  apply onward_fin
  repeat' split
  all_goals first
    | exact Later.refl _
    | exact pageWrite_later _ _ _ _ _
    | exact access_later _ _ _ _ _
    | exact Later.of (by simp)

theorem execSemAcq_onward (r : Requester) (n : Nat) (s : State) :
    Onward s (execSemAcq r n s) := by
  exact onward_ite (access_later _ _ _ _ _)

theorem execSemRel_onward (r : Requester) (n : Nat) (s : State) :
    Onward s (execSemRel r n s) := by
  exact onward_ite (access_later _ _ _ _ _)

theorem execSemForce_onward (r : Requester) (v : Word) (s : State) :
    Onward s (execSemForce r v s) := by
  exact onward_fin (pageWrite_later _ _ _ _ _)

theorem execSready_onward (x : SideId) (s : State) :
    Onward s (execSready x s) := by
  unfold execSready
  apply onward_fin
  repeat' split
  all_goals first
    | exact Later.refl _
    | exact pageWrite_later _ _ _ _ _
    | exact access_later _ _ _ _ _
    | exact Later.of (by simp)

theorem execGrantWaitExpiry_onward (s : State) :
    Onward s (execGrantWaitExpiry s) := by
  exact onward_fin (Later.of (by simp))

theorem execRenew_onward (v : Word) (s : State) :
    Onward s (execRenew v s) := by
  exact onward_fin (renewPassed_later s v)

theorem execLeaseExpiry_onward (s : State) :
    Onward s (execLeaseExpiry s) := by
  exact onward_fin (Later.of (by simp))

theorem execClaspSwap_onward (r : Requester) (s : State) :
    Onward s (execClaspSwap r s) := by
  exact onward_fin (pageWrite_later _ _ _ _ _)

theorem execSwapMarker_onward (s : State) :
    Onward s (execSwapMarker s) := by
  exact onward_fin (Later.of (by simp))

theorem execSelfCheckReport_onward (x : SideId) (res : SelfCheck) (s : State) :
    Onward s (execSelfCheckReport x res s) := by
  exact onward_fin (Later.of (by simp))

theorem execSelfCheckTimeout_onward (x : SideId) (s : State) :
    Onward s (execSelfCheckTimeout x s) := by
  exact onward_fin (Later.of (by simp))

theorem execOutX_onward (r : Requester) (x : SideId) (s : State) :
    Onward s (execOutX r x s) := by
  exact onward_fin (pageWrite_later _ _ _ _ _)

theorem execInX_onward (r : Requester) (x : SideId) (s : State) :
    Onward s (execInX r x s) := by
  exact onward_fin (pageWrite_later _ _ _ _ _)

theorem execRecover_onward (r : Requester) (s : State) :
    Onward s (execRecover r s) := by
  exact onward_fin (pageWrite_later _ _ _ _ _)

theorem execPathClr_onward (r : Requester) (s : State) :
    Onward s (execPathClr r s) := by
  exact onward_fin (pageWrite_later _ _ _ _ _)

theorem execTransferMarker_onward (s : State) :
    Onward s (execTransferMarker s) := by
  exact onward_fin (Later.of (by simp))

theorem execRefillCopyDone_onward (s : State) :
    Onward s (execRefillCopyDone s) := by
  exact onward_fin (Later.of (by simp))

theorem execJoin_onward (s : State) :
    Onward s (execJoin s) := by
  exact onward_fin (Later.of (by simp))

theorem execRefillRetry_onward (s : State) :
    Onward s (execRefillRetry s) := by
  exact onward_fin (Later.of (by simp))

theorem execDrillStart_onward (s : State) :
    Onward s (execDrillStart s) := by
  exact onward_fin (Later.of (by simp))

theorem execDrillDwellEnd_onward (s : State) :
    Onward s (execDrillDwellEnd s) := by
  exact onward_fin (Later.of (by simp))

theorem execMemoryError_onward (x : SideId) (loc : MemLoc) (correctable : Bool) (s : State) :
    Onward s (execMemoryError x loc correctable s) := by
  exact onward_fin (Later.of (by simp))

theorem execLossMarkerPush_onward (x : SideId) (s : State) :
    Onward s (execLossMarkerPush x s) := by
  unfold execLossMarkerPush
  apply onward_fin
  repeat' split
  all_goals first
    | exact Later.refl _
    | exact pageWrite_later _ _ _ _ _
    | exact access_later _ _ _ _ _
    | exact Later.of (by simp)

theorem execUnitDisable_onward (r : Requester) (page : Nat) (s : State) :
    Onward s (execUnitDisable r page s) := by
  exact onward_fin (pageWrite_later _ _ _ _ _)

theorem execDisableComplete_onward (page : Nat) (s : State) :
    Onward s (execDisableComplete page s) := by
  exact onward_fin (Later.of (by simp))

theorem execUnitEnable_onward (r : Requester) (page : Nat) (s : State) :
    Onward s (execUnitEnable r page s) := by
  exact onward_fin (pageWrite_later _ _ _ _ _)

theorem execStall_onward (x : SideId) (strand : Nat) (s : State) :
    Onward s (execStall x strand s) := by
  unfold execStall
  apply onward_fin
  repeat' split
  all_goals first
    | exact Later.refl _
    | exact pageWrite_later _ _ _ _ _
    | exact access_later _ _ _ _ _
    | exact Later.of (by simp)

theorem execRearm_onward (r : Requester) (second : Bool) (src : Nat) (s : State) :
    Onward s (execRearm r second src s) := by
  exact onward_fin (pageWrite_later _ _ _ _ _)

theorem execModIntervalEnd_onward (second : Bool) (vec : Nat) (s : State) :
    Onward s (execModIntervalEnd second vec s) := by
  exact onward_fin (Later.of (by simp))

theorem execMsixUnmask_onward (second : Bool) (vec : Nat) (s : State) :
    Onward s (execMsixUnmask second vec s) := by
  unfold execMsixUnmask
  apply onward_fin
  repeat' split
  all_goals first
    | exact Later.refl _
    | exact pageWrite_later _ _ _ _ _
    | exact access_later _ _ _ _ _
    | exact Later.of (by simp)

theorem execHostPortReset_onward (second : Bool) (kind : PortReset) (s : State) :
    Onward s (execHostPortReset second kind s) := by
  unfold execHostPortReset
  apply onward_fin
  repeat' split
  all_goals first
    | exact Later.refl _
    | exact pageWrite_later _ _ _ _ _
    | exact access_later _ _ _ _ _
    | exact Later.of (by simp)

theorem execChainWrite_onward (frame : List Byte) (s : State) :
    Onward s (execChainWrite frame s) := by
  exact onward_fin (chainTake_later _ _ _ _ fun s => access_later _ _ _ _ _)

theorem execChainRead_onward (frame : List Byte) (s : State) :
    Onward s (execChainRead frame s) := by
  exact onward_fin (chainTake_later _ _ _ _ fun s => Later.of (by simp))

theorem execFetch_onward (frame : List Byte) (s : State) :
    Onward s (execFetch frame s) := by
  exact onward_fin (chainTake_later _ _ _ _ fun s => Later.of (by simp))

theorem execSetAddress_onward (frame : List Byte) (eni : Bool) (s : State) :
    Onward s (execSetAddress frame eni s) := by
  exact onward_fin (Later.trans (Later.updC _ _ (Nat.le_refl _)) (chainTake_later _ _ _ _ fun s => Later.of (by simp)))

theorem execClrAddr_onward (r : Requester) (s : State) :
    Onward s (execClrAddr r s) := by
  exact onward_fin (pageWrite_later _ _ _ _ _)

theorem execWinData_onward (r : Requester) (write : Option Word) (s : State) :
    Onward s (execWinData r write s) := by
  unfold execWinData
  apply onward_fin
  repeat' split
  all_goals first
    | exact Later.refl _
    | exact pageWrite_later _ _ _ _ _
    | exact access_later _ _ _ _ _
    | exact Later.of (by simp)

theorem execEthFrameRx_onward (second : Bool) (frame : List Byte) (fcsOk : Bool) (ts : Nat) (s : State) :
    Onward s (execEthFrameRx second frame fcsOk ts s) := by
  exact onward_fin (Later.of (by simp))

theorem execVidMapWrite_onward (r : Requester) (second : Bool) (v : Word) (s : State) :
    Onward s (execVidMapWrite r second v s) := by
  exact onward_fin (pageWrite_later _ _ _ _ _)

theorem execHbootData_onward (r : Requester) (v : Word) (s : State) :
    Onward s (execHbootData r v s) := by
  exact onward_fin (pageWrite_later _ _ _ _ _)

theorem execHbootGo_onward (r : Requester) (s : State) :
    Onward s (execHbootGo r s) := by
  exact onward_fin (pageWrite_later _ _ _ _ _)

theorem execPdRequest_onward (r : Requester) (v : Word) (s : State) :
    Onward s (execPdRequest r v s) := by
  exact onward_fin (pageWrite_later _ _ _ _ _)

theorem execQuiesceDone_onward (s : State) :
    Onward s (execQuiesceDone s) := by
  exact onward_fin (Later.of (by simp))

theorem execQuiesceTimeout_onward (s : State) :
    Onward s (execQuiesceTimeout s) := by
  exact onward_fin (Later.of (by simp))

theorem execPmbAck_onward (status : Nat) (s : State) :
    Onward s (execPmbAck status s) := by
  exact onward_fin (Later.of (by simp))

theorem execPmbTimeout_onward (s : State) :
    Onward s (execPmbTimeout s) := by
  exact onward_fin (Later.of (by simp))

theorem execRetentionScanDone_onward (x : SideId) (lostBanks : Nat) (locketLost : Bool) (corrected : Nat) (s : State) :
    Onward s (execRetentionScanDone x lostBanks locketLost corrected s) := by
  exact onward_fin (Later.of (by simp))

theorem execWake_onward (n : Nat) (s : State) :
    Onward s (execWake n s) := by
  unfold execWake
  apply onward_fin
  repeat' split
  all_goals first
    | exact Later.refl _
    | exact pageWrite_later _ _ _ _ _
    | exact access_later _ _ _ _ _
    | exact Later.of (by simp)

theorem execWakeI2cMatch_onward (addr : Nat) (s : State) :
    Onward s (execWakeI2cMatch addr s) := by
  unfold execWakeI2cMatch
  apply onward_fin
  repeat' split
  all_goals first
    | exact Later.refl _
    | exact pageWrite_later _ _ _ _ _
    | exact access_later _ _ _ _ _
    | exact Later.of (by simp)

theorem execWakeGo_onward (v : Nat) (s : State) :
    Onward s (execWakeGo v s) := by
  unfold execWakeGo
  apply onward_fin
  repeat' split
  all_goals first
    | exact Later.refl _
    | exact pageWrite_later _ _ _ _ _
    | exact access_later _ _ _ _ _
    | exact Later.of (by simp)

theorem execIntClr_onward (v : Nat) (s : State) :
    Onward s (execIntClr v s) := by
  unfold execIntClr
  apply onward_fin
  repeat' split
  all_goals first
    | exact Later.refl _
    | exact pageWrite_later _ _ _ _ _
    | exact access_later _ _ _ _ _
    | exact Later.of (by simp)

theorem execRawCmd_onward (r : Requester) (page : Nat) (v : Word) (s : State) :
    Onward s (execRawCmd r page v s) := by
  exact onward_fin (pageWrite_later _ _ _ _ _)

theorem execPmbAlert_onward (page : Nat) (s : State) :
    Onward s (execPmbAlert page s) := by
  unfold execPmbAlert
  apply onward_fin
  repeat' split
  all_goals first
    | exact Later.refl _
    | exact pageWrite_later _ _ _ _ _
    | exact access_later _ _ _ _ _
    | exact Later.of (by simp)

/-- PORST_RELEASE keeps the queue and the variant. -/
theorem porstRelease_same (straps tamper : Nat) (s : State) :
    (porstRelease s straps tamper).pending = s.pending ∧ (porstRelease s straps tamper).variant = s.variant := by
  unfold porstRelease
  split
  · exact ⟨rfl, rfl⟩
  · simp

theorem execImageVerifyDone_onward (x : SideId) (slotOk : Bool) (s : State) :
    Onward s (execImageVerifyDone x slotOk s) := by
  exact onward_fin (Later.of (by simp))

theorem execWrst_onward (tamper : Nat) (s : State) :
    Onward s (execWrst tamper s) := by
  exact onward_fin (Later.of (by simp))

theorem execWarm_onward (r : Requester) (s : State) :
    Onward s (execWarm r s) := by
  exact onward_fin (pageWrite_later _ _ _ _ _)

theorem execSideReset_onward (r : Requester) (x : SideId) (s : State) :
    Onward s (execSideReset r x s) := by
  exact onward_fin (pageWrite_later _ _ _ _ _)

theorem execX32Switch_onward (s : State) :
    Onward s (execX32Switch s) := by
  unfold execX32Switch
  apply onward_fin
  repeat' split
  all_goals first
    | exact Later.refl _
    | exact pageWrite_later _ _ _ _ _
    | exact access_later _ _ _ _ _
    | exact Later.of (by simp)

theorem execClockLoss_onward (c : ClockId) (s : State) :
    Onward s (execClockLoss c s) := by
  unfold execClockLoss
  apply onward_fin
  repeat' split
  all_goals first
    | exact Later.refl _
    | exact pageWrite_later _ _ _ _ _
    | exact access_later _ _ _ _ _
    | exact Later.of (by simp)

theorem execGpioWrite_onward (r : Requester) (dir : Bool) (v : Word) (s : State) :
    Onward s (execGpioWrite r dir v s) := by
  exact onward_fin (pageWrite_later _ _ _ _ _)

theorem execRef10Valid_onward (s : State) :
    Onward s (execRef10Valid s) := by
  exact onward_fin (ref10Core_later s)

theorem execEthLinkChange_onward (second : Bool) (up : Bool) (speed : Nat) (s : State) :
    Onward s (execEthLinkChange second up speed s) := by
  unfold execEthLinkChange
  apply onward_fin
  repeat' split
  all_goals first
    | exact Later.refl _
    | exact pageWrite_later _ _ _ _ _
    | exact access_later _ _ _ _ _
    | exact Later.of (by simp)

theorem execEthTxComplete_onward (second : Bool) (ts : Nat) (s : State) :
    Onward s (execEthTxComplete second ts s) := by
  exact onward_fin (Later.of (by simp))

theorem execAdcClip_onward (p : RPort) (s : State) :
    Onward s (execAdcClip p s) := by
  exact onward_of (onPort_later _ _ _ fun s => Later.of (by simp))

theorem execRawDone_onward (page : Nat) (nak pecErr : Bool) (data : Nat) (s : State) :
    Onward s (execRawDone page nak pecErr data s) := by
  unfold execRawDone
  apply onward_fin
  repeat' split
  all_goals first
    | exact Later.refl _
    | exact pageWrite_later _ _ _ _ _
    | exact access_later _ _ _ _ _
    | exact Later.of (by simp)

theorem execReplicaDisagree_onward (n : Nat) (holder token expiry : Nat) (s : State) :
    Onward s (execReplicaDisagree n holder token expiry s) := by
  exact onward_fin (Later.of (by simp))

theorem execRailInRange_onward (bank : Nat) (s : State) :
    Onward s (execRailInRange bank s) := by
  exact onward_fin (Later.of (by simp))

/-- Every command but PORST_ASSERT and PORST_RELEASE leads to a state that is not earlier. -/
theorem exec_onward (i : Instr) (s : State) (h : i ≠ .porstAssert) (h2 : ∀ straps tamper, i ≠ .porstRelease straps tamper) :
    Onward s (exec i s) := by
  cases i with
  | registerWrite r off v be => exact execRegisterWrite_onward r off v be s
  | sideRangeWrite r off v be => exact execSideRangeWrite_onward r off v be s
  | pairedWindowWrite r off v be => exact execPairedWindowWrite_onward r off v be s
  | pairedWindowRead r off => exact execPairedWindowRead_onward r off s
  | cntClr r page => exact execCntClr_onward r page s
  | lockWrite r page v => exact execLockWrite_onward r page v s
  | errStickyClear r page v => exact execErrStickyClear_onward r page v s
  | errMaskWrite r page v => exact execErrMaskWrite_onward r page v s
  | inputSequenced src => exact execInputSequenced_onward src s
  | timeInput lt => exact execTimeInput_onward lt s
  | sideTimeInput x => exact execSideTimeInput_onward x s
  | trngWord w => exact execTrngWord_onward w s
  | outputOffer x txn readbackOk => exact execOutputOffer_onward x txn readbackOk s
  | skewTimeout => exact execSkewTimeout_onward s
  | sideCommonsEvent x => exact execSideCommonsEvent_onward x s
  | ltLoRead r => exact execLtLoRead_onward r s
  | lossCfgWrite r off v be => exact execLossCfgWrite_onward r off v be s
  | sourceLost code => exact execSourceLost_onward code s
  | revertHoldoffExpiry => exact execRevertHoldoffExpiry_onward s
  | ppsEdge => exact execPpsEdge_onward s
  | hostTimeWrite r v => exact execHostTimeWrite_onward r v s
  | ptpMeasurement w3 => exact execPtpMeasurement_onward w3 s
  | slewComplete => exact execSlewComplete_onward s
  | acceptStep r => exact execAcceptStep_onward r s
  | acceptSlew r => exact execAcceptSlew_onward r s
  | holdoverExpired => exact execHoldoverExpired_onward s
  | xtalStop => exact execXtalStop_onward s
  | xtalRestart coarse => exact execXtalRestart_onward coarse s
  | timerSlotArm r n v => exact execTimerSlotArm_onward r n v s
  | timerSlotExpiry n => exact execTimerSlotExpiry_onward n s
  | tpoCtrlWrite r n v => exact execTpoCtrlWrite_onward r n v s
  | tpoEdge n => exact execTpoEdge_onward n s
  | loFreqWrite r p v => exact execLoFreqWrite_onward r p v s
  | retuneStart p => exact execRetuneStart_onward p s
  | retuneEnd p => exact execRetuneEnd_onward p s
  | chWrite r p => exact execChWrite_onward r p s
  | chRead r p => exact execChRead_onward r p s
  | launchArrival p c => exact execLaunchArrival_onward p c s
  | carrierFree p c => exact execCarrierFree_onward p c s
  | launchCheckDue p c => exact execLaunchCheckDue_onward p c s
  | lbtListen p c rssi => exact execLbtListen_onward p c rssi s
  | lbtDeferExpiry p c => exact execLbtDeferExpiry_onward p c s
  | feLineEdge n => exact execFeLineEdge_onward n s
  | blankingStart p c => exact execBlankingStart_onward p c s
  | burstStart p c => exact execBurstStart_onward p c s
  | burstEnd p c => exact execBurstEnd_onward p c s
  | blankingEnd p c => exact execBlankingEnd_onward p c s
  | ackBurstStart p c => exact execAckBurstStart_onward p c s
  | ackBurstEnd p c => exact execAckBurstEnd_onward p c s
  | feCfgApply n => exact execFeCfgApply_onward n s
  | startupCalDone p converged => exact execStartupCalDone_onward p converged s
  | calNotice p => exact execCalNotice_onward p s
  | gapNow r p => exact execGapNow_onward r p s
  | calGapStart p => exact execCalGapStart_onward p s
  | calGapEnd p cancOk => exact execCalGapEnd_onward p cancOk s
  | dutyBucketBoundary => exact execDutyBucketBoundary_onward s
  | dwellSubbucketBoundary p => exact execDwellSubbucketBoundary_onward p s
  | portCfgWrite r p v => exact execPortCfgWrite_onward r p v s
  | detection p ch mode freq quality power => exact execDetection_onward p ch mode freq quality power s
  | mergeWindowClose p => exact execMergeWindowClose_onward p s
  | sfdFound p lane lt => exact execSfdFound_onward p lane lt s
  | sfdTimeout p lane => exact execSfdTimeout_onward p lane s
  | phrReceived p lane phr => exact execPhrReceived_onward p lane phr s
  | syncLost p lane => exact execSyncLost_onward p lane s
  | fcsDecision p lane rx => exact execFcsDecision_onward p lane rx s
  | chLanesWrite r p v => exact execChLanesWrite_onward r p v s
  | portLimitWrite r p v => exact execPortLimitWrite_onward r p v s
  | pendingListSet => exact execPendingListSet_onward s
  | pendingListClear => exact execPendingListClear_onward s
  | pendingListClearAll => exact execPendingListClearAll_onward s
  | pendingListQuery r v => exact execPendingListQuery_onward r v s
  | pendingUpdateCompletion x => exact execPendingUpdateCompletion_onward x s
  | rxFrameConsume x => exact execRxFrameConsume_onward x s
  | ackWaitExpiry x => exact execAckWaitExpiry_onward x s
  | scheduledWindow x => exact execScheduledWindow_onward x s
  | parkedFrameExpiry x => exact execParkedFrameExpiry_onward x s
  | pendingSetRetry x => exact execPendingSetRetry_onward x s
  | winRead r => exact execWinRead_onward r s
  | winWrite r => exact execWinWrite_onward r s
  | winDelete r => exact execWinDelete_onward r s
  | relayDecision x => exact execRelayDecision_onward x s
  | reassemblyTimeout x => exact execReassemblyTimeout_onward x s
  | skimSweep x => exact execSkimSweep_onward x s
  | ctxRead r => exact execCtxRead_onward r s
  | ctxWrite r => exact execCtxWrite_onward r s
  | sanderVisit x => exact execSanderVisit_onward x s
  | restart r => exact execRestart_onward r s
  | sanderEnWrite r v => exact execSanderEnWrite_onward r v s
  | hashSeedWrite r v => exact execHashSeedWrite_onward r v s
  | ntRead x strand => exact execNtRead_onward x strand s
  | ntLock x strand => exact execNtLock_onward x strand s
  | ntWrite x strand => exact execNtWrite_onward x strand s
  | ntDelete x strand => exact execNtDelete_onward x strand s
  | ntScan x strand => exact execNtScan_onward x strand s
  | skimRead x strand => exact execSkimRead_onward x strand s
  | pcRead x strand => exact execPcRead_onward x strand s
  | pcInsert x strand => exact execPcInsert_onward x strand s
  | pcDelete x strand => exact execPcDelete_onward x strand s
  | camMovesDone x => exact execCamMovesDone_onward x s
  | lockLong x slot => exact execLockLong_onward x slot s
  | enrol r => exact execEnrol_onward r s
  | remaskPass x => exact execRemaskPass_onward x s
  | derivationComplete x => exact execDerivationComplete_onward x s
  | tenMapWrite r v => exact execTenMapWrite_onward r v s
  | keyInfo x strand => exact execKeyInfo_onward x strand s
  | keyInvalidate x strand => exact execKeyInvalidate_onward x strand s
  | tenInvalidate x strand => exact execTenInvalidate_onward x strand s
  | nodeInvalidate x strand => exact execNodeInvalidate_onward x strand s
  | cacheFlush x strand => exact execCacheFlush_onward x strand s
  | keyExport x strand => exact execKeyExport_onward x strand s
  | keyUpdate x strand => exact execKeyUpdate_onward x strand s
  | tamperTrip source => exact execTamperTrip_onward source s
  | sideTamper x => exact execSideTamper_onward x s
  | loupeChallenge r => exact execLoupeChallenge_onward r s
  | loupeOpen r => exact execLoupeOpen_onward r s
  | loupeClose r => exact execLoupeClose_onward r s
  | loupeLockoutEnd => exact execLoupeLockoutEnd_onward s
  | sideLoupeOpen x => exact execSideLoupeOpen_onward x s
  | sideLoupeClose x => exact execSideLoupeClose_onward x s
  | hostFrameItem x strand => exact execHostFrameItem_onward x strand s
  | ethFrameConsume x => exact execEthFrameConsume_onward x s
  | releaseDecision x carrier => exact execReleaseDecision_onward x carrier s
  | hostPortRelease x port => exact execHostPortRelease_onward x port s
  | launchCompletion x => exact execLaunchCompletion_onward x s
  | gateSwap r => exact execGateSwap_onward r s
  | gateAbort r => exact execGateAbort_onward r s
  | gateSwapApply x carrier => exact execGateSwapApply_onward x carrier s
  | gateEnWrite r v => exact execGateEnWrite_onward r v s
  | fwWrite x strand => exact execFwWrite_onward x strand s
  | fwCommit x strand => exact execFwCommit_onward x strand s
  | fwUpdate x strand => exact execFwUpdate_onward x strand s
  | fwuSwap => exact execFwuSwap_onward s
  | fwConfirm x strand => exact execFwConfirm_onward x strand s
  | trialExpired x => exact execTrialExpired_onward x s
  | slotVerifyDone x => exact execSlotVerifyDone_onward x s
  | imgWrite x strand => exact execImgWrite_onward x strand s
  | imgCommit x strand => exact execImgCommit_onward x strand s
  | imgErase x strand => exact execImgErase_onward x strand s
  | imgRead x strand => exact execImgRead_onward x strand s
  | ibeStart x strand => exact execIbeStart_onward x strand s
  | ibeStop x strand => exact execIbeStop_onward x strand s
  | ibeLoadDone => exact execIbeLoadDone_onward s
  | symNext => exact execSymNext_onward s
  | reportAdd v => exact execReportAdd_onward v s
  | ibeStopLt => exact execIbeStopLt_onward s
  | strandPush r v => exact execStrandPush_onward r v s
  | cellWrite r off data => exact execCellWrite_onward r off data s
  | pop r => exact execPop_onward r s
  | mark r => exact execMark_onward r s
  | rewind r => exact execRewind_onward r s
  | release r => exact execRelease_onward r s
  | dropRest r => exact execDropRest_onward r s
  | flush r => exact execFlush_onward r s
  | strandEnable r v => exact execStrandEnable_onward r v s
  | strandPopUnblock x strand => exact execStrandPopUnblock_onward x strand s
  | strandPushResume x strand => exact execStrandPushResume_onward x strand s
  | create x core arg0 arg1 => exact execCreate_onward x core arg0 arg1 s
  | resume x core arg0 arg1 => exact execResume_onward x core arg0 arg1 s
  | wait x core arg0 arg1 => exact execWait_onward x core arg0 arg1 s
  | trywait x core arg0 arg1 => exact execTrywait_onward x core arg0 arg1 s
  | signal x core arg0 arg1 => exact execSignal_onward x core arg0 arg1 s
  | cancel x core arg0 arg1 => exact execCancel_onward x core arg0 arg1 s
  | delete x core arg0 arg1 => exact execDelete_onward x core arg0 arg1 s
  | yield x core => exact execYield_onward x core s
  | exit x core => exact execExit_onward x core s
  | setprio x core arg0 arg1 => exact execSetprio_onward x core arg0 arg1 s
  | objInit x core arg0 arg1 => exact execObjInit_onward x core arg0 arg1 s
  | dnext x core => exact execDnext_onward x core s
  | coreEnWrite r v => exact execCoreEnWrite_onward r v s
  | waitTimeout x => exact execWaitTimeout_onward x s
  | tsliceExpiry x core => exact execTsliceExpiry_onward x core s
  | semAcq r n => exact execSemAcq_onward r n s
  | semRel r n => exact execSemRel_onward r n s
  | semForce r v => exact execSemForce_onward r v s
  | sready x => exact execSready_onward x s
  | grantWaitExpiry => exact execGrantWaitExpiry_onward s
  | renew v => exact execRenew_onward v s
  | leaseExpiry => exact execLeaseExpiry_onward s
  | claspSwap r => exact execClaspSwap_onward r s
  | swapMarker => exact execSwapMarker_onward s
  | selfCheckReport x res => exact execSelfCheckReport_onward x res s
  | selfCheckTimeout x => exact execSelfCheckTimeout_onward x s
  | outX r x => exact execOutX_onward r x s
  | inX r x => exact execInX_onward r x s
  | recover r => exact execRecover_onward r s
  | pathClr r => exact execPathClr_onward r s
  | transferMarker => exact execTransferMarker_onward s
  | refillCopyDone => exact execRefillCopyDone_onward s
  | join => exact execJoin_onward s
  | refillRetry => exact execRefillRetry_onward s
  | drillStart => exact execDrillStart_onward s
  | drillDwellEnd => exact execDrillDwellEnd_onward s
  | memoryError x loc correctable => exact execMemoryError_onward x loc correctable s
  | lossMarkerPush x => exact execLossMarkerPush_onward x s
  | unitDisable r page => exact execUnitDisable_onward r page s
  | disableComplete page => exact execDisableComplete_onward page s
  | unitEnable r page => exact execUnitEnable_onward r page s
  | stall x strand => exact execStall_onward x strand s
  | rearm r second src => exact execRearm_onward r second src s
  | modIntervalEnd second vec => exact execModIntervalEnd_onward second vec s
  | msixUnmask second vec => exact execMsixUnmask_onward second vec s
  | hostPortReset second kind => exact execHostPortReset_onward second kind s
  | chainWrite frame => exact execChainWrite_onward frame s
  | chainRead frame => exact execChainRead_onward frame s
  | fetch frame => exact execFetch_onward frame s
  | setAddress frame eni => exact execSetAddress_onward frame eni s
  | clrAddr r => exact execClrAddr_onward r s
  | winData r write => exact execWinData_onward r write s
  | ethFrameRx second frame fcsOk ts => exact execEthFrameRx_onward second frame fcsOk ts s
  | vidMapWrite r second v => exact execVidMapWrite_onward r second v s
  | hbootData r v => exact execHbootData_onward r v s
  | hbootGo r => exact execHbootGo_onward r s
  | pdRequest r v => exact execPdRequest_onward r v s
  | quiesceDone => exact execQuiesceDone_onward s
  | quiesceTimeout => exact execQuiesceTimeout_onward s
  | pmbAck status => exact execPmbAck_onward status s
  | pmbTimeout => exact execPmbTimeout_onward s
  | retentionScanDone x lostBanks locketLost corrected => exact execRetentionScanDone_onward x lostBanks locketLost corrected s
  | wake n => exact execWake_onward n s
  | wakeI2cMatch addr => exact execWakeI2cMatch_onward addr s
  | wakeGo v => exact execWakeGo_onward v s
  | intClr v => exact execIntClr_onward v s
  | rawCmd r page v => exact execRawCmd_onward r page v s
  | pmbAlert page => exact execPmbAlert_onward page s
  | porstAssert => exact absurd rfl h
  | porstRelease straps tamper => exact absurd rfl (h2 straps tamper)
  | imageVerifyDone x slotOk => exact execImageVerifyDone_onward x slotOk s
  | wrst tamper => exact execWrst_onward tamper s
  | warm r => exact execWarm_onward r s
  | sideReset r x => exact execSideReset_onward r x s
  | x32Switch => exact execX32Switch_onward s
  | clockLoss c => exact execClockLoss_onward c s
  | gpioWrite r dir v => exact execGpioWrite_onward r dir v s
  | ref10Valid => exact execRef10Valid_onward s
  | ethLinkChange second up speed => exact execEthLinkChange_onward second up speed s
  | ethTxComplete second ts => exact execEthTxComplete_onward second ts s
  | adcClip p => exact execAdcClip_onward p s
  | rawDone page nak pecErr data => exact execRawDone_onward page nak pecErr data s
  | replicaDisagree n holder token expiry => exact execReplicaDisagree_onward n holder token expiry s
  | railInRange bank => exact execRailInRange_onward bank s

end Sys2Proof.Machine
end

