-- ==== Sys2Proof/Laws/Pairs.lean ====
section
/-! SUPPORT. What Bezel passes next: nothing before the twin of a transaction has arrived, else the pair compared (R24, R25). -/

namespace Sys2Proof.Machine

open Sys2Proof

/-- While both sides are compared no side is alone. -/
theorem soloSide_compared (u : State) (hv : u.variant.full = true) (hc : u.c.bezel.compares = true) : soloSide u = none := by
  have h : u.c.bezel.stA = .compared ∧ u.c.bezel.stB = .compared := by simpa [BezelState.compares] using hc
  unfold soloSide
  simp [hv, h]

/-- A member offered after the last JOIN is no remainder of a side's time alone. -/
theorem head_young (j l : Nat) (t : Txn) (h : j < t.point) :
    (Option.filter (fun e : Nat × Txn => decide (e.2.point ≤ j)) (some (l, t))) = none := by
  have : ¬ t.point ≤ j := by omega
  simp [Option.filter, this]

/-- A transaction of side A whose twin has not arrived is held. -/
theorem passNext_first_a (u : State) (h : SideId) (l : Nat) (t : Txn) (rb : Bool) (hv : u.variant.full = true)
    (hc : u.c.bezel.compares = true) (hh : u.c.bezel.held = false) (hk : u.c.clasp.holder = some h)
    (ha : u.c.bezel.heldA = [(l, t)]) (hb : u.c.bezel.heldB = []) (hj : u.c.bezel.joinPoint < t.point) :
    passNext u rb = none := by
  unfold passNext
  simp only [hh, hk, soloSide_compared u hv hc, hc, ha, hb, List.head?_cons, List.head?_nil, head_young _ _ _ hj,
    Bool.not_true, Bool.false_eq_true, if_false, Option.filter_none]
  cases h <;> simp [firstPair, takeClass]

/-- A transaction of side B whose twin has not arrived is held. -/
theorem passNext_first_b (u : State) (h : SideId) (l : Nat) (t : Txn) (rb : Bool) (hv : u.variant.full = true)
    (hc : u.c.bezel.compares = true) (hh : u.c.bezel.held = false) (hk : u.c.clasp.holder = some h)
    (ha : u.c.bezel.heldA = []) (hb : u.c.bezel.heldB = [(l, t)]) (hj : u.c.bezel.joinPoint < t.point) :
    passNext u rb = none := by
  unfold passNext
  simp only [hh, hk, soloSide_compared u hv hc, hc, ha, hb, List.head?_cons, List.head?_nil, head_young _ _ _ hj,
    Bool.not_true, Bool.false_eq_true, if_false, Option.filter_none]
  cases h <;> simp [firstPair, takeClass]

/-- The pair of the only two transactions of one class is compared. -/
theorem passNext_pair (u : State) (h : SideId) (la lb : Nat) (ta tb : Txn) (rb : Bool) (hv : u.variant.full = true)
    (hc : u.c.bezel.compares = true) (hh : u.c.bezel.held = false) (hk : u.c.clasp.holder = some h)
    (ha : u.c.bezel.heldA = [(la, ta)]) (hb : u.c.bezel.heldB = [(lb, tb)]) (hja : u.c.bezel.joinPoint < ta.point)
    (hjb : u.c.bezel.joinPoint < tb.point) (hcl : ta.body.cls = tb.body.cls) :
    passNext u rb = some (comparePair u h (la, ta) (lb, tb) rb) := by
  unfold passNext
  simp only [hh, hk, soloSide_compared u hv hc, hc, ha, hb, List.head?_cons, head_young _ _ _ hja, head_young _ _ _ hjb,
    Bool.not_true, Bool.false_eq_true, if_false]
  cases h <;> simp [firstPair, takeClass, hcl]

end Sys2Proof.Machine
end

