-- ==== Sys2Proof/WellFormed.lean ====
section
/-! DEFINITION. Well-formed commands: the operands lie within the widths and numbers that the spec gives them. No meaning
depends on it: exec is total. It says which commands the world outside can send. -/

namespace Sys2Proof

/-- A byte-enable mask of a 32-bit register (R468). -/
def beWf (be : Nat) : Bool := decide (be < 16)

/-- An aligned address of a requester: BAR0 is 1 MiB; a core's pages end at 0x84_0000 (R468, R474, R476). -/
def offWf (r : Requester) (off : Nat) : Bool :=
  decide (off % 4 = 0) && (match r with
    | .core _ => decide (off < 0x840000)
    | _ => decide (off < 0x100000))

/-- A page number of the directory: commons pages 0 to 63, side pages from 64 (R474). -/
def pageWf (page : Nat) : Bool := decide (page < 96)

/-- A page index as BAR0 numbers them: side B's pages are 96 to 127 (R474, R475). -/
def pageIdxWf (page : Nat) : Bool := decide (page < 128)

/-- A strand (chapter 12). -/
def strandWf (n : Nat) : Bool := decide (n < 64)

/-- A core of a side (chapter 13). -/
def coreWf (n : Nat) : Bool := decide (n < 8)

/-- A word argument. -/
def wordWf (n : Nat) : Bool := decide (n < 2 ^ 32)

/-- An LT (R38). -/
def ltWf (n : Nat) : Bool := decide (n < 2 ^ 64)

/-- A carrier of a port (R90). -/
def carrierWf (n : Nat) : Bool := decide (n < 4)

/-- A Trowel carrier, by port number (R353). -/
def trowelCarrierWf (n : Nat) : Bool := decide (n < 12)

/-- A lane, by its fixed number (R124). -/
def laneWf (n : Nat) : Bool := decide (n < 384)

/-- A frame of the management chain has its first octet; one with the wrong length for its OP is ignored (R500). -/
def chainWf (frame : List Byte) : Bool := decide (0 < frame.length)

/-- A core's transaction towards the commons: pages 0 to 63. -/
def CoreTxn.wf : CoreTxn → Bool
  | .write page off _ be => decide (page < 64) && decide (off < 4096) && decide (off % 4 = 0) && beWf be
  | .read page off => decide (page < 64) && decide (off < 4096) && decide (off % 4 = 0)
  | .pinWrite off _ => decide (off < 4096) && decide (off % 4 = 0)

/-- A place of a memory error lies in its memory. -/
def MemLoc.wf : MemLoc → Bool
  | .cell n => decide (n < 960)
  | .nodeEntry n => decide (n < 262144)
  | .skimEntry n => decide (n < 131072)
  | .keyEntry n => decide (n < 16384)
  | .poolFrame _ => true
  | .other bank => decide (bank < 24)
  | .rxBuffer n => decide (n < 4096)

/-- The operands of a command lie within their widths. -/
def Instr.wf : Instr → Bool
  | .registerWrite r off _ be | .sideRangeWrite r off _ be | .pairedWindowWrite r off _ be => offWf r off && beWf be
  | .pairedWindowRead r off => offWf r off
  | .cntClr _ page | .lockWrite _ page _ | .errStickyClear _ page _ | .errMaskWrite _ page _ | .unitDisable _ page
  | .unitEnable _ page | .rawCmd _ page _ => pageWf page
  | .disableComplete page | .pmbAlert page => pageIdxWf page
  | .lossCfgWrite _ off _ be => decide (off < 4096) && decide (off % 4 = 0) && beWf be
  | .timeInput lt => ltWf lt
  | .outputOffer _ txn _ => txn.all CoreTxn.wf
  | .sourceLost code => decide (1 ≤ code ∧ code ≤ 5)
  | .timerSlotArm _ n _ | .timerSlotExpiry n => decide (n < 32)
  | .tpoCtrlWrite _ n _ | .tpoEdge n => decide (n < 4)
  | .xtalRestart coarse => ltWf coarse
  | .launchArrival _ c | .carrierFree _ c | .launchCheckDue _ c | .lbtDeferExpiry _ c | .blankingStart _ c | .burstStart _ c
  | .burstEnd _ c | .blankingEnd _ c | .ackBurstStart _ c | .ackBurstEnd _ c => carrierWf c
  | .lbtListen _ c rssi => carrierWf c && decide (rssi < 512)
  | .feLineEdge n | .feCfgApply n => decide (n < 24)
  | .detection _ ch mode _ quality power =>
    decide (ch < 256) && decide (mode < 32) && decide (quality < 256) && decide (power < 512)
  | .sfdFound _ lane lt => laneWf lane && ltWf lt
  | .sfdTimeout _ lane | .syncLost _ lane => laneWf lane
  | .phrReceived _ lane h => laneWf lane && decide (h.len < 2048) && decide (h.phyOpt < 256)
  | .fcsDecision _ lane e => laneWf lane && decide (e.psdu.length < 2048) && decide (e.rssi < 512) && decide (e.lqi < 256)
  | .ntRead _ n | .ntLock _ n | .ntWrite _ n | .ntDelete _ n | .ntScan _ n | .skimRead _ n | .pcRead _ n | .pcInsert _ n
  | .pcDelete _ n | .keyInfo _ n | .keyInvalidate _ n | .tenInvalidate _ n | .nodeInvalidate _ n | .cacheFlush _ n
  | .keyExport _ n | .keyUpdate _ n | .hostFrameItem _ n | .fwWrite _ n | .fwCommit _ n | .fwUpdate _ n | .fwConfirm _ n
  | .imgWrite _ n | .imgCommit _ n | .imgErase _ n | .imgRead _ n | .ibeStart _ n | .ibeStop _ n | .strandPopUnblock _ n
  | .strandPushResume _ n | .stall _ n => strandWf n
  | .lockLong _ slot => decide (slot < 64)
  | .tamperTrip source => decide (source < 7)
  | .releaseDecision _ carrier | .gateSwapApply _ carrier => trowelCarrierWf carrier
  | .hostPortRelease _ port => decide (12 ≤ port ∧ port < 16)
  | .cellWrite _ off data => decide (off < 2 ^ 26) && decide (data.length ≤ 4096)
  | .create _ c x y | .resume _ c x y | .wait _ c x y | .trywait _ c x y | .signal _ c x y | .cancel _ c x y
  | .delete _ c x y | .setprio _ c x y | .objInit _ c x y => coreWf c && wordWf x && wordWf y
  | .yield _ c | .exit _ c | .dnext _ c | .tsliceExpiry _ c => coreWf c
  | .semAcq _ n | .semRel _ n => decide (n < 64)
  | .memoryError _ loc _ => loc.wf
  | .rearm _ _ src => decide (src < 256)
  | .modIntervalEnd _ vec => decide (vec < 64)
  | .msixUnmask _ vec => decide (vec ≤ 64)
  | .chainWrite frame | .chainRead frame | .fetch frame | .setAddress frame _ => chainWf frame
  | .ethFrameRx _ frame _ ts => decide (frame.length ≤ 9622) && ltWf ts
  | .ethTxComplete _ ts => ltWf ts
  | .ethLinkChange _ _ speed => decide (speed < 4)
  | .pmbAck status => decide (status < 65536)
  | .retentionScanDone _ lostBanks _ _ => decide (lostBanks < 2 ^ 24)
  | .wake n => decide (n < 8)
  | .wakeI2cMatch addr => decide (addr < 128)
  | .wakeGo v | .intClr v => decide (v < 256)
  | .porstRelease straps tamper => decide (straps < 64) && decide (tamper < 128)
  | .wrst tamper => decide (tamper < 128)
  | .rawDone page _ _ data => pageIdxWf page && wordWf data
  | .replicaDisagree n holder token expiry =>
    decide (n < 3) && decide (holder < 3) && decide (token < 65536) && ltWf expiry
  | .railInRange bank => decide (bank < 8)
  | .inputSequenced _ | .sideTimeInput _ | .trngWord _ | .skewTimeout | .sideCommonsEvent _ | .ltLoRead _ | .revertHoldoffExpiry
  | .ppsEdge | .hostTimeWrite _ _ | .ptpMeasurement _ | .slewComplete | .acceptStep _ | .acceptSlew _ | .holdoverExpired
  | .xtalStop | .loFreqWrite _ _ _ | .retuneStart _ | .retuneEnd _ | .chWrite _ _ | .chRead _ _ | .startupCalDone _ _
  | .calNotice _ | .gapNow _ _ | .calGapStart _ | .calGapEnd _ _ | .dutyBucketBoundary | .dwellSubbucketBoundary _
  | .portCfgWrite _ _ _ | .mergeWindowClose _ | .chLanesWrite _ _ _ | .portLimitWrite _ _ _ | .pendingListSet
  | .pendingListClear | .pendingListClearAll | .pendingListQuery _ _ | .pendingUpdateCompletion _ | .rxFrameConsume _
  | .ackWaitExpiry _ | .scheduledWindow _ | .parkedFrameExpiry _ | .pendingSetRetry _ | .winRead _ | .winWrite _
  | .winDelete _ | .relayDecision _ | .reassemblyTimeout _ | .skimSweep _ | .ctxRead _ | .ctxWrite _ | .sanderVisit _
  | .restart _ | .sanderEnWrite _ _ | .hashSeedWrite _ _ | .camMovesDone _ | .enrol _ | .remaskPass _
  | .derivationComplete _ | .tenMapWrite _ _ | .sideTamper _ | .loupeChallenge _ | .loupeOpen _ | .loupeClose _
  | .loupeLockoutEnd | .sideLoupeOpen _ | .sideLoupeClose _ | .ethFrameConsume _ | .launchCompletion _ | .gateSwap _
  | .gateAbort _ | .gateEnWrite _ _ | .fwuSwap | .trialExpired _ | .slotVerifyDone _ | .ibeLoadDone | .symNext
  | .reportAdd _ | .ibeStopLt | .strandPush _ _ | .pop _ | .mark _ | .rewind _ | .release _ | .dropRest _ | .flush _
  | .strandEnable _ _ | .coreEnWrite _ _ | .waitTimeout _ | .semForce _ _ | .sready _ | .grantWaitExpiry | .renew _
  | .leaseExpiry | .claspSwap _ | .swapMarker | .selfCheckReport _ _ | .selfCheckTimeout _ | .outX _ _ | .inX _ _
  | .recover _ | .pathClr _ | .transferMarker | .refillCopyDone | .join | .refillRetry | .drillStart | .drillDwellEnd
  | .lossMarkerPush _ | .hostPortReset _ _ | .clrAddr _ | .winData _ _ | .vidMapWrite _ _ _ | .hbootData _ _ | .hbootGo _
  | .pdRequest _ _ | .quiesceDone | .quiesceTimeout | .pmbTimeout | .porstAssert | .imageVerifyDone _ _ | .warm _
  | .sideReset _ _ | .x32Switch | .clockLoss _ | .gpioWrite _ _ _ | .ref10Valid | .adcClip _ => true

end Sys2Proof
end

