-- ==== Sys2Proof/Laws/PerInstr.lean ====
section
/-! SUPPORT. What a well-formed command's operands satisfy, constructor by constructor. -/

namespace Sys2Proof.Laws.WellFormed

open Sys2Proof

/-- What well-formedness says of the operands of a command, in numbers. -/
def operands : Instr → Prop
  | .registerWrite r off _ be => offWf r off = true ∧ be < 16
  | .sideRangeWrite r off _ be => offWf r off = true ∧ be < 16
  | .pairedWindowWrite r off _ be => offWf r off = true ∧ be < 16
  | .pairedWindowRead r off => offWf r off = true
  | .cntClr _ page => page < 96
  | .lockWrite _ page _ => page < 96
  | .errStickyClear _ page _ => page < 96
  | .errMaskWrite _ page _ => page < 96
  | .inputSequenced _ => True
  | .timeInput lt => lt < 2 ^ 64
  | .sideTimeInput _ => True
  | .trngWord _ => True
  | .outputOffer _ txn _ => txn.all CoreTxn.wf = true
  | .skewTimeout => True
  | .sideCommonsEvent _ => True
  | .ltLoRead _ => True
  | .lossCfgWrite _ off _ be => off < 4096 ∧ off % 4 = 0 ∧ be < 16
  | .sourceLost code => 1 ≤ code ∧ code ≤ 5
  | .revertHoldoffExpiry => True
  | .ppsEdge => True
  | .hostTimeWrite _ _ => True
  | .ptpMeasurement _ => True
  | .slewComplete => True
  | .acceptStep _ => True
  | .acceptSlew _ => True
  | .holdoverExpired => True
  | .xtalStop => True
  | .xtalRestart coarse => coarse < 2 ^ 64
  | .timerSlotArm _ n _ => n < 32
  | .timerSlotExpiry n => n < 32
  | .tpoCtrlWrite _ n _ => n < 4
  | .tpoEdge n => n < 4
  | .loFreqWrite _ _ _ => True
  | .retuneStart _ => True
  | .retuneEnd _ => True
  | .chWrite _ _ => True
  | .chRead _ _ => True
  | .launchArrival _ c => c < 4
  | .carrierFree _ c => c < 4
  | .launchCheckDue _ c => c < 4
  | .lbtListen _ c rssi => c < 4 ∧ rssi < 512
  | .lbtDeferExpiry _ c => c < 4
  | .feLineEdge n => n < 24
  | .blankingStart _ c => c < 4
  | .burstStart _ c => c < 4
  | .burstEnd _ c => c < 4
  | .blankingEnd _ c => c < 4
  | .ackBurstStart _ c => c < 4
  | .ackBurstEnd _ c => c < 4
  | .feCfgApply n => n < 24
  | .startupCalDone _ _ => True
  | .calNotice _ => True
  | .gapNow _ _ => True
  | .calGapStart _ => True
  | .calGapEnd _ _ => True
  | .dutyBucketBoundary => True
  | .dwellSubbucketBoundary _ => True
  | .portCfgWrite _ _ _ => True
  | .detection _ ch mode _ quality power => ch < 256 ∧ mode < 32 ∧ quality < 256 ∧ power < 512
  | .mergeWindowClose _ => True
  | .sfdFound _ lane lt => lane < 384 ∧ lt < 2 ^ 64
  | .sfdTimeout _ lane => lane < 384
  | .phrReceived _ lane h => lane < 384 ∧ h.len < 2048 ∧ h.phyOpt < 256
  | .syncLost _ lane => lane < 384
  | .fcsDecision _ lane e => lane < 384 ∧ e.psdu.length < 2048 ∧ e.rssi < 512 ∧ e.lqi < 256
  | .chLanesWrite _ _ _ => True
  | .portLimitWrite _ _ _ => True
  | .pendingListSet => True
  | .pendingListClear => True
  | .pendingListClearAll => True
  | .pendingListQuery _ _ => True
  | .pendingUpdateCompletion _ => True
  | .rxFrameConsume _ => True
  | .ackWaitExpiry _ => True
  | .scheduledWindow _ => True
  | .parkedFrameExpiry _ => True
  | .pendingSetRetry _ => True
  | .winRead _ => True
  | .winWrite _ => True
  | .winDelete _ => True
  | .relayDecision _ => True
  | .reassemblyTimeout _ => True
  | .skimSweep _ => True
  | .ctxRead _ => True
  | .ctxWrite _ => True
  | .sanderVisit _ => True
  | .restart _ => True
  | .sanderEnWrite _ _ => True
  | .hashSeedWrite _ _ => True
  | .ntRead _ n => n < 64
  | .ntLock _ n => n < 64
  | .ntWrite _ n => n < 64
  | .ntDelete _ n => n < 64
  | .ntScan _ n => n < 64
  | .skimRead _ n => n < 64
  | .pcRead _ n => n < 64
  | .pcInsert _ n => n < 64
  | .pcDelete _ n => n < 64
  | .camMovesDone _ => True
  | .lockLong _ slot => slot < 64
  | .enrol _ => True
  | .remaskPass _ => True
  | .derivationComplete _ => True
  | .tenMapWrite _ _ => True
  | .keyInfo _ n => n < 64
  | .keyInvalidate _ n => n < 64
  | .tenInvalidate _ n => n < 64
  | .nodeInvalidate _ n => n < 64
  | .cacheFlush _ n => n < 64
  | .keyExport _ n => n < 64
  | .keyUpdate _ n => n < 64
  | .tamperTrip source => source < 7
  | .sideTamper _ => True
  | .loupeChallenge _ => True
  | .loupeOpen _ => True
  | .loupeClose _ => True
  | .loupeLockoutEnd => True
  | .sideLoupeOpen _ => True
  | .sideLoupeClose _ => True
  | .hostFrameItem _ n => n < 64
  | .ethFrameConsume _ => True
  | .releaseDecision _ carrier => carrier < 12
  | .hostPortRelease _ port => 12 ≤ port ∧ port < 16
  | .launchCompletion _ => True
  | .gateSwap _ => True
  | .gateAbort _ => True
  | .gateSwapApply _ carrier => carrier < 12
  | .gateEnWrite _ _ => True
  | .fwWrite _ n => n < 64
  | .fwCommit _ n => n < 64
  | .fwUpdate _ n => n < 64
  | .fwuSwap => True
  | .fwConfirm _ n => n < 64
  | .trialExpired _ => True
  | .slotVerifyDone _ => True
  | .imgWrite _ n => n < 64
  | .imgCommit _ n => n < 64
  | .imgErase _ n => n < 64
  | .imgRead _ n => n < 64
  | .ibeStart _ n => n < 64
  | .ibeStop _ n => n < 64
  | .ibeLoadDone => True
  | .symNext => True
  | .reportAdd _ => True
  | .ibeStopLt => True
  | .strandPush _ _ => True
  | .cellWrite _ off data => off < 2 ^ 26 ∧ data.length ≤ 4096
  | .pop _ => True
  | .mark _ => True
  | .rewind _ => True
  | .release _ => True
  | .dropRest _ => True
  | .flush _ => True
  | .strandEnable _ _ => True
  | .strandPopUnblock _ n => n < 64
  | .strandPushResume _ n => n < 64
  | .create _ c x y => c < 8 ∧ x < 2 ^ 32 ∧ y < 2 ^ 32
  | .resume _ c x y => c < 8 ∧ x < 2 ^ 32 ∧ y < 2 ^ 32
  | .wait _ c x y => c < 8 ∧ x < 2 ^ 32 ∧ y < 2 ^ 32
  | .trywait _ c x y => c < 8 ∧ x < 2 ^ 32 ∧ y < 2 ^ 32
  | .signal _ c x y => c < 8 ∧ x < 2 ^ 32 ∧ y < 2 ^ 32
  | .cancel _ c x y => c < 8 ∧ x < 2 ^ 32 ∧ y < 2 ^ 32
  | .delete _ c x y => c < 8 ∧ x < 2 ^ 32 ∧ y < 2 ^ 32
  | .yield _ c => c < 8
  | .exit _ c => c < 8
  | .setprio _ c x y => c < 8 ∧ x < 2 ^ 32 ∧ y < 2 ^ 32
  | .objInit _ c x y => c < 8 ∧ x < 2 ^ 32 ∧ y < 2 ^ 32
  | .dnext _ c => c < 8
  | .coreEnWrite _ _ => True
  | .waitTimeout _ => True
  | .tsliceExpiry _ c => c < 8
  | .semAcq _ n => n < 64
  | .semRel _ n => n < 64
  | .semForce _ _ => True
  | .sready _ => True
  | .grantWaitExpiry => True
  | .renew _ => True
  | .leaseExpiry => True
  | .claspSwap _ => True
  | .swapMarker => True
  | .selfCheckReport _ _ => True
  | .selfCheckTimeout _ => True
  | .outX _ _ => True
  | .inX _ _ => True
  | .recover _ => True
  | .pathClr _ => True
  | .transferMarker => True
  | .refillCopyDone => True
  | .join => True
  | .refillRetry => True
  | .drillStart => True
  | .drillDwellEnd => True
  | .memoryError _ loc _ => loc.wf = true
  | .lossMarkerPush _ => True
  | .unitDisable _ page => page < 96
  | .disableComplete page => page < 128
  | .unitEnable _ page => page < 96
  | .stall _ n => n < 64
  | .rearm _ _ src => src < 256
  | .modIntervalEnd _ vec => vec < 64
  | .msixUnmask _ vec => vec ≤ 64
  | .hostPortReset _ _ => True
  | .chainWrite frame => 0 < frame.length
  | .chainRead frame => 0 < frame.length
  | .fetch frame => 0 < frame.length
  | .setAddress frame _ => 0 < frame.length
  | .clrAddr _ => True
  | .winData _ _ => True
  | .ethFrameRx _ frame _ ts => frame.length ≤ 9622 ∧ ts < 2 ^ 64
  | .vidMapWrite _ _ _ => True
  | .hbootData _ _ => True
  | .hbootGo _ => True
  | .pdRequest _ _ => True
  | .quiesceDone => True
  | .quiesceTimeout => True
  | .pmbAck status => status < 65536
  | .pmbTimeout => True
  | .retentionScanDone _ lostBanks _ _ => lostBanks < 2 ^ 24
  | .wake n => n < 8
  | .wakeI2cMatch addr => addr < 128
  | .wakeGo v => v < 256
  | .intClr v => v < 256
  | .rawCmd _ page _ => page < 96
  | .pmbAlert page => page < 128
  | .porstAssert => True
  | .porstRelease straps tamper => straps < 64 ∧ tamper < 128
  | .imageVerifyDone _ _ => True
  | .wrst tamper => tamper < 128
  | .warm _ => True
  | .sideReset _ _ => True
  | .x32Switch => True
  | .clockLoss _ => True
  | .gpioWrite _ _ _ => True
  | .ref10Valid => True
  | .ethLinkChange _ _ speed => speed < 4
  | .ethTxComplete _ ts => ts < 2 ^ 64
  | .adcClip _ => True
  | .rawDone page _ _ data => page < 128 ∧ data < 2 ^ 32
  | .replicaDisagree n holder token expiry => n < 3 ∧ holder < 3 ∧ token < 65536 ∧ expiry < 2 ^ 64
  | .railInRange bank => bank < 8

/-- The checker decides exactly that. -/
def Statement (i : Instr) : Prop := i.wf = true ↔ operands i

theorem registerWrite (r : Requester) (off : Nat) (v : Word) (be : Nat) : Statement (.registerWrite r off v be) :=
  Bool.and_eq_true_iff.trans (and_congr Iff.rfl decide_eq_true_iff)
theorem sideRangeWrite (r : Requester) (off : Nat) (v : Word) (be : Nat) : Statement (.sideRangeWrite r off v be) :=
  Bool.and_eq_true_iff.trans (and_congr Iff.rfl decide_eq_true_iff)
theorem pairedWindowWrite (r : Requester) (off : Nat) (v : Word) (be : Nat) : Statement (.pairedWindowWrite r off v be) :=
  Bool.and_eq_true_iff.trans (and_congr Iff.rfl decide_eq_true_iff)
theorem pairedWindowRead (r : Requester) (off : Nat) : Statement (.pairedWindowRead r off) := Iff.rfl
theorem cntClr (r : Requester) (page : Nat) : Statement (.cntClr r page) := decide_eq_true_iff
theorem lockWrite (r : Requester) (page : Nat) (v : Word) : Statement (.lockWrite r page v) := decide_eq_true_iff
theorem errStickyClear (r : Requester) (page : Nat) (v : Word) : Statement (.errStickyClear r page v) := decide_eq_true_iff
theorem errMaskWrite (r : Requester) (page : Nat) (v : Word) : Statement (.errMaskWrite r page v) := decide_eq_true_iff
theorem inputSequenced (src : InputSource) : Statement (.inputSequenced src) := ⟨fun _ => trivial, fun _ => rfl⟩
theorem timeInput (lt : Nat) : Statement (.timeInput lt) := decide_eq_true_iff
theorem sideTimeInput (x : SideId) : Statement (.sideTimeInput x) := ⟨fun _ => trivial, fun _ => rfl⟩
theorem trngWord (w : Word64) : Statement (.trngWord w) := ⟨fun _ => trivial, fun _ => rfl⟩
theorem outputOffer (x : SideId) (txn : Option CoreTxn) (readbackOk : Bool) : Statement (.outputOffer x txn readbackOk) :=
  Iff.rfl
theorem skewTimeout : Statement (.skewTimeout) := ⟨fun _ => trivial, fun _ => rfl⟩
theorem sideCommonsEvent (x : SideId) : Statement (.sideCommonsEvent x) := ⟨fun _ => trivial, fun _ => rfl⟩
theorem ltLoRead (r : Requester) : Statement (.ltLoRead r) := ⟨fun _ => trivial, fun _ => rfl⟩
theorem lossCfgWrite (r : Requester) (off : Nat) (v : Word) (be : Nat) : Statement (.lossCfgWrite r off v be) :=
  ((Bool.and_eq_true_iff.trans (and_congr (Bool.and_eq_true_iff.trans (and_congr decide_eq_true_iff decide_eq_true_iff)) decide_eq_true_iff))).trans ⟨fun h => ⟨h.1.1, h.1.2, h.2⟩, fun h => ⟨⟨h.1, h.2.1⟩, h.2.2⟩⟩
theorem sourceLost (code : Nat) : Statement (.sourceLost code) := decide_eq_true_iff
theorem revertHoldoffExpiry : Statement (.revertHoldoffExpiry) := ⟨fun _ => trivial, fun _ => rfl⟩
theorem ppsEdge : Statement (.ppsEdge) := ⟨fun _ => trivial, fun _ => rfl⟩
theorem hostTimeWrite (r : Requester) (v : Word) : Statement (.hostTimeWrite r v) := ⟨fun _ => trivial, fun _ => rfl⟩
theorem ptpMeasurement (w3 : Word) : Statement (.ptpMeasurement w3) := ⟨fun _ => trivial, fun _ => rfl⟩
theorem slewComplete : Statement (.slewComplete) := ⟨fun _ => trivial, fun _ => rfl⟩
theorem acceptStep (r : Requester) : Statement (.acceptStep r) := ⟨fun _ => trivial, fun _ => rfl⟩
theorem acceptSlew (r : Requester) : Statement (.acceptSlew r) := ⟨fun _ => trivial, fun _ => rfl⟩
theorem holdoverExpired : Statement (.holdoverExpired) := ⟨fun _ => trivial, fun _ => rfl⟩
theorem xtalStop : Statement (.xtalStop) := ⟨fun _ => trivial, fun _ => rfl⟩
theorem xtalRestart (coarse : Nat) : Statement (.xtalRestart coarse) := decide_eq_true_iff
theorem timerSlotArm (r : Requester) (n : Nat) (v : Word) : Statement (.timerSlotArm r n v) := decide_eq_true_iff
theorem timerSlotExpiry (n : Nat) : Statement (.timerSlotExpiry n) := decide_eq_true_iff
theorem tpoCtrlWrite (r : Requester) (n : Nat) (v : Word) : Statement (.tpoCtrlWrite r n v) := decide_eq_true_iff
theorem tpoEdge (n : Nat) : Statement (.tpoEdge n) := decide_eq_true_iff
theorem loFreqWrite (r : Requester) (p : RPort) (v : Word) : Statement (.loFreqWrite r p v) := ⟨fun _ => trivial, fun _ => rfl⟩
theorem retuneStart (p : RPort) : Statement (.retuneStart p) := ⟨fun _ => trivial, fun _ => rfl⟩
theorem retuneEnd (p : RPort) : Statement (.retuneEnd p) := ⟨fun _ => trivial, fun _ => rfl⟩
theorem chWrite (r : Requester) (p : RPort) : Statement (.chWrite r p) := ⟨fun _ => trivial, fun _ => rfl⟩
theorem chRead (r : Requester) (p : RPort) : Statement (.chRead r p) := ⟨fun _ => trivial, fun _ => rfl⟩
theorem launchArrival (p : RPort) (c : Nat) : Statement (.launchArrival p c) := decide_eq_true_iff
theorem carrierFree (p : RPort) (c : Nat) : Statement (.carrierFree p c) := decide_eq_true_iff
theorem launchCheckDue (p : RPort) (c : Nat) : Statement (.launchCheckDue p c) := decide_eq_true_iff
theorem lbtListen (p : RPort) (c : Nat) (rssi : Nat) : Statement (.lbtListen p c rssi) :=
  Bool.and_eq_true_iff.trans (and_congr decide_eq_true_iff decide_eq_true_iff)
theorem lbtDeferExpiry (p : RPort) (c : Nat) : Statement (.lbtDeferExpiry p c) := decide_eq_true_iff
theorem feLineEdge (n : Nat) : Statement (.feLineEdge n) := decide_eq_true_iff
theorem blankingStart (p : RPort) (c : Nat) : Statement (.blankingStart p c) := decide_eq_true_iff
theorem burstStart (p : RPort) (c : Nat) : Statement (.burstStart p c) := decide_eq_true_iff
theorem burstEnd (p : RPort) (c : Nat) : Statement (.burstEnd p c) := decide_eq_true_iff
theorem blankingEnd (p : RPort) (c : Nat) : Statement (.blankingEnd p c) := decide_eq_true_iff
theorem ackBurstStart (p : RPort) (c : Nat) : Statement (.ackBurstStart p c) := decide_eq_true_iff
theorem ackBurstEnd (p : RPort) (c : Nat) : Statement (.ackBurstEnd p c) := decide_eq_true_iff
theorem feCfgApply (n : Nat) : Statement (.feCfgApply n) := decide_eq_true_iff
theorem startupCalDone (p : RPort) (converged : Bool) : Statement (.startupCalDone p converged) :=
  ⟨fun _ => trivial, fun _ => rfl⟩
theorem calNotice (p : RPort) : Statement (.calNotice p) := ⟨fun _ => trivial, fun _ => rfl⟩
theorem gapNow (r : Requester) (p : RPort) : Statement (.gapNow r p) := ⟨fun _ => trivial, fun _ => rfl⟩
theorem calGapStart (p : RPort) : Statement (.calGapStart p) := ⟨fun _ => trivial, fun _ => rfl⟩
theorem calGapEnd (p : RPort) (cancOk : Bool) : Statement (.calGapEnd p cancOk) := ⟨fun _ => trivial, fun _ => rfl⟩
theorem dutyBucketBoundary : Statement (.dutyBucketBoundary) := ⟨fun _ => trivial, fun _ => rfl⟩
theorem dwellSubbucketBoundary (p : RPort) : Statement (.dwellSubbucketBoundary p) := ⟨fun _ => trivial, fun _ => rfl⟩
theorem portCfgWrite (r : Requester) (p : RPort) (v : Word) : Statement (.portCfgWrite r p v) :=
  ⟨fun _ => trivial, fun _ => rfl⟩
theorem detection (p : RPort) (ch : Nat) (mode : Nat) (freq : Nat) (quality : Nat) (power : Nat) : Statement (.detection p ch mode freq quality power) :=
  ((Bool.and_eq_true_iff.trans (and_congr (Bool.and_eq_true_iff.trans (and_congr (Bool.and_eq_true_iff.trans (and_congr decide_eq_true_iff decide_eq_true_iff)) decide_eq_true_iff)) decide_eq_true_iff))).trans ⟨fun h => ⟨h.1.1.1, h.1.1.2, h.1.2, h.2⟩, fun h => ⟨⟨⟨h.1, h.2.1⟩, h.2.2.1⟩, h.2.2.2⟩⟩
theorem mergeWindowClose (p : RPort) : Statement (.mergeWindowClose p) := ⟨fun _ => trivial, fun _ => rfl⟩
theorem sfdFound (p : RPort) (lane : Nat) (lt : Nat) : Statement (.sfdFound p lane lt) :=
  Bool.and_eq_true_iff.trans (and_congr decide_eq_true_iff decide_eq_true_iff)
theorem sfdTimeout (p : RPort) (lane : Nat) : Statement (.sfdTimeout p lane) := decide_eq_true_iff
theorem phrReceived (p : RPort) (lane : Nat) (phr : PhrData) : Statement (.phrReceived p lane phr) :=
  ((Bool.and_eq_true_iff.trans (and_congr (Bool.and_eq_true_iff.trans (and_congr decide_eq_true_iff decide_eq_true_iff)) decide_eq_true_iff))).trans ⟨fun h => ⟨h.1.1, h.1.2, h.2⟩, fun h => ⟨⟨h.1, h.2.1⟩, h.2.2⟩⟩
theorem syncLost (p : RPort) (lane : Nat) : Statement (.syncLost p lane) := decide_eq_true_iff
theorem fcsDecision (p : RPort) (lane : Nat) (rx : RxEnd) : Statement (.fcsDecision p lane rx) :=
  ((Bool.and_eq_true_iff.trans (and_congr (Bool.and_eq_true_iff.trans (and_congr (Bool.and_eq_true_iff.trans (and_congr decide_eq_true_iff decide_eq_true_iff)) decide_eq_true_iff)) decide_eq_true_iff))).trans ⟨fun h => ⟨h.1.1.1, h.1.1.2, h.1.2, h.2⟩, fun h => ⟨⟨⟨h.1, h.2.1⟩, h.2.2.1⟩, h.2.2.2⟩⟩
theorem chLanesWrite (r : Requester) (p : RPort) (v : Word) : Statement (.chLanesWrite r p v) :=
  ⟨fun _ => trivial, fun _ => rfl⟩
theorem portLimitWrite (r : Requester) (p : RPort) (v : Word) : Statement (.portLimitWrite r p v) :=
  ⟨fun _ => trivial, fun _ => rfl⟩
theorem pendingListSet : Statement (.pendingListSet) := ⟨fun _ => trivial, fun _ => rfl⟩
theorem pendingListClear : Statement (.pendingListClear) := ⟨fun _ => trivial, fun _ => rfl⟩
theorem pendingListClearAll : Statement (.pendingListClearAll) := ⟨fun _ => trivial, fun _ => rfl⟩
theorem pendingListQuery (r : Requester) (v : Word) : Statement (.pendingListQuery r v) := ⟨fun _ => trivial, fun _ => rfl⟩
theorem pendingUpdateCompletion (x : SideId) : Statement (.pendingUpdateCompletion x) := ⟨fun _ => trivial, fun _ => rfl⟩
theorem rxFrameConsume (x : SideId) : Statement (.rxFrameConsume x) := ⟨fun _ => trivial, fun _ => rfl⟩
theorem ackWaitExpiry (x : SideId) : Statement (.ackWaitExpiry x) := ⟨fun _ => trivial, fun _ => rfl⟩
theorem scheduledWindow (x : SideId) : Statement (.scheduledWindow x) := ⟨fun _ => trivial, fun _ => rfl⟩
theorem parkedFrameExpiry (x : SideId) : Statement (.parkedFrameExpiry x) := ⟨fun _ => trivial, fun _ => rfl⟩
theorem pendingSetRetry (x : SideId) : Statement (.pendingSetRetry x) := ⟨fun _ => trivial, fun _ => rfl⟩
theorem winRead (r : Requester) : Statement (.winRead r) := ⟨fun _ => trivial, fun _ => rfl⟩
theorem winWrite (r : Requester) : Statement (.winWrite r) := ⟨fun _ => trivial, fun _ => rfl⟩
theorem winDelete (r : Requester) : Statement (.winDelete r) := ⟨fun _ => trivial, fun _ => rfl⟩
theorem relayDecision (x : SideId) : Statement (.relayDecision x) := ⟨fun _ => trivial, fun _ => rfl⟩
theorem reassemblyTimeout (x : SideId) : Statement (.reassemblyTimeout x) := ⟨fun _ => trivial, fun _ => rfl⟩
theorem skimSweep (x : SideId) : Statement (.skimSweep x) := ⟨fun _ => trivial, fun _ => rfl⟩
theorem ctxRead (r : Requester) : Statement (.ctxRead r) := ⟨fun _ => trivial, fun _ => rfl⟩
theorem ctxWrite (r : Requester) : Statement (.ctxWrite r) := ⟨fun _ => trivial, fun _ => rfl⟩
theorem sanderVisit (x : SideId) : Statement (.sanderVisit x) := ⟨fun _ => trivial, fun _ => rfl⟩
theorem restart (r : Requester) : Statement (.restart r) := ⟨fun _ => trivial, fun _ => rfl⟩
theorem sanderEnWrite (r : Requester) (v : Word) : Statement (.sanderEnWrite r v) := ⟨fun _ => trivial, fun _ => rfl⟩
theorem hashSeedWrite (r : Requester) (v : Word) : Statement (.hashSeedWrite r v) := ⟨fun _ => trivial, fun _ => rfl⟩
theorem ntRead (x : SideId) (strand : Nat) : Statement (.ntRead x strand) := decide_eq_true_iff
theorem ntLock (x : SideId) (strand : Nat) : Statement (.ntLock x strand) := decide_eq_true_iff
theorem ntWrite (x : SideId) (strand : Nat) : Statement (.ntWrite x strand) := decide_eq_true_iff
theorem ntDelete (x : SideId) (strand : Nat) : Statement (.ntDelete x strand) := decide_eq_true_iff
theorem ntScan (x : SideId) (strand : Nat) : Statement (.ntScan x strand) := decide_eq_true_iff
theorem skimRead (x : SideId) (strand : Nat) : Statement (.skimRead x strand) := decide_eq_true_iff
theorem pcRead (x : SideId) (strand : Nat) : Statement (.pcRead x strand) := decide_eq_true_iff
theorem pcInsert (x : SideId) (strand : Nat) : Statement (.pcInsert x strand) := decide_eq_true_iff
theorem pcDelete (x : SideId) (strand : Nat) : Statement (.pcDelete x strand) := decide_eq_true_iff
theorem camMovesDone (x : SideId) : Statement (.camMovesDone x) := ⟨fun _ => trivial, fun _ => rfl⟩
theorem lockLong (x : SideId) (slot : Nat) : Statement (.lockLong x slot) := decide_eq_true_iff
theorem enrol (r : Requester) : Statement (.enrol r) := ⟨fun _ => trivial, fun _ => rfl⟩
theorem remaskPass (x : SideId) : Statement (.remaskPass x) := ⟨fun _ => trivial, fun _ => rfl⟩
theorem derivationComplete (x : SideId) : Statement (.derivationComplete x) := ⟨fun _ => trivial, fun _ => rfl⟩
theorem tenMapWrite (r : Requester) (v : Word) : Statement (.tenMapWrite r v) := ⟨fun _ => trivial, fun _ => rfl⟩
theorem keyInfo (x : SideId) (strand : Nat) : Statement (.keyInfo x strand) := decide_eq_true_iff
theorem keyInvalidate (x : SideId) (strand : Nat) : Statement (.keyInvalidate x strand) := decide_eq_true_iff
theorem tenInvalidate (x : SideId) (strand : Nat) : Statement (.tenInvalidate x strand) := decide_eq_true_iff
theorem nodeInvalidate (x : SideId) (strand : Nat) : Statement (.nodeInvalidate x strand) := decide_eq_true_iff
theorem cacheFlush (x : SideId) (strand : Nat) : Statement (.cacheFlush x strand) := decide_eq_true_iff
theorem keyExport (x : SideId) (strand : Nat) : Statement (.keyExport x strand) := decide_eq_true_iff
theorem keyUpdate (x : SideId) (strand : Nat) : Statement (.keyUpdate x strand) := decide_eq_true_iff
theorem tamperTrip (source : Nat) : Statement (.tamperTrip source) := decide_eq_true_iff
theorem sideTamper (x : SideId) : Statement (.sideTamper x) := ⟨fun _ => trivial, fun _ => rfl⟩
theorem loupeChallenge (r : Requester) : Statement (.loupeChallenge r) := ⟨fun _ => trivial, fun _ => rfl⟩
theorem loupeOpen (r : Requester) : Statement (.loupeOpen r) := ⟨fun _ => trivial, fun _ => rfl⟩
theorem loupeClose (r : Requester) : Statement (.loupeClose r) := ⟨fun _ => trivial, fun _ => rfl⟩
theorem loupeLockoutEnd : Statement (.loupeLockoutEnd) := ⟨fun _ => trivial, fun _ => rfl⟩
theorem sideLoupeOpen (x : SideId) : Statement (.sideLoupeOpen x) := ⟨fun _ => trivial, fun _ => rfl⟩
theorem sideLoupeClose (x : SideId) : Statement (.sideLoupeClose x) := ⟨fun _ => trivial, fun _ => rfl⟩
theorem hostFrameItem (x : SideId) (strand : Nat) : Statement (.hostFrameItem x strand) := decide_eq_true_iff
theorem ethFrameConsume (x : SideId) : Statement (.ethFrameConsume x) := ⟨fun _ => trivial, fun _ => rfl⟩
theorem releaseDecision (x : SideId) (carrier : Nat) : Statement (.releaseDecision x carrier) := decide_eq_true_iff
theorem hostPortRelease (x : SideId) (port : Nat) : Statement (.hostPortRelease x port) := decide_eq_true_iff
theorem launchCompletion (x : SideId) : Statement (.launchCompletion x) := ⟨fun _ => trivial, fun _ => rfl⟩
theorem gateSwap (r : Requester) : Statement (.gateSwap r) := ⟨fun _ => trivial, fun _ => rfl⟩
theorem gateAbort (r : Requester) : Statement (.gateAbort r) := ⟨fun _ => trivial, fun _ => rfl⟩
theorem gateSwapApply (x : SideId) (carrier : Nat) : Statement (.gateSwapApply x carrier) := decide_eq_true_iff
theorem gateEnWrite (r : Requester) (v : Word) : Statement (.gateEnWrite r v) := ⟨fun _ => trivial, fun _ => rfl⟩
theorem fwWrite (x : SideId) (strand : Nat) : Statement (.fwWrite x strand) := decide_eq_true_iff
theorem fwCommit (x : SideId) (strand : Nat) : Statement (.fwCommit x strand) := decide_eq_true_iff
theorem fwUpdate (x : SideId) (strand : Nat) : Statement (.fwUpdate x strand) := decide_eq_true_iff
theorem fwuSwap : Statement (.fwuSwap) := ⟨fun _ => trivial, fun _ => rfl⟩
theorem fwConfirm (x : SideId) (strand : Nat) : Statement (.fwConfirm x strand) := decide_eq_true_iff
theorem trialExpired (x : SideId) : Statement (.trialExpired x) := ⟨fun _ => trivial, fun _ => rfl⟩
theorem slotVerifyDone (x : SideId) : Statement (.slotVerifyDone x) := ⟨fun _ => trivial, fun _ => rfl⟩
theorem imgWrite (x : SideId) (strand : Nat) : Statement (.imgWrite x strand) := decide_eq_true_iff
theorem imgCommit (x : SideId) (strand : Nat) : Statement (.imgCommit x strand) := decide_eq_true_iff
theorem imgErase (x : SideId) (strand : Nat) : Statement (.imgErase x strand) := decide_eq_true_iff
theorem imgRead (x : SideId) (strand : Nat) : Statement (.imgRead x strand) := decide_eq_true_iff
theorem ibeStart (x : SideId) (strand : Nat) : Statement (.ibeStart x strand) := decide_eq_true_iff
theorem ibeStop (x : SideId) (strand : Nat) : Statement (.ibeStop x strand) := decide_eq_true_iff
theorem ibeLoadDone : Statement (.ibeLoadDone) := ⟨fun _ => trivial, fun _ => rfl⟩
theorem symNext : Statement (.symNext) := ⟨fun _ => trivial, fun _ => rfl⟩
theorem reportAdd (v : Word) : Statement (.reportAdd v) := ⟨fun _ => trivial, fun _ => rfl⟩
theorem ibeStopLt : Statement (.ibeStopLt) := ⟨fun _ => trivial, fun _ => rfl⟩
theorem strandPush (r : Requester) (v : Word) : Statement (.strandPush r v) := ⟨fun _ => trivial, fun _ => rfl⟩
theorem cellWrite (r : Requester) (off : Nat) (data : List Byte) : Statement (.cellWrite r off data) :=
  Bool.and_eq_true_iff.trans (and_congr decide_eq_true_iff decide_eq_true_iff)
theorem pop (r : Requester) : Statement (.pop r) := ⟨fun _ => trivial, fun _ => rfl⟩
theorem mark (r : Requester) : Statement (.mark r) := ⟨fun _ => trivial, fun _ => rfl⟩
theorem rewind (r : Requester) : Statement (.rewind r) := ⟨fun _ => trivial, fun _ => rfl⟩
theorem release (r : Requester) : Statement (.release r) := ⟨fun _ => trivial, fun _ => rfl⟩
theorem dropRest (r : Requester) : Statement (.dropRest r) := ⟨fun _ => trivial, fun _ => rfl⟩
theorem flush (r : Requester) : Statement (.flush r) := ⟨fun _ => trivial, fun _ => rfl⟩
theorem strandEnable (r : Requester) (v : Word) : Statement (.strandEnable r v) := ⟨fun _ => trivial, fun _ => rfl⟩
theorem strandPopUnblock (x : SideId) (strand : Nat) : Statement (.strandPopUnblock x strand) := decide_eq_true_iff
theorem strandPushResume (x : SideId) (strand : Nat) : Statement (.strandPushResume x strand) := decide_eq_true_iff
theorem create (x : SideId) (core : Nat) (arg0 : Nat) (arg1 : Nat) : Statement (.create x core arg0 arg1) :=
  ((Bool.and_eq_true_iff.trans (and_congr (Bool.and_eq_true_iff.trans (and_congr decide_eq_true_iff decide_eq_true_iff)) decide_eq_true_iff))).trans ⟨fun h => ⟨h.1.1, h.1.2, h.2⟩, fun h => ⟨⟨h.1, h.2.1⟩, h.2.2⟩⟩
theorem resume (x : SideId) (core : Nat) (arg0 : Nat) (arg1 : Nat) : Statement (.resume x core arg0 arg1) :=
  ((Bool.and_eq_true_iff.trans (and_congr (Bool.and_eq_true_iff.trans (and_congr decide_eq_true_iff decide_eq_true_iff)) decide_eq_true_iff))).trans ⟨fun h => ⟨h.1.1, h.1.2, h.2⟩, fun h => ⟨⟨h.1, h.2.1⟩, h.2.2⟩⟩
theorem wait (x : SideId) (core : Nat) (arg0 : Nat) (arg1 : Nat) : Statement (.wait x core arg0 arg1) :=
  ((Bool.and_eq_true_iff.trans (and_congr (Bool.and_eq_true_iff.trans (and_congr decide_eq_true_iff decide_eq_true_iff)) decide_eq_true_iff))).trans ⟨fun h => ⟨h.1.1, h.1.2, h.2⟩, fun h => ⟨⟨h.1, h.2.1⟩, h.2.2⟩⟩
theorem trywait (x : SideId) (core : Nat) (arg0 : Nat) (arg1 : Nat) : Statement (.trywait x core arg0 arg1) :=
  ((Bool.and_eq_true_iff.trans (and_congr (Bool.and_eq_true_iff.trans (and_congr decide_eq_true_iff decide_eq_true_iff)) decide_eq_true_iff))).trans ⟨fun h => ⟨h.1.1, h.1.2, h.2⟩, fun h => ⟨⟨h.1, h.2.1⟩, h.2.2⟩⟩
theorem signal (x : SideId) (core : Nat) (arg0 : Nat) (arg1 : Nat) : Statement (.signal x core arg0 arg1) :=
  ((Bool.and_eq_true_iff.trans (and_congr (Bool.and_eq_true_iff.trans (and_congr decide_eq_true_iff decide_eq_true_iff)) decide_eq_true_iff))).trans ⟨fun h => ⟨h.1.1, h.1.2, h.2⟩, fun h => ⟨⟨h.1, h.2.1⟩, h.2.2⟩⟩
theorem cancel (x : SideId) (core : Nat) (arg0 : Nat) (arg1 : Nat) : Statement (.cancel x core arg0 arg1) :=
  ((Bool.and_eq_true_iff.trans (and_congr (Bool.and_eq_true_iff.trans (and_congr decide_eq_true_iff decide_eq_true_iff)) decide_eq_true_iff))).trans ⟨fun h => ⟨h.1.1, h.1.2, h.2⟩, fun h => ⟨⟨h.1, h.2.1⟩, h.2.2⟩⟩
theorem delete (x : SideId) (core : Nat) (arg0 : Nat) (arg1 : Nat) : Statement (.delete x core arg0 arg1) :=
  ((Bool.and_eq_true_iff.trans (and_congr (Bool.and_eq_true_iff.trans (and_congr decide_eq_true_iff decide_eq_true_iff)) decide_eq_true_iff))).trans ⟨fun h => ⟨h.1.1, h.1.2, h.2⟩, fun h => ⟨⟨h.1, h.2.1⟩, h.2.2⟩⟩
theorem yield (x : SideId) (core : Nat) : Statement (.yield x core) := decide_eq_true_iff
theorem exit (x : SideId) (core : Nat) : Statement (.exit x core) := decide_eq_true_iff
theorem setprio (x : SideId) (core : Nat) (arg0 : Nat) (arg1 : Nat) : Statement (.setprio x core arg0 arg1) :=
  ((Bool.and_eq_true_iff.trans (and_congr (Bool.and_eq_true_iff.trans (and_congr decide_eq_true_iff decide_eq_true_iff)) decide_eq_true_iff))).trans ⟨fun h => ⟨h.1.1, h.1.2, h.2⟩, fun h => ⟨⟨h.1, h.2.1⟩, h.2.2⟩⟩
theorem objInit (x : SideId) (core : Nat) (arg0 : Nat) (arg1 : Nat) : Statement (.objInit x core arg0 arg1) :=
  ((Bool.and_eq_true_iff.trans (and_congr (Bool.and_eq_true_iff.trans (and_congr decide_eq_true_iff decide_eq_true_iff)) decide_eq_true_iff))).trans ⟨fun h => ⟨h.1.1, h.1.2, h.2⟩, fun h => ⟨⟨h.1, h.2.1⟩, h.2.2⟩⟩
theorem dnext (x : SideId) (core : Nat) : Statement (.dnext x core) := decide_eq_true_iff
theorem coreEnWrite (r : Requester) (v : Word) : Statement (.coreEnWrite r v) := ⟨fun _ => trivial, fun _ => rfl⟩
theorem waitTimeout (x : SideId) : Statement (.waitTimeout x) := ⟨fun _ => trivial, fun _ => rfl⟩
theorem tsliceExpiry (x : SideId) (core : Nat) : Statement (.tsliceExpiry x core) := decide_eq_true_iff
theorem semAcq (r : Requester) (n : Nat) : Statement (.semAcq r n) := decide_eq_true_iff
theorem semRel (r : Requester) (n : Nat) : Statement (.semRel r n) := decide_eq_true_iff
theorem semForce (r : Requester) (v : Word) : Statement (.semForce r v) := ⟨fun _ => trivial, fun _ => rfl⟩
theorem sready (x : SideId) : Statement (.sready x) := ⟨fun _ => trivial, fun _ => rfl⟩
theorem grantWaitExpiry : Statement (.grantWaitExpiry) := ⟨fun _ => trivial, fun _ => rfl⟩
theorem renew (v : Word) : Statement (.renew v) := ⟨fun _ => trivial, fun _ => rfl⟩
theorem leaseExpiry : Statement (.leaseExpiry) := ⟨fun _ => trivial, fun _ => rfl⟩
theorem claspSwap (r : Requester) : Statement (.claspSwap r) := ⟨fun _ => trivial, fun _ => rfl⟩
theorem swapMarker : Statement (.swapMarker) := ⟨fun _ => trivial, fun _ => rfl⟩
theorem selfCheckReport (x : SideId) (res : SelfCheck) : Statement (.selfCheckReport x res) := ⟨fun _ => trivial, fun _ => rfl⟩
theorem selfCheckTimeout (x : SideId) : Statement (.selfCheckTimeout x) := ⟨fun _ => trivial, fun _ => rfl⟩
theorem outX (r : Requester) (x : SideId) : Statement (.outX r x) := ⟨fun _ => trivial, fun _ => rfl⟩
theorem inX (r : Requester) (x : SideId) : Statement (.inX r x) := ⟨fun _ => trivial, fun _ => rfl⟩
theorem recover (r : Requester) : Statement (.recover r) := ⟨fun _ => trivial, fun _ => rfl⟩
theorem pathClr (r : Requester) : Statement (.pathClr r) := ⟨fun _ => trivial, fun _ => rfl⟩
theorem transferMarker : Statement (.transferMarker) := ⟨fun _ => trivial, fun _ => rfl⟩
theorem refillCopyDone : Statement (.refillCopyDone) := ⟨fun _ => trivial, fun _ => rfl⟩
theorem join : Statement (.join) := ⟨fun _ => trivial, fun _ => rfl⟩
theorem refillRetry : Statement (.refillRetry) := ⟨fun _ => trivial, fun _ => rfl⟩
theorem drillStart : Statement (.drillStart) := ⟨fun _ => trivial, fun _ => rfl⟩
theorem drillDwellEnd : Statement (.drillDwellEnd) := ⟨fun _ => trivial, fun _ => rfl⟩
theorem memoryError (x : SideId) (loc : MemLoc) (correctable : Bool) : Statement (.memoryError x loc correctable) := Iff.rfl
theorem lossMarkerPush (x : SideId) : Statement (.lossMarkerPush x) := ⟨fun _ => trivial, fun _ => rfl⟩
theorem unitDisable (r : Requester) (page : Nat) : Statement (.unitDisable r page) := decide_eq_true_iff
theorem disableComplete (page : Nat) : Statement (.disableComplete page) := decide_eq_true_iff
theorem unitEnable (r : Requester) (page : Nat) : Statement (.unitEnable r page) := decide_eq_true_iff
theorem stall (x : SideId) (strand : Nat) : Statement (.stall x strand) := decide_eq_true_iff
theorem rearm (r : Requester) (second : Bool) (src : Nat) : Statement (.rearm r second src) := decide_eq_true_iff
theorem modIntervalEnd (second : Bool) (vec : Nat) : Statement (.modIntervalEnd second vec) := decide_eq_true_iff
theorem msixUnmask (second : Bool) (vec : Nat) : Statement (.msixUnmask second vec) := decide_eq_true_iff
theorem hostPortReset (second : Bool) (kind : PortReset) : Statement (.hostPortReset second kind) :=
  ⟨fun _ => trivial, fun _ => rfl⟩
theorem chainWrite (frame : List Byte) : Statement (.chainWrite frame) := decide_eq_true_iff
theorem chainRead (frame : List Byte) : Statement (.chainRead frame) := decide_eq_true_iff
theorem fetch (frame : List Byte) : Statement (.fetch frame) := decide_eq_true_iff
theorem setAddress (frame : List Byte) (eni : Bool) : Statement (.setAddress frame eni) := decide_eq_true_iff
theorem clrAddr (r : Requester) : Statement (.clrAddr r) := ⟨fun _ => trivial, fun _ => rfl⟩
theorem winData (r : Requester) (write : Option Word) : Statement (.winData r write) := ⟨fun _ => trivial, fun _ => rfl⟩
theorem ethFrameRx (second : Bool) (frame : List Byte) (fcsOk : Bool) (ts : Nat) : Statement (.ethFrameRx second frame fcsOk ts) :=
  Bool.and_eq_true_iff.trans (and_congr decide_eq_true_iff decide_eq_true_iff)
theorem vidMapWrite (r : Requester) (second : Bool) (v : Word) : Statement (.vidMapWrite r second v) :=
  ⟨fun _ => trivial, fun _ => rfl⟩
theorem hbootData (r : Requester) (v : Word) : Statement (.hbootData r v) := ⟨fun _ => trivial, fun _ => rfl⟩
theorem hbootGo (r : Requester) : Statement (.hbootGo r) := ⟨fun _ => trivial, fun _ => rfl⟩
theorem pdRequest (r : Requester) (v : Word) : Statement (.pdRequest r v) := ⟨fun _ => trivial, fun _ => rfl⟩
theorem quiesceDone : Statement (.quiesceDone) := ⟨fun _ => trivial, fun _ => rfl⟩
theorem quiesceTimeout : Statement (.quiesceTimeout) := ⟨fun _ => trivial, fun _ => rfl⟩
theorem pmbAck (status : Nat) : Statement (.pmbAck status) := decide_eq_true_iff
theorem pmbTimeout : Statement (.pmbTimeout) := ⟨fun _ => trivial, fun _ => rfl⟩
theorem retentionScanDone (x : SideId) (lostBanks : Nat) (locketLost : Bool) (corrected : Nat) : Statement (.retentionScanDone x lostBanks locketLost corrected) :=
  decide_eq_true_iff
theorem wake (n : Nat) : Statement (.wake n) := decide_eq_true_iff
theorem wakeI2cMatch (addr : Nat) : Statement (.wakeI2cMatch addr) := decide_eq_true_iff
theorem wakeGo (v : Nat) : Statement (.wakeGo v) := decide_eq_true_iff
theorem intClr (v : Nat) : Statement (.intClr v) := decide_eq_true_iff
theorem rawCmd (r : Requester) (page : Nat) (v : Word) : Statement (.rawCmd r page v) := decide_eq_true_iff
theorem pmbAlert (page : Nat) : Statement (.pmbAlert page) := decide_eq_true_iff
theorem porstAssert : Statement (.porstAssert) := ⟨fun _ => trivial, fun _ => rfl⟩
theorem porstRelease (straps : Nat) (tamper : Nat) : Statement (.porstRelease straps tamper) :=
  Bool.and_eq_true_iff.trans (and_congr decide_eq_true_iff decide_eq_true_iff)
theorem imageVerifyDone (x : SideId) (slotOk : Bool) : Statement (.imageVerifyDone x slotOk) := ⟨fun _ => trivial, fun _ => rfl⟩
theorem wrst (tamper : Nat) : Statement (.wrst tamper) := decide_eq_true_iff
theorem warm (r : Requester) : Statement (.warm r) := ⟨fun _ => trivial, fun _ => rfl⟩
theorem sideReset (r : Requester) (x : SideId) : Statement (.sideReset r x) := ⟨fun _ => trivial, fun _ => rfl⟩
theorem x32Switch : Statement (.x32Switch) := ⟨fun _ => trivial, fun _ => rfl⟩
theorem clockLoss (c : ClockId) : Statement (.clockLoss c) := ⟨fun _ => trivial, fun _ => rfl⟩
theorem gpioWrite (r : Requester) (dir : Bool) (v : Word) : Statement (.gpioWrite r dir v) := ⟨fun _ => trivial, fun _ => rfl⟩
theorem ref10Valid : Statement (.ref10Valid) := ⟨fun _ => trivial, fun _ => rfl⟩
theorem ethLinkChange (second : Bool) (up : Bool) (speed : Nat) : Statement (.ethLinkChange second up speed) :=
  decide_eq_true_iff
theorem ethTxComplete (second : Bool) (ts : Nat) : Statement (.ethTxComplete second ts) := decide_eq_true_iff
theorem adcClip (p : RPort) : Statement (.adcClip p) := ⟨fun _ => trivial, fun _ => rfl⟩
theorem rawDone (page : Nat) (nak : Bool) (pecErr : Bool) (data : Nat) : Statement (.rawDone page nak pecErr data) :=
  Bool.and_eq_true_iff.trans (and_congr decide_eq_true_iff decide_eq_true_iff)
theorem replicaDisagree (n : Nat) (holder : Nat) (token : Nat) (expiry : Nat) : Statement (.replicaDisagree n holder token expiry) :=
  ((Bool.and_eq_true_iff.trans (and_congr (Bool.and_eq_true_iff.trans (and_congr (Bool.and_eq_true_iff.trans (and_congr decide_eq_true_iff decide_eq_true_iff)) decide_eq_true_iff)) decide_eq_true_iff))).trans ⟨fun h => ⟨h.1.1.1, h.1.1.2, h.1.2, h.2⟩, fun h => ⟨⟨⟨h.1, h.2.1⟩, h.2.2.1⟩, h.2.2.2⟩⟩
theorem railInRange (bank : Nat) : Statement (.railInRange bank) := decide_eq_true_iff

end Sys2Proof.Laws.WellFormed
end

