-- ==== Sys2Proof/Tests/Slice0.lean ====
section
/-! SUPPORT. The model's own tests: ill-formed commands are refused, small single commands with results from the spec, and states
that meet the hypotheses of the statements. -/

namespace Sys2Proof.Tests

set_option Elab.async false

open Sys2Proof Sys2Proof.Machine

/-! ## Well-formed and ill-formed commands -/

/-- Register accesses: byte enables, alignment, the end of BAR0, the end of a core's pages, pages, strands, loss-list offsets. -/
theorem test_wf_refuses_accesses : ([
    .registerWrite .hostA 0 0 16, .registerWrite .hostA 2 0 15, .sideRangeWrite .hostA 0x100000 0 15,
    .pairedWindowWrite (.core .a) 0x840000 0 15, .pairedWindowRead .chain 1, .cntClr .hostA 96, .disableComplete 128,
    .lossCfgWrite .hostA 4096 0 15, .lossCfgWrite .hostA 2 0 15, .ntRead .a 64, .rawDone 127 false false (2 ^ 32)] :
    List Instr).all (fun i => !i.wf) = true := by decide

/-- Times, source codes, timer slots, pulse outputs, carriers, lanes, receptions. -/
theorem test_wf_refuses_time_and_radio : ([
    .timeInput (2 ^ 64), .sourceLost 0, .sourceLost 6, .timerSlotArm .hostA 32 0, .tpoEdge 4, .launchArrival .s 4,
    .lbtListen .s 0 512, .feLineEdge 24, .detection .s 256 0 0 0 0, .detection .s 0 32 0 0 0, .detection .s 0 0 0 256 0,
    .detection .s 0 0 0 0 512, .sfdFound .s 384 0, .sfdTimeout .s 384, .phrReceived .s 0 ⟨true, false, 2048, 0⟩,
    .phrReceived .s 0 ⟨true, false, 0, 256⟩, .fcsDecision .s 0 ⟨true, [], 512, 0, 0⟩, .fcsDecision .s 0 ⟨true, [], 0, 0, 256⟩] :
    List Instr).all (fun i => !i.wf) = true := by decide

/-- Tables, strands, threads, errors, hosts. -/
theorem test_wf_refuses_sides_and_hosts : ([
    .lockLong .a 64, .tamperTrip 7, .releaseDecision .a 12, .hostPortRelease .a 11, .hostPortRelease .a 16,
    .cellWrite .hostA (2 ^ 26) [], .create .a 8 0 0, .wait .a 0 (2 ^ 32) 0, .signal .a 0 0 (2 ^ 32), .yield .a 8,
    .semAcq .hostA 64, .memoryError .a (.cell 960) true, .memoryError .a (.nodeEntry 262144) true,
    .memoryError .a (.skimEntry 131072) true, .memoryError .a (.keyEntry 16384) true, .memoryError .a (.other 24) true,
    .memoryError .a (.rxBuffer 4096) true, .rearm .hostA false 256, .modIntervalEnd false 64, .msixUnmask false 65, .chainWrite [],
    .outputOffer .a (some (.write 64 0 0 15)) true, .outputOffer .a (some (.read 0 4096)) true,
    .outputOffer .a (some (.pinWrite 2 0)) true] :
    List Instr).all (fun i => !i.wf) = true := by decide

/-- Ethernet, power, resets, replicas, pins. -/
theorem test_wf_refuses_power_and_resets : ([
    .ethTxComplete false (2 ^ 64), .ethLinkChange false true 4, .pmbAck 65536, .retentionScanDone .a (2 ^ 24) false 0, .wake 8,
    .wakeI2cMatch 128, .wakeGo 256, .porstRelease 64 0, .porstRelease 0 128, .wrst 128, .replicaDisagree 3 0 0 0,
    .replicaDisagree 0 3 0 0, .replicaDisagree 0 0 65536 0, .replicaDisagree 0 0 0 (2 ^ 64), .railInRange 8] :
    List Instr).all (fun i => !i.wf) = true := by decide

/-- The highest operands of their ranges are accepted. -/
theorem test_wf_accepts_bounds : ([
    .registerWrite .hostB 0xFFFFC 0xFFFFFFFF#32 15, .pairedWindowRead (.core .b) 0x83FFFC, .cntClr .chain 95, .disableComplete 127,
    .timeInput (2 ^ 64 - 1), .sourceLost 1, .sourceLost 5, .tpoEdge 3, .launchArrival .h 3, .lbtListen .h 3 511, .feLineEdge 23,
    .detection .s 255 31 0 255 255, .sfdFound .m 383 0, .tamperTrip 6, .releaseDecision .b 11, .hostPortRelease .b 12,
    .hostPortRelease .b 15, .create .b 7 0xFFFFFFFF 0xFFFFFFFF, .semAcq .hostB 63, .memoryError .b (.cell 959) false,
    .msixUnmask true 64, .chainWrite [0], .wake 7, .porstRelease 63 127, .replicaDisagree 2 2 65535 0, .railInRange 7] :
    List Instr).all Instr.wf = true := by decide

/-- No row of the table gives bits. -/
theorem test_no_row_has_bits : decodeTableWord 16 0 = none ∧ decodeTableWord 0 5 = none := by decide

/-! ## States for the tests -/

/-- Both sides in service and compared, side A holding the lease with TOKEN 1, the units of the commons acting. -/
def up : State :=
  let k : Replica := ⟨1, 1, 2000000000⟩
  { State.reset with
    c := { Commons.reset with
      lt := 1000000000
      clasp := { ClaspState.reset with r0 := k, r1 := k, r2 := k, readyA := true, readyB := true }
      bezel := { BezelState.reset with stA := .compared, stB := .compared }
      sys := { SysState.reset with step := 7, commonsEn := true, porstLow := false, pll := 31, xtalOk := true, bootA := 1, bootB := 1 } }
    a := { Side.reset with token := 1, now := 1000000000, tick := 1000000000 }
    b := { Side.reset with token := 1, now := 1000000000, tick := 1000000000 } }

/-- The same with side A alone. -/
def alone : State := { up with c := { up.c with bezel := { up.c.bezel with stA := .alone, stB := .off } } }

/-- The same state with registers of the commons written. -/
def withReg (s : State) (page off : Nat) (v : Word) : State := { s with c := { s.c with regs := wr s.c.regs page off v } }

/-- Side A changed. -/
def withA (s : State) (f : Side → Side) : State := { s with a := f s.a }

/-- A register takes a write, as a test that can be evaluated. -/
def takes (s : State) (r : Requester) (page off : Nat) : Bool :=
  (match regRow page off with
   | some row => !row.expert || rb s.c.regs page Reg.HDR_CTRL 1
   | none => false) &&
  pagePresent s.variant page && !pageDark s page && !(decide (page = Pg.RST) && r.isCore) && !ibeRefuses r page off

theorem takes_ok (s : State) (r : Requester) (page off : Nat) (h : takes s r page off = true) : takesWrite s r page off := by
  simp only [takes, Bool.and_eq_true, Bool.not_eq_true'] at h
  obtain ⟨⟨⟨⟨h1, h2⟩, h3⟩, h4⟩, h5⟩ := h
  refine ⟨?_, h2, h3, ?_, h5⟩
  · split at h1
    case h_1 row hrow => exact ⟨row, hrow, fun he => by simpa [he] using h1⟩
    case h_2 => cases h1
  · rintro ⟨e1, e2⟩
    simp [e1, e2] at h4

theorem test_up_runs : unitsRun up = true ∧ sideRun up .a = true ∧ sideRun up .b = true ∧ coresRun up .a = true ∧
    portRun up .s = true ∧ portRun up .m = true ∧ portRun up .h = true ∧ swapMay up = true := by decide

theorem test_way_free : wayFree up .hostA ∧ wayFree up .hostB ∧ wayFree up .chain := by unfold wayFree; decide

theorem test_takes_met : takesWrite up .hostA Pg.AIR Reg.HDR_EVT_EN := takes_ok _ _ _ _ (by decide)

/-! ## States that meet the hypotheses of the statements -/

/-- Registers of the commons that host port A may write in `up`: those that the statements name. -/
def written : List (Nat × Nat) :=
  [(Pg.AIR, Reg.HDR_EVT_EN), (Pg.AIR, Reg.HDR_ERR_STICKY), (Pg.AIR, Reg.HDR_ERR_MASK), (Pg.AIR, Reg.HDR_LOCK),
   (Pg.BEZEL, Reg.HDR_ERR_STICKY), (Pg.CLASP, Reg.HDR_LOCK), (Pg.PLUMB, Reg.PLUMB_HOST_TIME_HI), (Pg.LATH, Reg.LATH_CMD),
   (Pg.PLUMB, Reg.PLUMB_LOSS_CFG), (Pg.LATH, tmrOff Reg.LATH_TMR_CTRL 0), (Pg.LATH, tmrOff Reg.LATH_TMR_CTRL 31),
   (Pg.TPO, tpoOff Reg.TPO_CTRL 0), (Pg.TPO, tpoOff Reg.TPO_CTRL 3), (Pg.TPO, Reg.TPO_GPIO_OUT), (Pg.TPO, Reg.TPO_GPIO_DIR),
   (Pg.RFS, Reg.RF_LO_FREQ), (Pg.RFM, Reg.RF_PORT_CFG), (Pg.RFH, Reg.RF_CAL_CMD), (RPort.s.chzPage, Reg.CHZ_CH_CMD),
   (RPort.m.facetPage, Reg.FACET_CH_LANES), (RPort.h.facetPage, Reg.FACET_PORT_LIMIT), (Pg.AIR, Reg.AIR_PL_QCMD),
   (Pg.LOUPE, Reg.LOUPE_CMD), (Pg.SEM, Reg.SEM_SEM), (Pg.SEM, Reg.SEM_SEM + 4 * 63), (Pg.CLASP, Reg.CLASP_CMD),
   (Pg.BEZEL, Reg.BEZEL_CMD), (Pg.AIR, Reg.HDR_CTRL), (Pg.RST, Reg.HDR_CTRL), (Pg.RST, Reg.RST_SIDE_CMD),
   (Pg.RST, Reg.RST_HBOOT_DATA), (Pg.RST, Reg.RST_HBOOT_GO), (Pg.CEVT, Reg.CEVT_REARM_A), (Pg.CEVT, Reg.CEVT_REARM_B),
   (Pg.CHAIN, Reg.CHAIN_CMD), (Pg.PD, Reg.PD_REQ_CMD), (ethPage false, Reg.ETH_VID_MAP), (ethPage true, Reg.ETH_VID_MAP)]

theorem test_registers_taken_met : ∀ e ∈ written, takesWrite up .hostA e.1 e.2 := by
  have h : (written.all fun e => takes up .hostA e.1 e.2) = true := by decide
  exact fun e he => takes_ok _ _ _ _ (List.all_eq_true.mp h e he)

/-- Expert registers are taken once EXPERT is set (R6). -/
theorem test_expert_registers_met : takesWrite (withReg up Pg.SEM Reg.HDR_CTRL 3) .hostA Pg.SEM Reg.SEM_FORCE ∧
    takesWrite (withReg up Pg.PMB Reg.HDR_CTRL 3) .hostA Pg.PMB Reg.PMB_RAW_CMD := ⟨takes_ok _ _ _ _ (by decide), takes_ok _ _ _ _ (by decide)⟩

/-- The counter registers of the commons that a port may clear are taken. -/
theorem test_counters_taken_met : ∀ e ∈ counterMap.filter (fun e => decide (e.1 < 64)), takesWrite up .hostA e.1 e.2.1 := by
  have h : ((counterMap.filter fun e => decide (e.1 < 64)).all fun e => takes up .hostA e.1 e.2.1) = true := by decide
  exact fun e he => takes_ok _ _ _ _ (List.all_eq_true.mp h e he)

/-- The idle step has room for one more ns and none; PORST_N low. O1, O2, O5. -/
theorem test_steps_met : up.pending = [] ∧ up.c.sys.porstLow = false ∧ (2 ^ 64 - 2) + 1 < 2 ^ 64 ∧
    State.reset.c.sys.porstLow = true ∧ up.pending.head? ≠ some Instr.porstAssert ∧ goesOn (step up) :=
  ⟨rfl, rfl, by decide, rfl, by decide, ⟨_, rfl⟩⟩

/-- A state at rest, one whose sides are not compared, one whose sides are as Bezel sees them. O7. -/
theorem test_finish_met : atRest up ∧ alone.c.bezel.compares = false ∧
    (up.c.bezel.seenA = up.a.point ∧ up.c.bezel.seenB = up.b.point) := by unfold atRest; decide

/-- The empty store is in canonical form, and so is one with a register. O8. -/
theorem test_store_met : Tab.wf ([] : Tab Word) = true ∧ (wrI [] 1 4 0 7).wf = true := by decide

/-- A field of each access code lies within its register. O9. -/
theorem test_fields_met : ([Acc.rw, .ro, .w1c, .w1s, .wo, .rwl].all fun a =>
    [Pg.AIR, Pg.LATH, Pg.RFS, Pg.CLASP, Pg.RST, Pg.LOUPE, Pg.TAMP].any fun p => [0x00, 0x04, 0x08, 0x0C, 0x10, 0x14, 0x18, 0x1C,
      0x20, 0x24, 0x28, 0x2C, 0x30, 0x40, 0x44, 0x48, 0x4C, 0x50].any fun o => match regRow p o with
    | some r => r.fields.any fun f => decide (f.acc = a ∧ f.lo ≤ f.hi ∧ f.hi < 32)
    | none => false) = true := by decide

/-- The cycle has seen no write and no set by hardware; both sides keep pace. -/
theorem test_cycle_met : up.c.writes.lt ≠ up.c.lt ∧ up.c.freshBits Pg.AIR Reg.HDR_ERR_STICKY = 0 ∧
    up.c.freshBits Pg.BEZEL Reg.HDR_ERR_FIRST = 0 ∧ lagging up = false ∧ up.c.bezel.reads = [] ∧ answerer alone = .a ∧
    alone.c.bezel.compares = false ∧ mayAccess up .hostA (regAddr .hostA Pg.DML Reg.HDR_CTRL) = true ∧
    mayAccess up .hostA (regAddr .hostA Pg.LATH Reg.LATH_LT_LO) = true ∧ 0x2FFFFC + 4 ≤ coreMemEnd := by decide

/-- The ways of an access: a free way, boundary pages and addresses, an absent page, a register and a hole of a side page. O10. -/
theorem test_accesses_met : wayFree up .hostA ∧ wayFree up .chain ∧ ownWay up .a ∧ ownWay up .b ∧
    pagePresent .kl9620 Pg.IBE = false ∧ (regRow Pg.DML Reg.HDR_CTRL).isSome = true ∧ (regRow Pg.DML 0xFFC).isSome = false ∧
    (regRow Pg.DML Reg.HDR_ERR_STICKY).isSome = true ∧ (regRow Pg.DML Reg.HDR_LOCK).isSome = true ∧ Pg.DML ≠ Pg.SPMB := by
  unfold wayFree ownWay; decide

/-- A way that is not free: what the port has waiting keeps its order. -/
def waits : State := { up with c := { up.c with bezel := { up.c.bezel with waiting := [(.hostA, .portReset .hostA)] } } }

/-- A paired access: the sequencer accepts and nothing waits; a hold blocks it; something of the port waits. O11. -/
theorem test_paired_met : seqBlocked up = false ∧ readFails up = false ∧
    (up.c.bezel.waiting.any fun w => decide (w.1 = Requester.hostA.source)) = false ∧ seqBlocked State.reset = true ∧
    (waits.c.bezel.waiting.any fun w => decide (w.1 = Requester.hostA.source)) = true ∧ ¬ wayFree waits .hostA := by
  unfold wayFree; decide

/-- ERR_STICKY with two bits, one of them masked; the lowest fresh bit is the one unmasked. O12. -/
theorem test_error_records_met :
    let t := wr (wr up.c.regs Pg.AIR Reg.HDR_ERR_STICKY 3) Pg.AIR Reg.HDR_ERR_MASK 2
    let fresh := rd t Pg.AIR Reg.HDR_ERR_STICKY &&& rd t Pg.AIR Reg.HDR_ERR_MASK &&& ~~~(0 : Word)
    bitOf fresh 1 = true ∧ (∀ k, k < 1 → bitOf fresh k = false) ∧ rd t Pg.AIR Reg.HDR_ERR_FIRST = 0 := by decide

/-- A page with counters and the range they lie in. O13. -/
theorem test_counter_pages_met : ∃ e ∈ counterMap, e.1 < 64 ∧ e.2.2.1 ≤ e.2.2.2 := by decide

/-- An input of a host port waits and may be sequenced, or may not; a time input right after one; a received frame. O14. -/
theorem test_inputs_met :
    takeWaiting .hostA waits.c.bezel.waiting = some (.portReset .hostA, []) ∧ (Input.portReset .hostA).direct = none ∧
    seqBlocked waits = false ∧ (Input.time 0 false false).isTime = true ∧ catchFull up = false ∧ seqOpen up = true ∧
    (seqBlocked up || up.c.bezel.waiting.any fun e => decide (e.1 = .units)) = false ∧
    (seqBlocked State.reset || State.reset.c.bezel.waiting.any fun e => decide (e.1 = .units)) = true := by decide

/-- A received frame of class 0. -/
def frame0 : RxFrame :=
  { rx := { sfdLt := 1, endLt := 2, psduLen := 5, mode := 2, port := .m, channel := 0, lane := 0, rssi := 0, nearTx := false,
            foUndisc := false, freqOfs := 0, lqi := 0, phyOpt := 0, rxStatus := 0, airClass := 0, ackSent := false, ackPend := false,
            ackEnh := false, ackTime := false, ackAirtime := 0 }
    psdu := [0x41, 0x88, 1, 2, 3] }

/-- Side A with one input waiting. -/
def withIn (s : State) (i : Input) : State := withA s fun d => { d with inq := [{ seq := 7, lt := 999999999, inp := i, seen := s.c.seen }] }

/-- Each kind of input at the front of a side's queue. O15 and the consumptions of every chapter. -/
theorem test_consumptions_met : ([.time 0 false false, .sourceState 64 true, .notice (.airWrite Reg.AIR_OWN_CFG 1),
    .notice (.chzCommit .h 255 ⟨0, 0, 0, false⟩), .rxFrame frame0, .plDone (.set true 5) 3, .notice .tamper, .notice .loupeOpen, .notice .loupeClose,
    .ethFrame ⟨false, 1, 0, 0, []⟩, .launchDone ⟨3, .m, 0, 0, 0, 0, 0⟩] : List Input).all (fun i =>
      decide ((nextInput (withIn up i) .a).map (·.inp) = some i)) = true := by decide

/-- A side that runs and one that does not. -/
theorem test_sides_run_met : sideRun up .a = true ∧ sideRun up .b = true ∧ sideRun State.reset .a = false ∧
    coresRun State.reset .a = false := by decide

/-- A transaction of a side. -/
def txn0 : Txn := { body := .rootOk true, token := 1, point := 1 }

/-- Side A offers a transaction; then the twin stands offered, the same, then one that differs. -/
def offers : State := withA up fun d => { d with outq := [txn0] }
/-- The twin of `txn0` is held, offered earlier. -/
def offers2 (t : Txn) : State := { offers with c := { offers.c with bezel := { offers.c.bezel with heldB := [(5, t)] } } }

/-- O16: the first member, a matching pair, a pair that differs, and a side that works alone. -/
theorem test_outputs_met : up.variant.full = true ∧ offers.c.bezel.compares = true ∧ offers.c.bezel.held = false ∧
    offers.c.clasp.holder = some .a ∧ offers.a.outq = [txn0] ∧ offers.c.bezel.heldOf .a = [] ∧
    offers.c.bezel.joinPoint < txn0.point ∧ offers.c.bezel.heldOf .b = [] ∧ (offers2 txn0).c.bezel.heldOf .b = [(5, txn0)] ∧
    txn0.token = tokenDue offers txn0.point ∧ offers.c.clasp.grantPoint ≤ txn0.point ∧ 5 < up.c.lt ∧
    (TxnBody.rootOk false) ≠ txn0.body ∧ (TxnBody.rootOk false).cls = txn0.body.cls ∧ alone.c.bezel.st .a = .alone ∧
    soloSide alone = some .a ∧ alone.c.bezel.held = false ∧ alone.c.clasp.holder = some .a ∧ alone.c.bezel.refill = none := by decide

/-- O17: side B has not consumed an input that side A consumed more than 20 µs ago. -/
theorem test_skew_met :
    skewOver { up with c := { up.c with bezel := { up.c.bezel with leadA := [(4, up.c.lt - 20001)] } } } = some 4 ∧
    skewOver { up with c := { up.c with bezel := { up.c.bezel with leadA := [(4, up.c.lt - 20000)] } } } = none ∧
    up.c.bezel.hold = none ∧ up.c.bezel.dead = false ∧ rb up.c.regs Pg.BEZEL Reg.HDR_ERR_MASK 0 = false ∧
    rd up.c.regs Pg.BEZEL Reg.HDR_ERR_FIRST = 0 ∧ rd (wr up.c.regs Pg.BEZEL Reg.HDR_ERR_FIRST 1) Pg.BEZEL Reg.HDR_ERR_FIRST ≠ 0 := by
  decide

/-- The time state of `up` changed. -/
def timed (f : TimeState → TimeState) : State := { up with c := { up.c with time := f up.c.time } }

/-- O18: a selected source before and after acquisition, offsets at the threshold and beyond it, no edge yet and one too far off,
a PTP entry with two and three words. -/
theorem test_measurements_met :
    (timed fun t => { t with source := 1 }).c.time.source = 1 ∧ (timed fun t => { t with source := 1 }).c.time.unsync = true ∧
    (timed fun t => { t with source := 1, unsync := false }).c.time.unsync = false ∧
    ((jumpThresh up.c : Int)).natAbs ≤ jumpThresh up.c ∧ jumpThresh up.c < ((jumpThresh up.c : Int) + 1).natAbs ∧
    (up.c.time.src 3).lastMeas = none ∧
    ((timed fun t => { t with srcs := [(3, { validSince := some 1, lastMeas := some 1, off := 0 })] }).c.time.src 3).lastMeas = some 1 ∧
    ppsPlace up.c 1 = some 1 ∧ ppsPlace { up.c with lt := 2000000003 } 1 = some 2 ∧ ppsPlace up.c 500000000 = none ∧
    plumbRuns up.c = true ∧ measured (timed fun t => { t with source := 3 }).c 3 = true ∧ measured (timed fun t => { t with source := 4 }).c 4 = true ∧
    (timed fun t => { t with ppsCount := some 5 }).c.time.ppsCount = some 5 ∧ up.c.time.ppsCount = none ∧
    (timed fun t => { t with ptp := [1, 2, 3] }).c.time.ptp = [1, 2, 3] ∧ bitOf (3 : Word) 1 = true ∧ bitOf (1 : Word) 1 = false ∧
    (timed fun t => { t with ptp := [1, 2] }).c.time.ptp.length < 3 := by decide

/-- O19: a holdover longer than its limit, the crystal running and stopped, a slew. -/
theorem test_holdover_met :
    let s := withReg (timed fun t => { t with holdover := some 1, expired := false }) Pg.PLUMB Reg.PLUMB_HOLDOVER_LIMIT 0
    let u := { s with c := { s.c with lt := 2000000002, regs := wr s.c.regs Pg.PLUMB Reg.PLUMB_HOLDOVER_LIMIT 2 } }
    u.c.time.holdover = some 1 ∧ u.c.time.expired = false ∧ rd u.c.regs Pg.PLUMB Reg.PLUMB_HOLDOVER_LIMIT ≠ 0 ∧
    1 + 1000000000 * (rd u.c.regs Pg.PLUMB Reg.PLUMB_HOLDOVER_LIMIT).toNat < u.c.lt ∧ up.c.time.xtalStopped = false ∧
    (timed fun t => { t with xtalStopped := true }).c.time.xtalStopped = true ∧
    (let s := (timed fun t => { t with slewing := true, slewRem := -101, slewFrom := 0 }).c
     s.time.slewing = true ∧ (s.time.slewRem.natAbs - 100) * 1000000 ≤ rf s.regs Pg.PLUMB Reg.PLUMB_SLEW_MAX 8 0 * (s.lt - s.time.slewFrom) ∧
     slewCanEnd { s with lt := 5 } = false) ∧
    (timed fun t => { t with expired := true }).c.time.expired = true := by decide

/-- O20: pending offsets at the limit of a step and beyond it, a source that is silent too long, one to go back to. -/
theorem test_steps_and_sources_met :
    up.c.time.pend = none ∧ (timed fun t => { t with pend := some ((2 ^ 39 - 1) * 256) }).c.time.pend = some ((2 ^ 39 - 1) * 256) ∧
    (timed fun t => { t with pend := some 0 }).c.time.pend = some 0 ∧ seqBlocked up = false ∧ up.c.bezel.refill = none ∧
    (up.c.bezel.waiting.any fun w => decide (w.1 = .lath)) = false ∧ up.c.bezel.receives .a = true ∧
    silentTooLong (timed fun t => { t with srcs := [(5, { validSince := some 0, lastMeas := some 0, off := 0 })] }).c 5 = false ∧
    (let s := timed fun t => { t with source := 5, srcs := [(1, { validSince := some 0, lastMeas := some 0, off := 0 }),
        (5, { validSince := some 0, lastMeas := some 0, off := 0 })] }
     let u := { s with c := { s.c with lt := 300000000000 } }
     silentTooLong u.c 5 = true ∧ silentTooLong u.c 1 = true ∧ revertible u = some 1) ∧ revertible up = none ∧
    ((timed fun t => { t with srcs := [(4, { validSince := some 1, lastMeas := some 1, off := 0 })] }).c.time.src 4).validSince.isSome = true := by
  decide

/-- O21: timer slots armed ahead, due and late, one not armed; a pulse output enabled, due, active, on a hold. -/
theorem test_timers_met :
    let s := withReg up Pg.LATH (tmrOff Reg.LATH_TMR_CTRL 31) 1
    bitOf (1 : Word) 0 = true ∧ 0 ≤ stDiff (tmrTarget up.c.regs 0) (stOf 0) ∧ tmrArmed s.c.regs 31 = true ∧
    stDiff (tmrTarget s.c.regs 31) (stOf s.c.lt) ≤ 0 ∧ tmrArmed up.c.regs 31 = false ∧
    0 < stDiff (tmrTarget (withReg up Pg.LATH (tmrOff Reg.LATH_TMR_TGT_LO 0) 0x7FFFFFFF).c.regs 0) (stOf up.c.lt) ∧
    rb up.c.regs Pg.LATH (tmrOff Reg.LATH_TMR_CTRL 0) 1 = false ∧
    rb (withReg up Pg.LATH (tmrOff Reg.LATH_TMR_CTRL 0) 2).c.regs Pg.LATH (tmrOff Reg.LATH_TMR_CTRL 0) 1 = true ∧
    rb up.c.regs Pg.TPO (tpoOff Reg.TPO_CTRL 3) 0 = false ∧
    (let e := stOf up.c.lt
     let p : State := { up with c := up.c.setTpo 3 (TpoState.idle.rise e false) }
     let q : State := { up with c := up.c.setTpo 3 { TpoState.idle.rise e false with active := true, rising := false } }
     (p.c.tpoAt 3).next = some e ∧ (p.c.tpoAt 3).rising = true ∧ (p.c.tpoAt 3).late = false ∧ stDue e e = true ∧
     (q.c.tpoAt 3).rising = false ∧ (q.c.tpoAt 3).after = none ∧ q.c.tpoAt 3 = { q.c.tpoAt 3 with next := some e } ∧
     ((up.c.setTpo 3 (TpoState.idle.rise e true)).tpoAt 3).late = true ∧
     commonsUp p = true ∧ p.c.bezel.held = false ∧ rb p.c.regs Pg.TPO (tpoOff Reg.TPO_CTRL 3) 2 = false ∧
     rd p.c.regs Pg.TPO (tpoOff Reg.TPO_PERIOD 3) = 0) ∧
    ({ up with c := { up.c with bezel := { up.c.bezel with dead := true } } } : State).c.bezel.held = true := by decide

/-- A channel definition in use: bins 1000 ± 20, mode 2, account 15. -/
def chan0 : ChanDef := ⟨w32 (1000 + 4096 * 20 + 2 ^ 19 + 15 * 2 ^ 22), 4, 0x55, false⟩
/-- The same with LBT. -/
def chanLbt : ChanDef := { chan0 with cfg0 := setBit chan0.cfg0 21 true }

/-- Port M changed. -/
def onM (f : RfPort → RfPort) : State := { up with c := up.c.updPort .m f }

/-- A launch for port M, carrier 0. -/
def launch0 : Launch :=
  { id := 3, port := .m, carrier := 0, ch := 0, mode := 2, txLevel := 0, profile := 0, discardLate := true, lt := 1500000000,
    phyOpt := 0, preamble := 8, psdu := [1, 2, 3] }

/-- A burst of port M in a phase, from a start. -/
def burst0 (phase : BurstPhase) (ack : Bool) (start : Nat) (d : ChanDef) : Burst :=
  { isAck := ack, launch := launch0, start := start, air := 100, phase := phase, deferred := false, late := false, cut := none,
    blanking := false, endLt := 0, chan := d }

/-- Port M with one burst on carrier 3. -/
def withBurst (b : Burst) : State :=
  { up with c := up.c.updCar .m 3 (fun k => { k with bursts := [b] }) }

/-- The first burst that satisfies a test, as a test that can be evaluated. -/
theorem first_alone (k : Carrier) (f : Burst → Bool) (b : Burst) (h : k.bursts = [b]) (hf : f b = true) : firstBurst k f 0 b :=
  ⟨by rw [h]; rfl, hf, fun j c hj => absurd hj (by omega)⟩

/-- O22: centre frequencies at the ends of the range and outside it, a retune that waits, one behind a burst window, one that runs,
channel definitions that pass and that fail each check. -/
theorem test_retune_met : loInRange .s 32000 = true ∧ loInRange .s 40800 = true ∧ loInRange .s 31999 = false ∧
    loInRange .s 40801 = false ∧ portRun (onM fun q => { q with retuneReq := some 70000 }) .m = true ∧
    windowOpen up.c .m = false ∧ up.c.rfM.retuneEnd = none ∧ windowOpen (withBurst (burst0 .onAir false 0 chan0)).c .m = true ∧
    (onM fun q => { q with retuneEnd := some 1000000000 }).c.rfM.retuneEnd = some up.c.lt ∧
    chResult up.c .m 0 chan0 = 0 ∧ chResult up.c .m 0 { chan0 with cfg0 := 2 ^ 19 } ≠ 0 := by decide +kernel

/-- Port M with launches at carrier 0, transmission enabled and a channel plan. -/
def sends (l : Launch) : State :=
  let c : Commons := up.c.updPort .m fun q => { q with chans := [(0, chan0)], calDone := true }
  let s : State := { up with c := c.updCar .m 0 (fun k => { k with arrivals := [l] }) }
  withReg (withReg s Pg.RFM Reg.RF_PORT_CFG 15) Pg.RFM Reg.RF_TX_CFG 15

/-- O23: a launch on time, one at the earliest time, one that is late with each policy, one that a retune covers, one behind other
work, one that fails the parameter check. -/
theorem test_launches_met : portRun (sends launch0) .m = true ∧ (sends launch0).c.pd.leaving (portDomain .m) = false ∧
    unitOn (sends launch0).c.regs Pg.RFM = true ∧ paramOk (sends launch0).c .m launch0 = true ∧
    carrierReady (sends launch0).c .m 0 = true ∧ ((sends launch0).c.rfM.carrier 0).queue = [] ∧
    ((sends launch0).c.rfM.carrier 0).arrivals = [launch0] ∧ covered (sends launch0).c.rfM launch0.lt = false ∧
    (sends launch0).c.lt + setupNs (sends launch0).c .m chan0 ≤ launch0.lt ∧ launch0.discardLate = true ∧
    (5 : Nat) < (sends launch0).c.lt + setupNs (sends launch0).c .m chan0 ∧
    paramOk (sends launch0).c .m { launch0 with mode := 3 } = false ∧
    covered { (sends launch0).c.rfM with retuneEnd := some 1500000001 } launch0.lt = true ∧
    covered { (sends launch0).c.rfM with retuneEnd := some 1500000000 } launch0.lt = false ∧
    carrierReady (withBurst (burst0 .planned false 1100000000 chan0)).c .m 3 = false ∧
    ({ up.c with pd := { up.c.pd with doms := [(portDomain .m, .off)] } } : Commons).pd.dom (portDomain .m) ≠ .on ∧
    unitOn (withReg (sends launch0) Pg.RFM Reg.HDR_CTRL 0).c.regs Pg.RFM = false := by decide +kernel

/-- O24, O25: bursts that fall due at their boundary: planned, vetted with LBT clear, busy and past its deferral, ready, to begin,
on the air and over, ended. -/
theorem test_bursts_met :
    firstBurst ((withBurst (burst0 .planned false up.c.lt chan0)).c.rfM.carrier 3) (fun b => !b.isAck && decide (b.phase = .planned) &&
      decide (b.start ≤ up.c.lt + setupNs up.c .m b.chan)) 0 (burst0 .planned false up.c.lt chan0) ∧
    firstBurst ((withBurst (burst0 .vetted false up.c.lt chanLbt)).c.rfM.carrier 3) (fun b => b.listens (withBurst (burst0 .vetted false up.c.lt chanLbt)).c .m) 0 (burst0 .vetted false up.c.lt chanLbt) ∧
    firstBurst ((withBurst (burst0 .vetted false 1 chanLbt)).c.rfM.carrier 3) (fun b => !b.isAck && decide (b.phase = .vetted) &&
      b.chan.lbt && decide (b.start + maxDeferNs up.c .m < up.c.lt)) 0 (burst0 .vetted false 1 chanLbt) ∧
    firstBurst ((withBurst (burst0 .clear false (up.c.lt + 8000) chan0)).c.rfM.carrier 3) (fun b =>
      b.ready (withBurst (burst0 .clear false (up.c.lt + 8000) chan0)).c .m && !b.blanking &&
      decide (b.start ≤ 8000 + up.c.lt)) 0 (burst0 .clear false (up.c.lt + 8000) chan0) ∧
    firstBurst ((withBurst (burst0 .clear false up.c.lt chan0)).c.rfM.carrier 3) (fun b =>
      !b.isAck && b.ready (withBurst (burst0 .clear false up.c.lt chan0)).c .m && decide (b.start ≤ up.c.lt)) 0 (burst0 .clear false up.c.lt chan0) ∧
    firstBurst ((withBurst (burst0 .onAir false (up.c.lt - 100000) chan0)).c.rfM.carrier 3) (fun b => !b.isAck &&
      decide (b.phase = .onAir) && decide (b.fin ≤ up.c.lt)) 0 (burst0 .onAir false (up.c.lt - 100000) chan0) ∧
    firstBurst ((withBurst { burst0 .ended false 1 chan0 with blanking := true }).c.rfM.carrier 3) (fun b => decide (b.phase = .ended) &&
      b.blanking && decide (8000 + b.endLt ≤ up.c.lt)) 0 { burst0 .ended false 1 chan0 with blanking := true } ∧
    firstBurst ((withBurst (burst0 .planned true up.c.lt chan0)).c.rfM.carrier 3) (fun b => b.isAck && decide (b.phase = .planned) &&
      decide (b.start ≤ up.c.lt)) 0 (burst0 .planned true up.c.lt chan0) ∧
    firstBurst ((withBurst (burst0 .onAir true 1 chan0)).c.rfM.carrier 3) (fun b => b.isAck && decide (b.phase = .onAir) &&
      decide (b.fin ≤ up.c.lt)) 0 (burst0 .onAir true 1 chan0) := by
  refine ⟨?_, ?_, ?_, ?_, ?_, ?_, ?_, ?_, ?_⟩ <;> exact first_alone _ _ _ (by decide +kernel) (by decide +kernel)

/-- The dwell check, the duty-cycle check and the listen, each passed and failed; how an account takes acknowledgements. -/
theorem test_checks_met :
    covered (withBurst (burst0 .planned false up.c.lt chan0)).c.rfM up.c.lt = false ∧ dwellOk up.c .m chan0 0 100 = true ∧
    dwellOk up.c .m { chan0 with cfg1 := 0x155 } 0 1000 = true ∧ dwellOk up.c .m { chan0 with cfg1 := 0x155 } 0 1001 = false ∧
    dutyOk up.c chan0 100 = true ∧
    dutyOk (withReg (withReg up Pg.DUTY (acctOff Reg.DUTY_ACCT_CFG 15) 1) Pg.DUTY (acctOff Reg.DUTY_ACCT_LIMIT 15) 1).c chan0 1001 = false ∧
    lbtClear up.c .m 3 chanLbt 511 = false ∧ lbtClear up.c .m 3 chanLbt 0 = true ∧
    meetsAck up.c .m 3 (burst0 .clear false up.c.lt chanLbt) = false ∧
    meetsAck (withBurst (burst0 .planned true up.c.lt chan0)).c .m 3 (burst0 .clear false up.c.lt chanLbt) = true ∧
    (burst0 .vetted false up.c.lt chanLbt).deferred = false ∧ ({ burst0 .vetted false 1 chanLbt with deferred := true } : Burst).deferred = true ∧
    txEn up.c .m = false ∧ chan0.account = some 15 ∧
    ackMode up.c 15 ≠ 2 ∧ ackMode (withReg up Pg.DUTY (acctOff Reg.DUTY_ACCT_CFG 15) 4).c 15 = 2 ∧
    txEn (withReg up Pg.RFM Reg.RF_PORT_CFG 2).c .m = true ∧ ackDue up.c.rfM = false := by decide +kernel

/-- O26: line 23 assigned from no port to another, both ports quiet or one with a window open; enables; a calibration at its end. -/
theorem test_front_ends_met :
    let s : State := withReg { up with c := { up.c with sys := { up.c.sys with feCfg := [(23, 1)] } } } Pg.RFM (Reg.RF_FE_CFG + 4 * 23) 0x102
    fePort (feCfg s.c 23) = some .m ∧ fePort (rd s.c.regs Pg.RFM (Reg.RF_FE_CFG + 4 * 23)) = some .h ∧
    rd s.c.regs Pg.RFM (Reg.RF_FE_CFG + 4 * 23) ≠ feCfg s.c 23 ∧ windowOpen s.c .m = false ∧ windowOpen s.c .h = false ∧
    lineOpen s.c (feCfg s.c 23) = false ∧ s.c.bezel.held = false ∧ up.c.tamp.keylessBoot = false ∧
    rxEn (withReg up Pg.RFM Reg.RF_PORT_CFG 1).c .m = true ∧ up.c.rfM.calDone = false ∧ up.c.rfM.calEnd = none ∧
    portRun (onM fun q => { q with calEnd := some 1000000000 }) .m = true := by decide +kernel

/-- O27: a gap at the edge of its notice and at its start, one that ends, a bucket at its boundary. -/
theorem test_gaps_met :
    (onM fun q => { q with gapNext := some 1100000000, calDone := true }).c.rfM.gapNext = some (100000000 + up.c.lt) ∧
    (onM fun q => { q with gapNext := some 1000000000, calDone := true }).c.rfM.calDone = true ∧ up.c.rfM.noticed = false ∧
    up.c.rfM.gapEnd = none ∧ up.c.rfM.retuneEnd = none ∧ windowOpen up.c .m = false ∧
    (onM fun q => { q with gapNow := true }).c.rfM.gapNow = true ∧ burstOpen up.c .m = false ∧
    (onM fun q => { q with gapEnd := some 1000000000 }).c.rfM.gapEnd = some up.c.lt ∧ up.c.lt < up.c.duty.next ∧
    ({ up.c.duty with next := 1000000000 } : DutyState).next ≤ up.c.lt ∧
    (onM fun q => { q with dwellNext := 1000000000 }).c.rfM.dwellNext ≤ up.c.lt ∧ rb up.c.regs Pg.RFM Reg.RF_AGC_CFG 0 = false ∧
    rb (withReg up Pg.RFM Reg.RF_AGC_CFG 1).c.regs Pg.RFM Reg.RF_AGC_CFG 0 = true := by decide +kernel

/-- Port M receiving on channel 0. -/
def hears : State := withReg (onM fun q => { q with chans := [(0, chan0)], calDone := true }) Pg.RFM Reg.RF_PORT_CFG 1
/-- A detection there. -/
def det0 : Det := { ch := 0, mode := 2, chan := chan0, centreHz := 0, freq := 0, lt := 1000000000, quality := 0, power := 0 }
/-- A group opened by it. -/
def group0 : MergeGroup := { openLt := 1000000000, opener := det0, members := [] }

/-- O28, O29: a context that may detect and one that may not; no merging, no group, a group to join; a lane free, the channel at
its limit, no lane left; reservations at the limit and beyond it. -/
theorem test_detections_met : portRun hears .m = true ∧ canDetect hears.c .m 0 2 0 = true ∧ canDetect up.c .m 0 2 0 = false ∧
    rf (withReg hears RPort.m.facetPage Reg.FACET_MERGE_CFG 0).c.regs RPort.m.facetPage Reg.FACET_MERGE_CFG 7 0 = 0 ∧
    joinable (withReg hears RPort.m.facetPage Reg.FACET_MERGE_CFG 1).c .m det0 [] = none ∧
    joinable (withReg hears RPort.m.facetPage Reg.FACET_MERGE_CFG 1).c .m det0 [group0] = some group0 ∧
    groupOpen { (withReg hears RPort.m.facetPage Reg.FACET_MERGE_CFG 1).c with lt := 1000001000 } .m group0 = false ∧
    boundOn hears.c.rfM 0 < effLimit (chLanes hears.c .m 0) ∧ owedOthers hears.c .m 0 + 1 ≤ lanesAvail hears.c .m ∧
    rxEn hears.c .m = true ∧ blanked hears.c .m chan0.lowBin chan0.highBin = false ∧
    lanesAvail (withReg hears RPort.m.facetPage Reg.FACET_PORT_LIMIT 0).c .m < owedOthers hears.c .m 0 + 1 ∧
    rsvSum up.c .m ≤ portLimit up.c .m ∧
    (let c := (withReg up RPort.m.facetPage Reg.FACET_PORT_LIMIT 0).c;
     portLimit c .m < rsvSum { c with regs := wrI c.regs RPort.m.facetPage Reg.FACET_CH_LANES 255 1 } .m) := by decide +kernel

/-- A lane of port M in each stage of a frame. -/
def lane0 (sfd : Option Nat) (phr : Option PhrData) (endLt : Option Nat) : Lane :=
  { no := 64, ch := 0, mode := 2, power := 0, chan := chan0, bindLt := 1, sfdLt := sfd, phr := phr, endLt := endLt, nearTx := false,
    foUndisc := false }
/-- Port M with it. -/
def withLane (l : Lane) : State := onM fun q => { q with chans := [(0, chan0)], calDone := true, lanes := [l] }
/-- A PHR that is good. -/
def phr0 : PhrData := { checkOk := true, modeSwitch := false, len := 5, phyOpt := 0 }
/-- A data frame to a short address with good FCS; filters open. -/
def data0 : List Byte := [0x41, 0x98, 7, 1, 0, 2, 0, 3, 0, 0x80, 0, 0]

/-- O30, O31: a lane before and after its SFD, at its timeout and before it, PHRs good and bad, a frame at its end, one that the filter
drops, one whose FCS is bad. -/
theorem test_lanes_met :
    (withLane (lane0 none none none)).c.rfM.lane 64 = some (lane0 none none none) ∧ portRun (withLane (lane0 none none none)) .m = true ∧
    (lane0 none none none).bindLt + rf up.c.regs RPort.m.facetPage Reg.FACET_SFD_TO 9 0 * octetNs 2 ≤ up.c.lt ∧
    0 < rf up.c.regs RPort.m.facetPage Reg.FACET_SFD_TO 9 0 * octetNs 2 ∧ phrOk 2 phr0 = true ∧
    phrOk 2 { phr0 with checkOk := false } = false ∧ chan0.protect = false ∧
    (lane0 (some 1) (some phr0) (some 1000000000)).endLt = some up.c.lt ∧
    rb up.c.regs RPort.m.facetPage Reg.FACET_CFG 0 = false ∧
    (∃ off, filterFrame (closeLane (withLane (lane0 (some 1) (some phr0) (some 5))).c .m 64 RPort.m.facetPage Reg.FACET_FCS_OK)
      (beforeFcs [1] (fcsLen 2 0)) = .drop off) := by
  refine ⟨by decide +kernel, by decide +kernel, by decide +kernel, by decide +kernel, by decide +kernel, by decide +kernel, by decide +kernel, by decide +kernel, by decide +kernel, ⟨_, rfl⟩⟩

/-- O31: a good frame that passes as HOST in promiscuous mode, room in the receive buffer and none. -/
theorem test_filter_passes_met :
    (match filterFrame (closeLane (withReg (withLane (lane0 (some 1) (some phr0) (some 5))) Pg.AIR Reg.AIR_FILT_EXP 3).c .m 64
        RPort.m.facetPage Reg.FACET_FCS_OK) (beforeFcs data0 (fcsLen 2 0)) with
     | .pass cls promisc h => decide (cls = 1) && promisc && !ackWanted up.c .m cls promisc h
     | .drop _ => false) = true ∧
    up.c.air.cellsUsed < rxCells ∧ rxCells ≤ ({ up.c.air with sentUp := 512 } : AirState).cellsUsed := by decide

/-- The air state of `up` changed. -/
def aired (f : AirState → AirState) : State := { up with c := { up.c with air := f up.c.air } }

/-- O32: a SET of an entry that is there, of one that is not, of one that finds the list full; a CLEAR; a CLEAR_ALL; a query. -/
theorem test_pending_list_met : (aired fun a => { a with updates := [.set true 5], list := [11] }).c.air.updates = [.set true 5] ∧
    plKey true 5 ∈ [11] ∧ plKey false 5 ∉ [11] ∧ [11].length < plMax ∧ plMax ≤ (List.range plMax).length ∧
    plKey true (2 ^ 64 - 1) ∉ List.range plMax ∧
    bitOf (2 : Word) 1 = true ∧ unitsRun (aired fun a => { a with updates := [.clearAll] }) = true := by
  exact ⟨rfl, by decide, by decide, by decide, Nat.le_of_eq List.length_range.symm,
    fun h => absurd (List.mem_range.mp h) (by decide), by decide, by decide⟩

/-- A frame of node 9 parked or released. -/
def fr0 : Frame :=
  { id := 3, item := none, node := 9, tenant := 0, service := 0, group := 1, ch := 0, mode := 2, phyOpt := 0, txLevel := 0,
    profile := 0, ar := true, macSeq := some 5, psdu := [1, 2, 3], session := false, cell := none, seq := 1, relaunches := 0,
    waited := [], skipped := none, deferred := [], fc := 0 }
/-- A released frame whose acknowledgement is due at an LT, in a window or not. -/
def rel0 (win : Option WinTx) : Released :=
  { f := fr0, port := 4, t := 1, air := 1, took := 0, burstEnd := some 1, ackBy := some 1000000000, win := win }
/-- A window record of node 9. -/
def rec0 : WinRec := { mesh := 9, nom := 0, period := 1000, len := 1, anchor := 0, eps := 0, k := 0, noack := false }
/-- A relay decision that is due. -/
def relay0 : Relay :=
  { place := 5, due := some 1000000000
    f := { seq := 0, lt := 0, rx := frame0.rx, psdu := [], dml := ⟨1, 0, false, false, false, 1, 0, 0, 0, 9, 1⟩, level := 0, fc := 0,
           epoch := 0, link := false, known := false, eui := 0, srcExt := false, payIes := [], plain := [] } }
/-- A Skim entry. -/
def skim0 : SkimEntry := { orig := 9, seq := 1, ty := 0, pend := false, heard := 2, port := 0, channel := 0, copies := 0, expiry := 9000000 }
/-- A store of one entry. -/
def tab1 {α : Type} (n : Nat) (x : α) : Tab α := [(n, x)]
/-- Side A of `up`. -/
def d0 : Side := up.a
/-- A side with a register written. -/
def dReg (d : Side) (page off : Nat) (v : Word) : Side := { d with regs := wr d.regs page off v }

/-- O33: what is due and what is not: parked frames, refused SETs, acknowledgements with and without a window, scheduled windows, relay
decisions heard often enough and not, the sweep. -/
theorem test_side_times_met :
    (let due := d0.trowel.released.filter fun r => match r.ackBy with
      | some t => decide (t ≤ d0.tick)
      | none => false
     due = []) ∧
    ([rel0 none, rel0 (some ⟨1, 0, none⟩)].all fun r => match r.ackBy with
      | some t => decide (t ≤ d0.tick)
      | none => false) = true ∧
    rf (dReg d0 Pg.PEND Reg.PEND_CFG 0).regs Pg.PEND Reg.PEND_CFG 11 8 ≤ (0 : Nat) ∧
    rf (dReg d0 Pg.PEND Reg.PEND_MAX_WINDOWS 0).regs Pg.PEND Reg.PEND_MAX_WINDOWS 7 0 = 0 ∧
    1000000000 * (rf (dReg d0 Pg.PEND Reg.PEND_MAX_AGE 1).regs Pg.PEND Reg.PEND_MAX_AGE 23 0) ≠ 0 ∧
    1000000000 * (rf (dReg d0 Pg.PEND Reg.PEND_MAX_AGE 0).regs Pg.PEND Reg.PEND_MAX_AGE 23 0) = 0 ∧
    (d0.pend.unann.filter fun e => decide (e.2 ≤ d0.now)) = [] ∧
    ([(9, 1000000000)].filter fun e => decide (e.2 ≤ d0.now)) = [(9, 1000000000)] ∧
    (tab1 9 (true, 5)).find 9 = some (true, 5) ∧
    (d0.pend.recs.filter fun e => d0.winDue e.2) = [] ∧ d0.winDue rec0 = true ∧ d0.oldest 9 = none ∧
    (match relay0.due with | some t => decide (t ≤ d0.tick) | none => false) = true ∧
    (tab1 5 skim0).find relay0.place = some skim0 ∧
    rf (dReg d0 Pg.DML Reg.DML_SUPP_K 2).regs Pg.DML Reg.DML_SUPP_K 3 0 ≤ skim0.heard ∧
    rf (dReg d0 Pg.DML Reg.DML_SUPP_K 2).regs Pg.DML Reg.DML_SUPP_K 3 0 ≠ 0 ∧
    skim0.heard < rf (dReg d0 Pg.DML Reg.DML_SUPP_K 3).regs Pg.DML Reg.DML_SUPP_K 3 0 ∧ d0.ownEui = 0 ∧
    d0.mesh.sweepNext ≤ d0.now ∧ ({ d0 with now := 0, mesh := { d0.mesh with sweepNext := 1 } } : Side).now < 1 := by decide +kernel

/-- A context. -/
def ctx0 : LpCtx := { prefix_ := 0, len := 64, en := true, comp := true }
/-- A node entry. -/
def node0 : NodeEntry :=
  { mesh := 9, eui := 5, tenant := 0, lock := false, hit := false, pend := false, static_ := false, learned := false, port := 0, age := 0,
    prefPort := 0, prefPin := false, epoch := 0, lastHeard := 0, rssi := 0, prefMode := 2, lqi := 0, prefChan := 0, ulFc := 0, dlFc := 0 }
/-- Where an entry of mesh ID 9 lies. -/
def at9 : Nat := (candidates d0.hashSeed (beBytes 4 9)).headD 0
/-- A side that holds the node. -/
def dNode (e : NodeEntry) : Side := { d0 with node := { d0.node with nodes := [(at9, e)] } }
/-- A side in a Sander pass that visits the entry of the node. -/
def dPass (e : NodeEntry) (p : Nat) : Side :=
  let d := { dNode e with node := { (dNode e).node with nodes := [(0, e)], passAt := some p, passLen := 1 } }
  dReg d Pg.SANDER Reg.SANDER_CFG 1

/-- O34: a Sander visit that is due and one that is not, at the first and the last entry, an entry of each kind; a lock held too long;
window records and contexts. -/
theorem test_tables_met :
    rb (dPass node0 1000000000).regs Pg.SANDER Reg.SANDER_CFG 0 = true ∧ (dPass node0 1000000000).node.passAt = some 1000000000 ∧
    visitLt 1000000000 1 (dPass node0 1000000000).sanderPos ≤ d0.now ∧ d0.now < visitLt 1000000001 1 (dPass node0 1).sanderPos ∧
    (dPass node0 1).sanderPos + 1 < tableSize ∧ (dReg (dPass node0 1) Pg.SANDER Reg.SANDER_POS 262143).sanderPos + 1 = tableSize ∧
    visitLt 0 1 262143 ≤ d0.now ∧ ((dPass node0 1).node.nodes.filter fun e => decide (e.1 = 0)) = [(0, node0)] ∧
    rb (dReg d0 Pg.SANDER Reg.SANDER_CFG 0).regs Pg.SANDER Reg.SANDER_CFG 0 = false ∧ d0.node.nodes = [] ∧ (dNode node0).node.nodes ≠ [] ∧
    (let d := { d0 with node := { d0.node with locks := [⟨0, 0, 0, 1, false⟩] } }
     let limit := rf (dReg d Pg.NODE Reg.NODE_LOCK_TO 1).regs Pg.NODE Reg.NODE_LOCK_TO 15 0
     d.node.locks[0]? = some ⟨0, 0, 0, 1, false⟩ ∧ limit ≠ 0 ∧ 1000000 * limit < d.now - 1) ∧
    ({ d0 with pend := { d0.pend with recs := [(0, rec0)] } } : Side).pend.recs.find d0.winIdx = some rec0 ∧ rec0.nom < 2 ^ 64 ∧
    d0.pendReg Reg.PEND_WIN_PERIOD < 1000 ∧ (dReg d0 Pg.PEND Reg.PEND_WIN_PERIOD 1000).pendReg Reg.PEND_WIN_PERIOD = 1000 ∧
    rf (dReg d0 Pg.PEND Reg.PEND_WIN_LEN 1).regs Pg.PEND Reg.PEND_WIN_LEN 19 0 ≠ 0 ∧
    ((dNode node0).nodeAt 9).isSome = true ∧ (d0.nodeAt 9).isSome = false ∧
    (tab1 0 ctx0).find (rf d0.regs Pg.LOWPAN Reg.LOWPAN_CTX_IDX 3 0) = some ctx0 := by decide +kernel

/-- A received mesh frame: short addresses, no security, a DML header. -/
def meshFrame : RxFrame := { frame0 with psdu := [0x41, 0x98, 7, 1, 0, 2, 0, 3, 0] ++ dmlOctets relay0.f.dml ++ [0, 0] }

/-- O35: a frame with a bad status, one that is no mesh frame; headers that are refused and that pass; a copy that Skim holds; a SET that
is known. -/
theorem test_received_met : ({ frame0.rx with rxStatus := 1 } : RxMeta).rxStatus ≠ 0 ∧ frame0.rx.rxStatus = 0 ∧ frame0.rx.airClass = 0 ∧
    frame0.rx.ackPend = false ∧ unitOn d0.regs Pg.DML = true ∧ parseFrame frame0 = none ∧
    (parseFrame meshFrame).map (·.dml) = some relay0.f.dml ∧ unitOn (dReg d0 Pg.DML Reg.HDR_STAT 0).regs Pg.DML = false ∧ (({ frame0.rx with airClass := 2 } : RxMeta).airClass = 2) ∧
    (parseMhr [0x02, 0x00, 7]).isSome = true ∧ (d0.trowel.released.find? (d0.ackMatches frame0.rx (some 7))) = none ∧
    (relay0.f.dml.ver = 1 ∧ relay0.f.dml.ty ≠ 1 ∧ relay0.f.dml.ty < 5) ∧
    (dReg d0 Pg.DML Reg.DML_TEN_EN 1).dmlRefusal relay0.f.dml = none ∧ (dReg d0 Pg.DML Reg.DML_TEN_EN 0).dmlRefusal relay0.f.dml = some Reg.DML_TENANT ∧
    (dReg d0 Pg.DML Reg.DML_TEN_EN 1).dmlRefusal { relay0.f.dml with ver := 2 } = some Reg.DML_VERSION ∧
    unitOn d0.regs Pg.SKIM = true ∧
    ({ d0.pend with addrs := [(9, (true, 5))] } : PendState).nodeOf true 5 = some 9 := by decide +kernel

/-- A copy that Skim holds, at the set of its message, whichever it is. -/
theorem test_skim_copy_met : ∃ d : Side, d.skimFind 9 1 = some (Config.skimSet 9 1 % 16384 * 8, skim0) ∧ skim0.pend = false := by
  let d : Side := { d0 with mesh := { d0.mesh with skim := [(Config.skimSet 9 1 % 16384 * 8, skim0)] } }
  have h : Config.skimSet 9 1 % 16384 * 8 / 8 = Config.skimSet 9 1 % 16384 := by omega
  have w : d.skimWays (Config.skimSet 9 1 % 16384) = [(Config.skimSet 9 1 % 16384 * 8, skim0)] := by
    simp only [Side.skimWays, d, List.filter_cons, h, decide_true, if_true, List.filter_nil]
  have l : (decide (skim0.orig = 9) && decide (skim0.seq = 1) && d.skimLive skim0) = true := by
    show (decide (skim0.orig = 9) && decide (skim0.seq = 1) && (skim0.pend || decide (0 < stDiff skim0.expiry (stOf d0.now)))) = true
    decide
  refine ⟨d, ?_, rfl⟩
  unfold Side.skimFind
  rw [w]
  exact List.find?_cons_of_pos l

/-- A strand 2 of HOST_IN with one item of a type and code, of a good length or not. -/
def dItem (ty code len : Nat) : Side :=
  let d : Side := { d0 with regs := wrI d0.regs Pg.STRAND Reg.STRAND_CFG 2 0x80040001, mesh := { d0.mesh with seqLoaded := true } }
  d.updRing 2 fun r => { r with slots := [⟨itemDesc ty code len 0 0 0 7 0, some 4, none, 0⟩], ended := 1, cells := [4] }

/-- An item is taken, and whether it keeps the rules of R379. -/
def takesItem (d : Side) (n : Nat) : Option Bool := (d.takeItem n).1.map Taken.ok

/-- O36: a command item that is taken, no item, an item that is no command; prefix commands that must wait. -/
theorem test_commands_met : (dItem tyCommand 1 5).nextItem 2 = some (itemDesc tyCommand 1 5 0 0 0 7 0) ∧ d0.nextItem 2 = none ∧
    (itemDesc tyCommand 1 5 0 0 0 7 0).ty = tyCommand ∧ (itemDesc tyCommand 1 5 0 0 0 7 0).code = 1 ∧
    (itemDesc tyFrame 0 5 0 0 0 7 0).ty ≠ tyCommand ∧ knownCode 1 = true ∧ knownCode 63 = false ∧
    unitOn d0.regs Pg.NODE = true ∧ unitOn (dReg d0 Pg.NODE Reg.HDR_CTRL 0).regs Pg.NODE = false ∧ d0.node.camOld = none ∧
    ({ d0.node with camOld := some [] } : NodeState).camOld.isSome = true ∧ d0.movesAwaited = false ∧
    ({ dItem tyFrame 0 5 with node := { d0.node with camSeq := 9 } } : Side).movesAwaited = true ∧
    (dItem tyFrame 0 5).behindMoves 2 = false ∧ (dItem tyFrame 0 5).mesh.seqLoaded = true ∧ d0.mesh.seqLoaded = false := by decide +kernel

theorem test_items_taken_met : takesItem (dItem tyCommand 1 5) 2 = some true ∧ takesItem (dItem tyCommand 63 5) 2 = some true ∧
    takesItem (dItem tyCommand 1 2049) 2 = some false := ⟨rfl, rfl, rfl⟩

/-- The table commands: a node that is there, locked or not, and one that is not; scans and prefixes at their limits. -/
theorem test_table_commands_met :
    (dNode node0).nodeAt (leAt (leBytes 4 9) 0 4) = some (at9, node0) ∧ node0.lock = false ∧ (dNode node0).node.locks.length < 16 ∧
    (dNode node0).nodeAt (unpackNode (packNode node0)).mesh = some (at9, node0) ∧ byteAt (0 :: leBytes 4 9) 0 = 0 ∧
    (dNode node0).nodeAt (leAt (0 :: leBytes 4 9) 1 4) = some (at9, node0) ∧ d0.nodeAt 9 = none ∧
    (unpackNode (packNode { node0 with lock := true })).lock = true ∧ tableSize ≤ leAt (leBytes 4 262144 ++ [1]) 0 4 ∧
    leAt (leBytes 4 262143 ++ [64]) 0 4 < tableSize ∧ byteAt (leBytes 4 262143 ++ [64]) 4 ≤ 64 := by decide +kernel

/-- A masked key of a type and attributes. -/
def key0 (ty attr tenant : Nat) : KeySlot := { ty := ty, attr := attr, tenant := tenant, any := false, dattr := 0, key := List.replicate 16 0 }
/-- A side with a root, two slots and TRNG words. -/
def dKeys (words : Nat) (slots : Tab KeySlot) : Side :=
  { d0 with trng := (List.range words).map (fun n => BitVec.ofNat 64 n)
            key := { d0.key with root := some (List.replicate 32 1), slots := slots } }
/-- A cache entry. -/
def cache0 : CacheEntry :=
  { kind := 2, tenant := 1023, epoch := 255, eui := 5, attr := 0, devGen := 0, slotGen := 0, tenGen := 0, slot := 0, key := [], stamp := 0 }

/-- Its derivation, for the frame of input 1. -/
def flight0 : Flight := { entry := cache0, uses := [1] }

/-- O37: TRNG words enough and too few, a re-mask pass due and not, a derivation, generations at their last value, slots present, absent
and beyond the last, exports refused at each check, an update message that is refused. -/
theorem test_keys_met :
    (dKeys 4 []).draws = [] ∧ DrawFor.enrol.words ≤ (dKeys 4 []).trng.length ∧ (dKeys 3 []).trng.length < DrawFor.enrol.words ∧
    DrawFor.remask.words ≤ (dKeys 2 []).trng.length ∧ (dKeys 0 []).trng.length < DrawFor.txSeq.words ∧
    (dKeys 4 []).waitsFor .enrol = false ∧ ({ d0 with draws := [⟨.enrol, [1]⟩] } : Side).waitsFor .enrol = true ∧
    (dKeys 2 []).key.remaskNext ≤ (dKeys 2 []).now ∧ d0.now < d0.nextRemask d0.now ∧
    ({ d0.key with remaskNext := 1000000001 } : KeyState).remaskNext > d0.now ∧ d0.node.held = [] ∧ d0.key.flights = [] ∧
    ({ d0.key with flights := [flight0] } : KeyState).flights = flight0 :: [] ∧
    (dKeys 0 (tab1 2047 (key0 1 0 5))).key.slots.find 2047 = some (key0 1 0 5) ∧
    (maskOf (dKeys 0 []).key.mp 2047 (key0 1 0 5).key.length).length = (key0 1 0 5).key.length ∧
    (maskOf [1, 2, 3, 4, 5, 6, 7, 8, 9, 10, 11, 12, 13, 14, 15, 16] 2047 16).length = 16 ∧
    ({ d0 with key := { d0.key with tenGens := tab1 1023 (2 ^ 32 - 1) } } : Side).tenGen 1023 = 2 ^ 32 - 1 ∧
    leAt (leBytes 2 2047) 0 2 < 2048 ∧ 2048 ≤ leAt (leBytes 2 2048) 0 2 ∧ leAt (leBytes 2 1023) 0 2 < 1024 ∧ d0.key.root = none ∧
    (dKeys 0 []).key.slots.find 3 = none ∧ nbit (key0 1 64 5).attr 6 = true ∧ nbit (key0 1 0 5).attr 6 = false ∧
    nbit (key0 1 16 5).attr 4 = true ∧ (key0 1 16 5).ty ≠ 3 ∧ (key0 1 16 6).tenant ≠ (key0 1 64 5).tenant ∧
    (match d0.checkUpdate [] with | .error st => decide (st = 1) | .ok _ => false) = true := by decide +kernel

/-- O38: tamper sources enabled and not, a Locket asleep and a key operation, a lockout that runs and one that is over, a challenge with
and without its TRNG words, no nonce and one that has expired, Loupe open, a side that a trip took out. -/
theorem test_tamper_met :
    rb (withReg up Pg.TAMP Reg.TAMP_SRC_EN 0).c.regs Pg.TAMP Reg.TAMP_SRC_EN 6 = false ∧
    rb (withReg up Pg.TAMP Reg.TAMP_SRC_EN 0x7F).c.regs Pg.TAMP Reg.TAMP_SRC_EN 6 = true ∧ locketSleeps up .a = false ∧
    locketSleeps { up with c := { up.c with pd := { up.c.pd with doms := tab1 (locketDomain .a) .ret } } } .a = true ∧
    keyBusy (withA up fun d => { d with key := { d.key with flights := [flight0] } }) = true ∧ rd up.c.regs Pg.TAMP Reg.TAMP_CAUSE = 0 ∧
    rd (withReg up Pg.TAMP Reg.TAMP_CAUSE 1).c.regs Pg.TAMP Reg.TAMP_CAUSE ≠ 0 ∧ up.c.tamp.lockEnd = none ∧
    up.c.lt < ({ up.c.tamp with lockEnd := some 1000000001 } : TampState).lockEnd.getD 0 ∧
    ({ up.c.tamp with lockEnd := some 1000000000 } : TampState).lockEnd.getD 0 ≤ up.c.lt ∧
    4 ≤ ({ up.c.tamp with trng := [1, 2, 3, 4] } : TampState).trng.length ∧ up.c.tamp.trng.length < 4 ∧ up.c.tamp.nonce = none ∧
    0 + 1000000000 * (clampNat 1 255 (rf (withReg up Pg.LOUPE Reg.LOUPE_NONCE_TTL 1).c.regs Pg.LOUPE Reg.LOUPE_NONCE_TTL 7 0)) < up.c.lt + 1 ∧
    loupeVerdict up.c ≠ 0 ∧ up.c.tamp.opened = none ∧ up.c.tamp.fails < 2 ∧
    ({ up.c.tamp with opened := some (0, false) } : TampState).opened.isSome = true ∧
    nextInput alone .b = none ∧ alone.c.bezel.st .a = .alone ∧ d0.mram.helper = none := by decide +kernel

/-- A side with a frame at the head of a queue. -/
def dQueue : Side := { d0 with trowel := { d0.trowel with queues := tab1 fr0.queue [fr0] } }

/-- O39: launches that went out and that did not, with an acknowledgement or a window and without, relaunches left and none; carriers that
may release and that may not; host ports with and without a head. -/
theorem test_releases_met :
    ({ d0.trowel with released := [rel0 none] } : TrowelState).flight 3 = some (rel0 none) ∧ fr0.ar = true ∧
    (rel0 (some ⟨1, 0, none⟩)).win.isSome = true ∧ stLaunched = 0 ∧ stMissed ≠ stLaunched ∧ stMissed ≠ stLate ∧ stMissed ≠ stAborted ∧
    stMissed ≠ stBadParam ∧ fr0.relaunches < rf (dReg d0 Pg.TROWEL Reg.TROWEL_CFG 0x1C00).regs Pg.TROWEL Reg.TROWEL_CFG 12 10 ∧
    rf (dReg d0 Pg.TROWEL Reg.TROWEL_CFG 0).regs Pg.TROWEL Reg.TROWEL_CFG 12 10 ≤ fr0.relaunches ∧ unitOn d0.regs Pg.TROWEL = true ∧
    RPort.ofNum (11 / 4) = some .h ∧ d0.rateOk = true ∧
    ({ d0 with trowel := { d0.trowel with rateSec := 1, rateCnt := 20000 } } : Side).rateOk = false ∧
    (dReg d0 Pg.TROWEL Reg.TROWEL_CAR_EN 0xFFF).carEn 11 = true ∧ (dReg d0 Pg.TROWEL Reg.TROWEL_CAR_EN 0).carEn 11 = false ∧
    (d0.trowel.booked 11).any (fun b => decide (b.1 ≤ 0) && decide (0 < b.2)) = false ∧
    dQueue.trowel.heads 1 = [fr0] ∧ dQueue.isHeld fr0 = false ∧ groupPresent .kl9680 (trowelGroup 12) = true ∧
    groupPresent .kl9620 (trowelGroup 13) = false ∧ d0.roomAt 14 = true ∧ d0.bestCand 14 [] = none := by decide +kernel

/-- The gates of carrier 0 with a schedule loaded. -/
def dGate (len cycle base : Nat) (pend : Option Nat) (pol : Bool) : Side :=
  { d0 with trowel := { d0.trowel with gates := tab1 d0.carIdx { GateState.reset with
      latePol := pol, pend := pend, adm := { GateBank.reset with len := len, cycle := cycle, base := base } } } }

/-- O40: a swap pending, schedules that break a rule, a base time SWAP_LAT ahead and one ns nearer with each policy, a swap due and not. -/
theorem test_gates_met : carrierPresent up.variant d0.carIdx = true ∧
    ((dGate 1 1000000 0 (some 5) true).gate d0.carIdx).pend.isSome = true ∧ ((dGate 0 1000000 0 none true).gate d0.carIdx).adm.len = 0 ∧
    ((dGate 1 999999 0 none true).gate d0.carIdx).adm.cycle < 1000000 ∧
    (let d := dGate 1 1000000 (d0.now + d0.swapLat) none false
     (d.gate d0.carIdx).pend = none ∧ (d.gate d0.carIdx).adm.len ≠ 0 ∧ 1000000 ≤ (d.gate d0.carIdx).adm.cycle ∧
     d.now + d.swapLat ≤ (d.gate d0.carIdx).adm.base) ∧
    (let d := dGate 1 1000000 (d0.now + d0.swapLat - 1) none true
     (d.gate d0.carIdx).adm.base < d.now + d.swapLat ∧ (d.gate d0.carIdx).latePol = true) ∧
    ((dGate 1 1000000 0 none false).gate d0.carIdx).latePol = false ∧ bitOf (3 : Word) 2 = false ∧ bitOf (3 : Word) 3 = false ∧
    ((dGate 1 1000000 0 (some 1000000000) true).gate d0.carIdx).pend = some d0.now ∧ d0.now < 1000000001 := by decide +kernel

/-- O41: arguments of the commands at their limits, slots busy and free, versions and floors, an image in use; an image of 8 octets whose
hash is given; a trial over and not, a verification due and not. What rests on the fused key hash has no witness that can be computed. -/
theorem test_images_met :
    (let a : List Byte := [0] ++ leBytes 4 (slotBytes - 8) ++ List.replicate 8 0
     byteAt a 0 < 2 ∧ 8 ≤ (a.drop 5).length ∧ (a.drop 5).length % 8 = 0 ∧ leAt a 1 4 + (a.drop 5).length ≤ slotBytes ∧
     slotBytes < leAt ([0] ++ leBytes 4 (slotBytes - 7) : List Byte) 1 4 + 8) ∧
    d0.slotBusy 0 = true ∧ d0.slotBusy 1 = false ∧ fwSigOk [] = false ∧ d0.fwRefusal true true = 7 ∧ d0.fwRefusal true false ≠ 0 ∧
    ({ d0 with fw := { d0.fw with okB := true } } : Side).fwRefusal true false = 0 ∧ d0.fw.run < 2 ∧
    2 ≤ ({ d0.fw with run := 2 } : FwState).run ∧ d0.imageInUse 7 = false ∧
    ({ d0 with sess := { d0.sess with active := true, image := 7 } } : Side).imageInUse 7 = true ∧
    (let d : Side := { d0 with fw := { d0.fw with doneAt := some 0, trial := true } }
     let limit := rf (dReg d Pg.MRAM Reg.MRAM_TRIAL_TO 1).regs Pg.MRAM Reg.MRAM_TRIAL_TO 15 0
     limit ≠ 0 ∧ d.fw.trial = true ∧ d.fw.expired = false ∧ 0 + 1000000000 * limit ≤ d.now ∧ d.now < 1 + 1000000000 * limit) ∧
    ({ d0.fw with verifyAt := some 1000000000, verify := 3 } : FwState).verifyAt.getD 0 ≤ d0.tick ∧
    d0.tick < ({ d0.fw with verifyAt := some 1000000001 } : FwState).verifyAt.getD 0 ∧ nbit 3 1 = true ∧ nbit 1 1 = false := by
  decide +kernel

theorem test_image_commit_met :
    let h := sha256 (d0.imageData 0 0 8)
    let a : List Byte := [0] ++ leBytes 4 8 ++ leBytes 4 0 ++ h
    byteAt a 0 < 8 ∧ leAt a 1 4 = 8 ∧ leAt a 5 2 < 1024 ∧ 41 ≤ a.length ∧ d0.imageInUse 0 = false ∧
    sha256 (d0.imageData 0 0 8) = slice a 9 32 ∧ sha256 (d0.imageData 0 0 8) ≠ slice ([0] ++ a) 9 32 := by decide +kernel

/-- A broadcast of one block of two symbols of 4 octets. -/
def ibe0 (phase : Nat) : IbeState :=
  { up.c.ibe with phase := phase
                  args := { up.c.ibe.args with t := 4, z := 1, srcFirst := true, target := 1, data := [1, 2, 3, 4, 5, 6, 7, 8] } }
/-- The engine in that state. -/
def withIbe (k : IbeState) : State := { up with c := { up.c with ibe := k } }

/-- O42: the engine in each phase, a block open and none left, reports below the target and at it, a stop time reached and not; a start
refused while a session runs. -/
theorem test_broadcast_met : ibeRun (withIbe (ibe0 2)) = true ∧ ibeRun State.reset = false ∧ (ibe0 2).nextBlock = some 0 ∧
    ({ ibe0 2 with sent := tab1 0 1 } : IbeState).nextBlock = some 0 ∧ ({ ibe0 2 with sent := tab1 0 2 } : IbeState).nextBlock = none ∧
    (ibe0 2).esiOf 0 < (ibe0 2).kOf 0 ∧ (ibe0 2).args.target ≠ 0 ∧ (ibe0 2).args.target ≤ (ibe0 2).reports + 1 ∧
    ({ (ibe0 2).args with target := 0 } : IbeArgs).target = 0 ∧
    ({ ibe0 2 with stopLt := some 1000000000 } : IbeState).stopLt.getD 0 ≤ up.c.lt ∧
    up.c.lt < ({ ibe0 2 with stopLt := some 1000000001 } : IbeState).stopLt.getD 0 ∧
    ({ d0.sess with active := true } : SessState).active = true ∧ d0.sess.active = false ∧ byteAt [1] 0 = 1 := by decide +kernel

/-- Strand 2 in a mode and direction, enabled or not, with a ring. -/
def dRing (cfg : Word) (r : Ring) : Side :=
  let d : Side := { d0 with regs := wr (wrI d0.regs Pg.STRAND Reg.STRAND_CFG 2 cfg) Pg.STRAND Reg.STRAND_SEL 2 }
  d.updRing 2 fun _ => r
/-- A ring with two descriptors, of which so many are complete. -/
def ring0 (ended : Nat) : Ring :=
  let e : Slot := ⟨itemDesc tyFrame 0 5 0 0 0 7 0, none, some (.core .a), 0⟩
  { Ring.reset with slots := [e, e], ended := ended }

/-- O43: a strand that is off, held and not held; nothing to read and something; a mark and none; an item begun; a pop that waits for cells
and need not; pushes that the strand takes, absorbs, stalls and refuses; strands that fit at the limit and that do not; BAR2 accesses. -/
theorem test_strands_met :
    rf (dRing 0x80040000 (ring0 1)).regs Pg.STRAND Reg.STRAND_SEL 5 0 = 2 ∧ (dRing 0x80040000 (ring0 1)).strandOn 2 = true ∧
    (dRing 0x80040000 (ring0 1)).strandHeld 2 = false ∧ (dRing 0x80040004 (ring0 1)).strandHeld 2 = true ∧
    (dRing 0x80040000 (ring0 1)).strandDir 2 ≠ 1 ∧ (dRing 0x80040001 (ring0 1)).strandDir 2 = 1 ∧ d0.strandOn 2 = false ∧
    (d0.ring 2).closing = false ∧ (ring0 0).ended ≤ (ring0 0).rp ∧ (ring0 1).rp < (ring0 1).ended ∧ (ring0 1).rp = 0 ∧
    (ring0 1).slots[0]?.isSome = true ∧ (itemDesc tyFrame 0 5 0 0 0 7 0).last = true ∧ Desc.last 0 = false ∧
    ({ ring0 1 with mark := some 0 } : Ring).mark = some 0 ∧ (ring0 1).mark = none ∧ (ring0 1).itemAt = none ∧
    ({ ring0 2 with rp := 1, itemAt := some 0 } : Ring).itemAt = some 0 ∧ d0.popCells 1 ≤ d0.strand.cellsFree ∧
    ({ d0 with strand := { d0.strand with gone := List.range 960 } } : Side).strand.cellsFree < d0.popCells 1 ∧
    (Requester.core .a).isCore = true ∧ Requester.hostA.isCore = false ∧ (ring0 2).absorb = false ∧ (ring0 2).openBy = none ∧
    (ring0 2).stalled = [] ∧ (ring0 2).slots.length < (dRing 0x80040000 (ring0 2)).strandDepth 2 ∧
    (dRing 0x80020000 (ring0 2)).strandDepth 2 ≤ (ring0 2).slots.length ∧ Requester.hostA.isHost.isSome = true ∧
    bar2Ok 0x7FFFFC 4 = true ∧ bar2Ok 0x7FFFFE 4 = false ∧ bar2Ok 0x800000 4 = true ∧ (0x7FFFFC : Nat) < 0x800000 ∧
    d0.strand.depthSum + clampNat 4 1024 1024 ≤ 2048 ∧ clampNat 4 1024 1024 > ({ d0 with strand := { d0.strand with
      gone := List.range 900 } } : Side).strand.cellsFree ∧ bitOf (0x80040000 : Word) 31 = true := by decide +kernel

/-- A thread in a state. -/
def th0 (st : ThSt) : Thread :=
  { st := st, prio := 1, aff := 255, obj := 96, deadline := some 1, latePol := false, missed := false, res := 0, readyAt := 0, readyLt := 0, marked := false }
/-- A side with thread 1023 in a state and a thread running on core 0. -/
def dThreads (st : ThSt) : Side :=
  { d0 with disp := { d0.disp with threads := [(5, th0 .running), (1023, th0 st)], objs := [(96, ⟨true, 0⟩)],
                                   ready := if st = .ready then [1023] else [], waiters := if st = .waiting then [1023] else [],
                                   cores := setAt d0.disp.cores 0 { cur := some 5, irq := false, since := 0, sliced := false, dres := 0, darg0 := 0, darg1 := 0, dnext := 0 } } }

/-- O44: a core that is on and one that is not, a marked thread, threads in each state, the last slot and one beyond it, objects at zero and
above, initialised and not, with a waiter and without. -/
theorem test_dispatcher_met : d0.coreOn 0 = true ∧ d0.coreOn 7 = false ∧ ((dThreads .ready).dropMarked 0).1 = false ∧
    (({ d0 with disp := { (dThreads .ready).disp with threads := tab1 5 { th0 .running with marked := true } } } : Side).dropMarked 0).1 = true ∧
    ([ThSt.suspended, .ready, .running, .waiting, .cancelled].all fun st =>
      decide ((dThreads st).disp.threads.find 1023 = some (th0 st))) = true ∧
    ((dThreads .ready).disp.core 0).cur = some 5 ∧ (d0.disp.core 0).cur = none ∧ (dThreads .ready).disp.obj (96 % 4096) = some ⟨true, 0⟩ ∧
    d0.disp.obj 63 = some ⟨true, 0⟩ ∧ d0.disp.obj 95 = some ⟨false, 0⟩ ∧ d0.disp.obj 96 = none ∧
    (dThreads .waiting).disp.firstWaiter 96 = some 1023 ∧ (dThreads .ready).disp.firstWaiter 96 = none ∧
    ({ counting := true, count := 65534 } : Obj).count < 65535 := by decide +kernel

theorem test_free_slots_met : d0.disp.freeSlots ≠ [] := by
  intro h
  have e : (0 : Nat) ∈ d0.disp.freeSlots := List.mem_filter.mpr ⟨List.mem_range.mpr (by decide), rfl⟩
  rw [h] at e
  cases e

/-- O45: a ready thread that may run, none; a core put in reset with the others on; a wait that is due; a slice that is over with another
thread ready; owners of a semaphore. -/
theorem test_cores_met : coresRun up .a = true ∧ nbit (th0 .ready).aff 0 = true ∧ (1023 : Nat) ∈ (dThreads .ready).disp.ready ∧
    (dReg (dThreads .ready) Pg.DISP Reg.DISP_CORE_EN 0xFE).coreOn 0 = false ∧
    ((List.range 8).all fun m => decide (m = 0) || (dReg (dThreads .ready) Pg.DISP Reg.DISP_CORE_EN 0xFE).coreOn m) = true ∧
    (dThreads .waiting).disp.waiters.filter (dThreads .waiting).waitDue = [1023] ∧
    (let d := dReg (dThreads .ready) Pg.DISP Reg.DISP_TSLICE 1
     rf d.regs Pg.DISP Reg.DISP_TSLICE 15 0 ≠ 0 ∧ 1 ≤ stSince (d.disp.core 0).since d.st ∧ (d.disp.core 0).sliced = false ∧
     (th0 .ready).prio = d.disp.prio 5) ∧ rf (dReg d0 Pg.DISP Reg.DISP_TSLICE 0).regs Pg.DISP Reg.DISP_TSLICE 15 0 = 0 ∧
    ownerId .hostA = some 1 ∧ ownerId (.core .b) = some 4 ∧ rf up.c.regs Pg.SEM (Reg.SEM_SEM + 4 * 63) 10 8 = 0 ∧
    rf (withReg up Pg.SEM Reg.SEM_SEM 0x100).c.regs Pg.SEM Reg.SEM_SEM 10 8 = 1 := by decide +kernel

/-- A side about to get the first lease. -/
def starting : State :=
  { up with c := { up.c with
      clasp := { ClaspState.reset with grantDue := some 1000000000 }
      bezel := { up.c.bezel with stA := .boot, stB := .boot }
      sys := { up.c.sys with bootA := 1, bootB := 1, commonsEn := false, step := 5 } } }

/-- O46: the preferred side ready first, the other one first, a refill that waits for it, GRANT_WAIT passed at its LT. -/
theorem test_grants_met : coresRun starting .a = true ∧ coresRun starting .b = true ∧ starting.c.bezel.st .a = .boot ∧
    starting.c.sys.boot .a = 1 ∧ starting.c.bezel.refill = none ∧ starting.c.clasp.holder = none ∧ starting.c.bezel.dead = false ∧
    preferred starting = .a ∧ starting.c.clasp.ready .b = false ∧ starting.c.clasp.waitPassed = false ∧ starting.c.sys.boot .a ≠ 2 ∧
    starting.c.clasp.grantDue = some starting.c.lt ∧ (starting.c.clasp.setReady .b true).ready .b = true ∧
    preferred { starting with c := { starting.c with sys := { starting.c.sys with straps := 32 } } } = .b ∧ up.c.clasp.grantDue = none := by
  decide +kernel

/-- The lease of `up` changed. -/
def leased (f : ClaspState → ClaspState) : State := { up with c := { up.c with clasp := f up.c.clasp } }

/-- O47: a lease with room and one at its end, compared and not; a swap possible, requested, refused; a drill due, waiting, at its end. -/
theorem test_lease_met : up.c.clasp.holder = some .a ∧ up.c.clasp.vote = some ⟨1, 1, 2000000000⟩ ∧ fld (1 : Word) 15 0 = 1 ∧
    takes up (.core .a) Pg.CLASP Reg.CLASP_RENEW = true ∧ up.c.bezel.held = false ∧ up.c.lt < 2000000000 ∧ up.c.pd.dom 1 = .on ∧
    ({ up.c with lt := 2000000000 } : Commons).lt = 2000000000 ∧ up.c.bezel.compares = true ∧ alone.c.bezel.compares = false ∧
    swapMay up = true ∧ swapMay alone = false ∧ (leased fun k => { k with swapTo := some 2 }).c.clasp.swapTo = some SideId.b.num ∧
    swapMay (leased fun k => { k with swapTo := some 2 }) = false ∧ (leased fun k => { k with swapOut := some .a }).c.clasp.swapOut = some .a ∧
    (leased fun k => { k with drillNext := some 1000000000 }).c.clasp.drillNext = some up.c.lt ∧ up.c.clasp.drillWait = false ∧
    (up.c.pd.dom 1 = .on ∧ up.c.pd.dom 2 = .on) ∧ (leased fun k => { k with drillHome := some 1, drillEnd := some 1000000000 }).c.clasp.drillEnd =
      some up.c.lt ∧ up.c.clasp.drillHome = none ∧ State.reset.c.clasp.holder = none := by decide +kernel

/-- Both sides in their self-checks. -/
def checking (cause : Nat) : State :=
  let m : Mismatch := { cause := cause, memberA := some txn0, memberB := some txn0, resA := none, resB := some true, start := 999800000 }
  { up with c := { up.c with bezel := { up.c.bezel with stA := .selfCheck, stB := .selfCheck, hold := some m } } }

/-- O48: a mismatch in hand with the other side's result known and unknown, the time-out reached and not, each cause. -/
theorem test_verdicts_met : (checking 1).c.bezel.st .a = .selfCheck ∧ (checking 1).c.bezel.hold.isSome = true ∧
    up.c.bezel.st .a ≠ .selfCheck ∧ 200000 + 999800000 ≤ (checking 1).c.lt ∧ (checking 1).c.lt < 200000 + 999800001 ∧
    ((checking 1).c.bezel.hold.bind fun m => (m.setRes .a true).res .b) = some true ∧
    ((checking 1).c.bezel.hold.bind fun m => ({ m with resB := none }.setRes .a false).res .b) = none ∧
    (checking 1).c.clasp.holder = some .a ∧ (checking 1).c.bezel.dead = false ∧ (checking 1).c.bezel.refill = none ∧
    ((checking 2).c.bezel.hold.map fun m => decide (m.cause ≠ 1)) = some true ∧ ((checking 1).c.bezel.hold.map fun m => m.cause) = some 1 := by
  decide +kernel

/-- A refill of side B in a phase. -/
def refill0 (phase : Nat) (fwu : Bool) (retryAt : Option Nat) : State :=
  let r : Refill := ⟨.b, 0, phase, fwu, retryAt, 0⟩
  { alone with c := { alone.c with bezel := { alone.c.bezel with stB := (if phase = 0 then .off else .refill), refill := some r } } }

/-- O49: a service command that cannot be taken, the shadow and the active side taken out, a side brought in, a double failure, a refill in
each phase, at and beyond its 20 µs, a retry at its time, an update's swap. -/
theorem test_service_met : (checking 1).c.bezel.hold.isSome = true ∧ (refill0 3 false none).c.bezel.refilling = true ∧
    up.c.bezel.hold = none ∧ up.c.bezel.refilling = false ∧ updating up = false ∧ up.c.clasp.swapTo = none ∧ up.c.clasp.holder ≠ some .b ∧
    up.c.bezel.pathBad .b = false ∧ alone.c.bezel.st .b = .off ∧ alone.c.bezel.st .a = .alone ∧ alone.c.pd.dom 2 = .on ∧
    updating (withA up fun d => { d with fw := { d.fw with phase := 2 } }) = true ∧
    (refill0 2 false none).c.bezel.hold = none ∧ (0 : Nat) < ({ d0 with point := 1 } : Side).point ∧
    (alone.side .a).now ≤ 20000 + (alone.side .b).now ∧ 20000 + (0 : Nat) < (alone.side .a).now ∧
    (refill0 0 false (some 1000000000)).c.bezel.st .b = .off ∧ (refill0 0 false (some 1000000000)).c.bezel.refilling = false ∧
    ((refill0 4 true none).side .b).point = ((refill0 4 true none).side .a).point ∧ (refill0 4 true none).a.outq = [] ∧
    ((refill0 4 true none).c.bezel.heldOf .a).isEmpty = true ∧ up.c.bezel.refill = none ∧ up.c.bezel.dead = false := by decide +kernel

/-- O50, O51: a cell in use and one free, a side alone, a frame in the receive buffer, marks with a place and none, a stall beyond its limit;
units that are on, off, draining, busy and idle. -/
theorem test_errors_met : up.c.bezel.quiet .a = false ∧ (up.side .a).cellFree 959 = true ∧
    ({ up.a with strand := { up.a.strand with used := [959] } } : Side).cellFree 959 = false ∧ alone.c.bezel.hold = none ∧
    (aired fun a => { a with rxbuf := [frame0] }).c.air.rxbuf[0]? = some frame0 ∧ (d0.longStall up.c 2 = false) ∧
    (let p : Push := ⟨0, none, none, 0, false⟩
     (dRing 0x80040000 { ring0 2 with stalled := [p] }).longStall up.c 2) = true ∧ activeSide up = .a ∧ activeSide up ≠ .b ∧
    Pg.RST ∈ fixedPages ∧ Pg.AIR ∉ fixedPages ∧ rb up.c.regs Pg.AIR Reg.HDR_STAT 0 = true ∧ rb up.c.regs Pg.AIR Reg.HDR_STAT 2 = false ∧
    rb (wr up.c.regs Pg.AIR Reg.HDR_STAT 4) Pg.AIR Reg.HDR_STAT 2 = true ∧ rb (wr up.c.regs Pg.AIR Reg.HDR_STAT 0) Pg.AIR Reg.HDR_STAT 0 = false ∧
    commonsIdle up.c Pg.RFM = true ∧ commonsIdle (withBurst (burst0 .onAir false 0 chan0)).c Pg.RFM = false ∧ d0.unitIdle Pg.TROWEL = true ∧
    dQueue.unitIdle Pg.TROWEL = false ∧ (regRow Pg.DML Reg.HDR_CTRL).isSome = true ∧ Pg.DML ∉ fixedPages := by decide +kernel

/-- A chain frame with its CRC. -/
def chain0 (bs : List Byte) : List Byte := bs ++ [b8 (crc8 bs)]
/-- The unit addressed as 1, or unaddressed with CHN_ENI high. -/
def onChain (addr : Nat) (eni : Bool) : State :=
  { up with c := { up.c with chain := { up.c.chain with addr := addr, eni := eni } } }

/-- O52, O53: intervals at their end with a message and without, held and not; chain frames of each operation, a bad one, one for another
unit, addresses 1 and 62, WIN_ADDR. -/
theorem test_messages_and_chain_met : (up.c.evt.mod false).find 63 = none ∧ (up.c.host false).holds 63 = true ∧
    ({ HostPort.reset with masked := [], up := true, bme := true, msixEn := true } : HostPort).holds 63 = false ∧
    (({ up.c.evt with modA := tab1 63 (1000000000, true) } : EvtState).mod false).find 63 = some (up.c.lt, true) ∧
    unitOn up.c.regs Pg.CHAIN = true ∧
    (chainMine (onChain 1 false).c (chain0 [4, 0, 0, 0, 1, 2, 3, 4]) = true ∧ chainBad (chain0 [4, 0, 0, 0, 1, 2, 3, 4]) = none ∧
      chainOp (chain0 [4, 0, 0, 0, 1, 2, 3, 4]) = 0) ∧
    (chainBad (chain0 [5, 0, 0, 0]) = none ∧ chainOp (chain0 [5, 0, 0, 0]) = 1 ∧ chainOff (chain0 [5, 0, 0, 0]) = 4096 * 0 + 0) ∧
    (chainBad [6, 0, 0, 0, 0, 0, 0] = none ∧ chainOp [6, 0, 0, 0, 0, 0, 0] = 2) ∧
    chainBad [4, 0, 0, 0, 1, 2, 3, 4, 0] = some Reg.CHAIN_CRC_ERR ∧ chainMine (onChain 2 false).c [4] = false ∧
    (chainOp (chain0 [3, 62]) = 3 ∧ chainAddr (chain0 [3, 62]) = 0 ∧ chainBad (chain0 [3, 62]) = none ∧ (onChain 0 true).c.chain.addr = 0 ∧
      byteAt (chain0 [3, 62]) 1 % 64 ≠ 63 ∧ byteAt (chain0 [3, 62]) 1 % 64 ≠ 0) ∧
    rf (withReg up Pg.CHAIN Reg.CHAIN_WIN_ADDR 0x7FFFFC).c.regs Pg.CHAIN Reg.CHAIN_WIN_ADDR 25 2 * 4 < 0x800000 := by decide +kernel

/-- MAC 0 with its link up, receiving and sending. -/
def ethUp : State :=
  let s : State := { up with c := { up.c with eth0 := { up := true, speed := 3, tx := [(7, [1, 2, 3])] } } }
  withReg (withReg (withReg s Pg.ETH0 Reg.ETH_MODE 0x18) Pg.ETH0 Reg.ETH_CLASS 0x01000000) Pg.ETH0 Reg.HDR_STAT 1
/-- A broadcast frame of IPv6 and one of another type, with room for an FCS. -/
def ethBytes (ty : Nat) : List Byte := List.replicate 6 255 ++ List.replicate 6 1 ++ beBytes 2 ty ++ List.replicate 46 0
/-- A VLAN tag of 4094. -/
def tagged : List Byte := List.replicate 12 255 ++ beBytes 2 0x8100 ++ beBytes 2 4094 ++ beBytes 2 0x86DD ++ List.replicate 46 0

/-- O54: a frame that is good and one too long, for this port and not, with a tenant and without, of each class; buffers full and not; VIDs
free, taken and reserved; frames to send and none. -/
theorem test_ethernet_met : ethRuns ethUp false = true ∧ unitOn ethUp.c.regs (ethPage false) = true ∧
    rb ethUp.c.regs (ethPage false) Reg.ETH_MODE 4 = true ∧ rb ethUp.c.regs (ethPage false) Reg.ETH_MODE 3 = true ∧
    1298 ≤ ethMtu ethUp.c false ∧ ethMtu ethUp.c false < 9622 ∧ ethDest ethUp.c false (ethBytes 0x86DD) = true ∧
    ethDest ethUp.c false (List.replicate 60 3) = false ∧ ethTenant ethUp.c false (ethBytes 0x86DD) = some 0 ∧
    ethTenant ethUp.c false tagged = none ∧
    (match ethClass ethUp.c false (ethBytes 0x86DD) with | .ok n => decide (n = 1) | .error _ => false) = true ∧
    (match ethClass ethUp.c false (ethBytes 0x0801) with | .ok _ => false | .error o => decide (o = Reg.ETH_RX_OTHER)) = true ∧
    ethWaiting ethUp false + (ethBytes 0x86DD).length ≤ 65536 ∧ vidTenant ethUp.c false 4094 = none ∧
    vidTenant { ethUp.c with regs := wrI ethUp.c.regs Pg.ETH0 Reg.ETH_VID_MAP 3 0x8FFE } false 4094 = some 3 ∧ bitOf (0x8FFE : Word) 15 = true ∧
    (ethUp.c.eth false).tx = (7, [1, 2, 3]) :: [] ∧ ptpOf [1, 2, 3] = none ∧ up.c.eth0.tx = [] := by decide +kernel

/-- A sequencer that holds a frame of so many octets. -/
def ethFull (n : Nat) : State :=
  { up with c := { up.c with bezel := { up.c.bezel with waiting := [(.eth0, .ethFrame ⟨false, 1, 0, 0, List.replicate n 0⟩)] } } }

theorem eth_full (n : Nat) : ethWaiting (ethFull n) false = n := by
  have h : ethWaiting (ethFull n) false = (List.replicate n (0 : Byte)).length + 0 := rfl
  rw [h, List.length_replicate, Nat.add_zero]

/-- A full buffer of the sequencer. -/
theorem test_ethernet_full_met : 65536 < ethWaiting (ethFull 65536) false + (ethBytes 0x86DD).length := by
  rw [eth_full]
  decide

/-- The block at step 4 of its start, from a source. -/
def booting (straps : Nat) : State :=
  { State.reset with c := { Commons.reset with
      bezel := { BezelState.reset with stA := .boot, stB := .boot }, sys := { SysState.reset with porstLow := false, straps := straps } } }

/-- O55: the boot port and another; step 4 from MRAM with a slot tried and not, good and not; from a host before and after GO. -/
theorem test_boot_met : bootPort (booting 1) = some .hostA ∧ bootPort (booting 1) ≠ some .chain ∧ bootPort (booting 0) = none ∧
    atStep4 (booting 0) .a = true ∧ atStep4 (booting 0) .b = true ∧ atStep4 up .a = false ∧ bootSource (booting 0) = 0 ∧
    bootSource (booting 3) ≠ 0 ∧ (booting 0).c.bezel.refill = none ∧ (booting 0).a.mram.bootSel < 2 ∧
    nbit (booting 0).a.fw.tried 0 = false ∧ nbit ({ (booting 0).a.fw with tried := 1 } : FwState).tried 0 = true ∧
    (booting 0).a.slotGood 0 true = true ∧ (booting 0).a.slotGood 1 false = false ∧ (booting 0).a.fwVerifies [] = false ∧
    (booting 1).c.sys.hbootA = false ∧ (up.variant.full = true ∨ up.a.fw.phase ≠ 2) := by decide +kernel

/-- A request of a host for domains. -/
def req0 (mask target : Nat) : PdReq := { mask := mask, target := target, byHost := true, wake := none, lt := 0 }

/-- O56: a request without GO, a full queue, a check that fails, a request with nothing to do, one that lowers the last lane group. -/
theorem test_power_requests_met : bitOf (0x10 : Word) 4 = true ∧ bitOf (1 : Word) 4 = false ∧ 8 ≤ (List.replicate 8 (req0 0 0)).length ∧
    up.c.pd.queue = [] ∧ up.c.pd.run = none ∧ up.c.pd.susp = none ∧ up.c.pd.scan = [] ∧ (pdCheck up (req0 (2 ^ 95) 2)).isSome = true ∧
    pdCheck up (req0 (2 ^ 15) 0) = none ∧ pdOrder up (req0 (2 ^ 15) 0) = [] ∧ pdCheck up (req0 (2 ^ 15) 2) = none ∧
    pdOrder up (req0 (2 ^ 15) 2) = [(15, .off)] ∧ DomSt.rank .off < (domState up 15).rank := by decide +kernel

/-- A request in progress that lowers domain 15. -/
def run0 (step since : Nat) (rails : List (Nat × Nat)) (restoring : Bool) : PdRun :=
  { req := req0 (2 ^ 15) 2, todo := [(15, .off)], done := [], step := step, rails := rails, since := since, undo := none, woken := false,
    restoring := restoring }
/-- The power state of `up` changed. -/
def powered (f : PdState → PdState) : State := { up with c := { up.c with pd := f up.c.pd } }

/-- O57: the last domain of a request, quiet and not, without a rail and with one, at its limit and before it; a rail at its level and not,
its time-out reached and not; a scan of a side that is awaited, at the first and the last bank, and none. -/
theorem test_domains_met : (powered fun p => { p with run := some (run0 1 0 [] false) }).c.pd.run = some (run0 1 0 [] false) ∧
    quiesced up 15 = true ∧ quiesced { (withLane { lane0 none none none with no := 383 }) with variant := .kl9680 } 15 = false ∧
    railsFor up 15 .off = [] ∧
    (let s : State := { (powered fun p => { p with doms := [(7, .off), (8, .off)] }) with
        c := { (powered fun p => { p with doms := [(7, .off), (8, .off)] }).c with
          regs := wrI up.c.regs Pg.PMB Reg.PMB_RAIL_CFG 0 0x80000000 } }
     railsFor s 9 .off) = [(0, 2)] := by decide +kernel

theorem test_limits_met :
    (0 : Nat) + 1000000 * (clampNat 1 255 (rf (withReg up Pg.PD Reg.PD_QUIESCE_TO 255).c.regs Pg.PD Reg.PD_QUIESCE_TO 7 0)) ≤ up.c.lt ∧
    up.c.lt < up.c.lt + 1000000 * (clampNat 1 255 (rf up.c.regs Pg.PD Reg.PD_QUIESCE_TO 7 0)) ∧ (up.pmbOf (3 / 4)).raw = none ∧
    railAcked 2 64 = true ∧ railAcked 2 0 = false ∧ railAcked 0 0 = true ∧ railAcked 1 2048 = false ∧
    0 + 1000 * (clampNat 100 50000 (fld (up.pmbReg (3 / 4) Reg.PMB_TIMEOUT) 15 0)) ≤ up.c.lt ∧
    (∀ n ∈ up.c.pd.scan, domSide n ≠ some .a) ∧ domSide 32 = some .a ∧ domSide 87 = some .b ∧ nbit (2 ^ 23) 23 = true := by decide +kernel

/-- O58: a wake that is selected and one that is not, with nothing to raise, one domain to raise and a refusal; the I2C target's address;
raw commands with GO and without, on a busy port, denied and not; pages with a port and without. -/
theorem test_wakes_met : fld (0x30001 : Word) 1 0 ≠ 0 ∧ unitOn up.c.regs Pg.WAKE = true ∧ wakeI2c (withReg up Pg.WAKE Reg.WAKE_CFG 1).c = true ∧
    wakeI2c (withReg up Pg.WAKE Reg.WAKE_CFG 0).c = false ∧ wakeAddr up.c = 0x58 ∧
    wakeAddr { up.c with sys := { up.c.sys with straps := 28 } } = 0x5F ∧
    (let q : PdReq := { mask := 2 ^ 15, target := 0, byHost := true, wake := some 7, lt := 0 }
     let off := powered fun p => { p with doms := tab1 15 .off }
     pdCheck up q = none ∧ pdOrder up q = [] ∧ pdCheck off q = none ∧ pdOrder off q = [(15, .on)] ∧ domState off 15 = .off ∧
     railsFor off 15 .on = [] ∧ (pdCheck (powered fun p => { p with faults := [15] }) q).isSome = true) ∧
    bitOf (0x8000 : Word) 15 = true ∧ up.c.pmb.raw = none ∧ rawDenied up 0 0x8021 = false ∧
    rawDenied { up with c := { up.c with regs := wrI up.c.regs Pg.PMB Reg.PMB_RAIL_CFG 0 0x80000000 } } 0 0x8021 = true ∧
    pmbOwner .kl9680 Pg.PMB = some 0 ∧ pmbOwner .kl9680 (Pg.SPMB + 32) = some 2 ∧ pmbOwner .kl9620 (Pg.SPMB + 32) = none ∧
    pmbOwner .kl9680 Pg.AIR = none ∧ ({ up.c.pmb with raw := some (0x121, true) } : PmbState).raw = some (0x121, true) := by decide +kernel

/-- O59, O60: PORST_N low and high, tamper checks that pass and that do not, a side that alone holds the lease, a compared side, a side out of
service; each clock with what it drives; balls of the host and of the sides; replicas that agree, one that differs and three. -/
theorem test_resets_met : State.reset.c.sys.porstLow = true ∧ State.reset.c.clasp.holder = none ∧ State.reset.c.sys.commonsEn = false ∧
    up.c.sys.porstLow = false ∧ 1 % 128 &&& rf (withReg up Pg.TAMP Reg.TAMP_SRC_EN 1).c.regs Pg.TAMP Reg.TAMP_SRC_EN 6 0 ≠ 0 ∧
    0 % 128 &&& rf up.c.regs Pg.TAMP Reg.TAMP_SRC_EN 6 0 = 0 ∧ rd up.c.regs Pg.TAMP Reg.TAMP_CAUSE = 0 ∧ up.a.key.keyless = false ∧
    up.c.pd.dom (locketDomain .a) ≠ .off ∧ alone.c.clasp.holder = some .a ∧ single alone = true ∧ single up = false ∧
    alone.c.bezel.st .b = .off ∧ alone.c.clasp.holder ≠ some .b ∧ up.c.time.xtalStopped = false ∧
    rb (withReg up Pg.CLK Reg.CLK_X32_CFG 0).c.regs Pg.CLK Reg.CLK_X32_CFG 1 = false ∧
    rb (withReg up Pg.CLK Reg.CLK_X32_CFG 2).c.regs Pg.CLK Reg.CLK_X32_CFG 1 = true ∧
    nbit (rf (withReg up Pg.TPO Reg.TPO_GPIO_OWN 0x8000).c.regs Pg.TPO Reg.TPO_GPIO_OWN 15 0) 15 = true ∧ bitOf (0x80008000 : Word) (16 + 15) = true ∧
    up.c.clasp.r0 = ⟨1, 1, 2000000000⟩ ∧ up.c.clasp.r0 = up.c.clasp.r1 ∧ (⟨2, 1, 5⟩ : Replica) ≠ up.c.clasp.r0 ∧
    (leased fun k => { k with r2 := ⟨2, 2, 2⟩ }).c.clasp.r1 ≠ (leased fun k => { k with r2 := ⟨2, 2, 2⟩ }).c.clasp.r2 := by decide +kernel

/-! ## Clauses that rest on the cycle, on what a side has seen, and on the lists of work in hand -/

/-- O3 to O6: JTAG with Loupe open for it; an input that waits with a request that is a register write of its own; a side that lags and
one that does not; a time input at the present LT. -/
theorem test_ways_met :
    (let s : State := { up with c := { up.c with tamp := { up.c.tamp with opened := some (4, false) } } }
     jtagOpen s.c = true ∧ jtagOpen up.c = false ∧ Requester.jtag.presentOn s.variant.full = true ∧ Requester.jtag.isCore = false) ∧
    lagging (withA up fun d => { d with inq := [⟨7, 0, .time 0 false false, up.c.seen⟩] }) = true ∧
    seqBlocked (withA up fun d => { d with inq := [⟨7, 0, .time 0 false false, up.c.seen⟩] }) = true ∧ catchFull up = false ∧
    seqOpen up = true ∧ (Input.time 0 false false).isTime = true ∧ (Input.time 0 false false).direct = none ∧
    (aired fun a => { a with rxbuf := [frame0] }).c.air.rxbuf = frame0 :: [] := by decide +kernel

/-- A semaphore with what it was asked at an LT. -/
def semAsked (lt : Nat) : State :=
  { up with c := { up.c with regs := wr up.c.regs Pg.SEM (Reg.SEM_SEM + 12) 0x200, sys := { up.c.sys with semAt := tab1 3 ⟨lt, true, [2]⟩ } } }

/-- O46: a semaphore that nothing has asked in this cycle, one asked in an earlier cycle, one taken in this cycle by another requester. -/
theorem test_semaphores_met : ownerId .hostA = some 1 ∧ up.c.sys.semAt.find 63 = none ∧ rf up.c.regs Pg.SEM Reg.SEM_SEM 10 8 = 0 ∧
    ((semAsked 5).c.sys.semAt.find 3).map (·.lt) ≠ some (semAsked 5).c.lt ∧
    (semAsked 1000000000).c.sys.semAt.find 3 = some ⟨1000000000, true, [2]⟩ ∧ (1000000000 : Nat) = (semAsked 1000000000).c.lt ∧
    rf (semAsked 5).c.regs Pg.SEM (Reg.SEM_SEM + 12) 10 8 = 2 ∧ ownerId .hostA ≠ some 2 := by decide +kernel

/-- O47: the coarse LT before EXPIRY and at it, by its steps of 30.518 µs. -/
theorem test_expiry_met : coarseLt up.c.lt < 2000000000 ∧ up.c.clasp.r0.expiry = 2000000000 ∧
    (leased fun k => { k with r0 := ⟨1, 1, 5⟩, r1 := ⟨1, 1, 5⟩, r2 := ⟨1, 1, 5⟩ }).c.clasp.vote = some ⟨1, 1, 5⟩ ∧ 5 ≤ coarseLt up.c.lt ∧
    coarseLt 30517 = 0 := by decide +kernel

/-- A side with a frame that waits for carrier 4, enabled. -/
def dWaits : Side :=
  dReg { d0 with trowel := { d0.trowel with queues := tab1 fr0.queue [fr0], deciding := 0 } } Pg.TROWEL Reg.TROWEL_CAR_EN 0xFFF

/-- O39: a carrier that decides, those before it that do not, one that has decided, one that is booked. -/
theorem test_decisions_met : dWaits.decides .kl9680 4 = true ∧ (∀ j, j < 4 → dWaits.decides .kl9680 j = false) ∧
    dWaits.decides .kl9680 5 = true ∧ dWaits.trowel.deciding = 0 ∧
    (dWaits.updTrowel fun w => { w with deciding := 5 }).decides .kl9680 4 = false ∧
    (let b := dWaits.updTrowel fun w => { w with bookings := tab1 4 [(0, 10 ^ 12)] }
     ((b.trowel.booked 4).any fun e => decide (e.1 ≤ b.tick + b.relLead) && decide (b.tick + b.relLead < e.2)) = true) := by
  decide +kernel

/-- O40: a base time at hand, one past, and one that lies half the range of ST ahead. -/
theorem test_not_past_met : notPast (d0.now + d0.swapLat) (d0.now + d0.swapLat) = true ∧ notPast 0 1 = false ∧
    notPast (256 * 2 ^ 39) 0 = false ∧ notPast (256 * 2 ^ 39 - 1) 0 = true := by decide

/-- O43: a pop that waits as a command's, as a unit's, and none. -/
theorem test_pops_met : ((dRing 0x80040000 { ring0 1 with popWait := some true }).ring 2).popWait = some true ∧
    ((dRing 0x80040000 { ring0 1 with popWait := some false }).ring 2).popWait = some false ∧
    ((dRing 0x80040000 (ring0 1)).ring 2).popWait = none ∧
    (dRing 0x80040000 (ring0 1)).popCells 1 ≤ (dRing 0x80040000 (ring0 1)).strand.cellsFree := by decide +kernel

/-- Side A of `alone` with a released frame in cell 7. -/
def dCell : Side :=
  { d0 with strand := { d0.strand with used := [7] }
            trowel := { d0.trowel with queues := tab1 fr0.queue [{ fr0 with cell := some 7 }]
                                       released := [{ rel0 none with f := { fr0 with cell := some 7 } }] } }

/-- O50: a damaged cell that holds a frame, whose release is in flight; one that holds nothing of a flow; a frame being received; a mark
that can be pushed; a strand stalled too long by what the side has seen, and not. -/
theorem test_lost_met : (dCell.cellLost dCell.view 7).isSome = true ∧ dCell.cellFlights 7 = [3] ∧ dCell.cellFree 7 = false ∧
    (withLane (lane0 none none none)).c.receiving[0 - (withLane (lane0 none none none)).c.air.rxbuf.length]? =
      some (.m, (lane0 none none none).no) ∧
    (let m : LossMark := { strand := 2, flow := 9, d := lossDesc 1 0 0 0 0 9 1, clear := none }
     let d : Side := dRing 0x80040000 (ring0 1)
     let e : Side := { d with strand := { d.strand with marks := [m] } }
     (e.strand.marks.find? fun m => e.strandOn m.strand && e.placeFree m.strand && (e.ring m.strand).stalled.isEmpty) = some m ∧
       e.strandDir m.strand ≠ 1) ∧ d0.strand.marks = [] ∧
    d0.longStall d0.view 2 = false ∧
    (let p : Push := ⟨0, none, none, 0, false⟩
     let d : Side := dRing 0x80040000 { ring0 2 with stalled := [p] }
     d.longStall d.view 2) = true := by decide +kernel

/-- O53: WIN_ADDR below the strands' windows' end and beyond it, CHAIN enabled and not, a read that waits for a mismatch. -/
theorem test_window_met : rf up.c.regs Pg.CHAIN Reg.CHAIN_WIN_ADDR 25 2 * 4 < 0x800000 ∧
    0x800000 ≤ rf (withReg up Pg.CHAIN Reg.CHAIN_WIN_ADDR 0x800000).c.regs Pg.CHAIN Reg.CHAIN_WIN_ADDR 25 2 * 4 ∧
    unitOn up.c.regs Pg.CHAIN = true ∧ unitOn (withReg up Pg.CHAIN Reg.HDR_STAT 0).c.regs Pg.CHAIN = false ∧ seqBlocked up = false ∧
    (checking 1).c.bezel.hold.isSome = true ∧ up.c.bezel.hold = none := by decide +kernel

/-- O54: settings of this cycle and of earlier ones. -/
theorem test_settings_met : up.c.writes.lt ≠ up.c.lt ∧ ethInForce up.c = up.c.regs ∧
    up.c.openCycle.writes.lt = up.c.openCycle.lt := by decide +kernel

/-- O55: a boot from a host that has given GO, with an image that does not verify, and before GO. -/
theorem test_host_boot_met :
    (let s : State := { booting 1 with c := { (booting 1).c with sys := { (booting 1).c.sys with hbootA := true } } }
     atStep4 s .a = true ∧ bootSource s ≠ 0 ∧ s.c.bezel.refill = none ∧ s.c.sys.hbootA = true ∧ s.a.fwVerifies s.c.sys.hboot = false) ∧
    (booting 1).c.sys.hbootB = false := by decide +kernel

/-- O58: the wake target stretched and not; raw commands of a side's own supply with a rail at work and none. -/
theorem test_wake_target_met : (powered fun p => { p with i2cStretch := true }).c.pd.i2cStretch = true ∧ up.c.pd.i2cStretch = false ∧
    nbit 0x80 7 = true ∧ nbit 3 7 = false ∧ (up.side .a).pmb.raw = none ∧ (up.side .a).pmb.rail = none ∧
    rawDenied up 1 (0x8021 : Word) = false ∧ ((up.pmbOf 0).raw = none ∨ (up.pmbOf 0).rail.isSome = true) := by decide +kernel

/-- O37, O38: a lockout that runs and one that is over, TRNG words enough and too few, a nonce that is in time and one that is not. -/
theorem test_loupe_met :
    (let t : TampState := { up.c.tamp with lockEnd := some 1000000001 }
     t.lockEnd = some 1000000001 ∧ up.c.lt < 1000000001 ∧ (1000000000 : Nat) ≤ up.c.lt) ∧
    4 ≤ ({ up.c.tamp with trng := [1, 2, 3, 4] } : TampState).trng.length ∧ up.c.tamp.trng.length < 4 ∧
    ({ up.c.tamp with nonce := some ([], 0) } : TampState).nonce = some ([], 0) ∧
    0 + 1000000000 * (clampNat 1 255 (rf (withReg up Pg.LOUPE Reg.LOUPE_NONCE_TTL 1).c.regs Pg.LOUPE Reg.LOUPE_NONCE_TTL 7 0)) ≤ up.c.lt ∧
    d0.mram.helper = none ∧
    (nextInput (withIn up (.notice .loupeOpen)) .a).isSome = true ∧ up.c.tamp.fails = 0 ∧
    ({ up.c.tamp with fails := 18 } : TampState).fails = 16 + 2 := by decide +kernel

/-- O59: helper data whose check value is that of the root, and helper data whose check value is not; PORST_N low with Loupe open. -/
theorem test_helper_met : (∃ h : Helper, Config.rootCheck (majorityRoot (pufMessages .a 0 h).1) % 2 ^ 32 = h.check) ∧
    (∃ h : Helper, Config.rootCheck (majorityRoot (pufMessages .a 0 h).1) % 2 ^ 32 ≠ h.check) := by
  have e (c : Nat) : pufMessages .a 0 { blocks := [], check := c } = pufMessages .a 0 { blocks := [], check := 0 } := rfl
  refine ⟨⟨⟨[], Config.rootCheck (majorityRoot (pufMessages .a 0 { blocks := [], check := 0 }).1) % 2 ^ 32⟩, ?_⟩,
    ⟨⟨[], Config.rootCheck (majorityRoot (pufMessages .a 0 { blocks := [], check := 0 }).1) % 2 ^ 32 + 1⟩, ?_⟩⟩
  · rw [e]
  · rw [e]
    exact Nat.ne_of_lt (Nat.lt_succ_self _)

/-! ## Results from the spec's examples and from the standards it names -/

/-- Chapter 2, the example of R40: the target is 512 units ahead of now. -/
theorem test_st_difference : stDiff 0x0000000100 0xFFFFFFFF00 = 0x200 := by decide

/-- Chapter 2, the example of R72: one second is 3,906,250 ST units. -/
theorem test_st_of_second : stOf 1000000000 = 3906250 := by decide

/-- Chapter 7, the example of the Sander pass: entry 70,000 is due 23,071.2890625 s into a pass of 86,400 s. -/
theorem test_visit_time : visitLt 0 86400 70000 = 23071289062500 := by decide

/-- Chapter 10, "Scrim arithmetic": 200 octets in mode 2 with TX_PRE 8 last 33,920 µs; chapter 3: a 64-octet downlink with a SHR and PHR of
12 octets 12,160 µs, and an acknowledgement of 20 octets 5,120 µs. -/
theorem test_airtimes : airtimeUs 2 0 8 200 = 33920 ∧ airtimeUs 2 0 8 64 = 12160 ∧ airtimeUs 2 0 8 20 = 5120 := by decide

/-- Chapter 3, "Example plan": CH_CFG0 of channel 3 has CENTRE 1,722, HALF 8, is enabled and charges account 1. -/
theorem test_channel_fields : (⟨0x004886BA, 0, 0, false⟩ : ChanDef).centre = 1722 ∧ (⟨0x004886BA, 0, 0, false⟩ : ChanDef).half = 8 ∧
    (⟨0x004886BA, 0, 0, false⟩ : ChanDef).enabled = true ∧ (⟨0x004886BA, 0, 0, false⟩ : ChanDef).account = some 1 := by decide

/-- Chapter 10, the example of R336: a late swap under LATE_POL 1 falls on the next multiple of the cycle, 3,600.0768 s, with MISSED set. -/
theorem test_gate_swap_late :
    let d : Side := { dGate 1 102400000 0 none true with now := 3600051200000 }
    let u := (dReg d Pg.GATE Reg.GATE_SWAP_LAT 1000).gateSwap d.carIdx
    (u.gate d.carIdx).pend = some 3600076800000 ∧ (u.gate d.carIdx).missed = true ∧ (u.gate d.carIdx).swapLt = 3600076800000 := by
  decide +kernel

/-- "123456789". -/
def digits : List Byte := (List.range 9).map fun i => b8 (0x31 + i)

/-- The catalogue check values of CRC-32C and of the CRC-8 with polynomial 0x07 over "123456789". -/
theorem test_crc_check_values : crc32c digits = 0xE3069283 ∧ crc8 digits = 0xF4 := by decide +kernel

/-- FIPS 197, appendix C.1, and FIPS 180-4's "abc". -/
theorem test_aes_and_sha :
    aesEnc ((List.range 16).map b8) ((List.range 16).map fun i => b8 (17 * i)) =
      beBytes 16 0x69c4e0d86a7b0430d8cdb78070b4c55a ∧
    sha256 [0x61, 0x62, 0x63] = beBytes 32 0xba7816bf8f01cfea414140de5dae2223b00361a396177a9cb410ff61f20015ad := by decide +kernel

/-! ## Single commands -/

/-- A test of the state that a command leaves. -/
def after (i : Instr) (s : State) (f : State → Bool) : Bool := match exec i s with
  | .next t => f t
  | _ => false

/-- The enabled bytes of a register are replaced and no other (R468). -/
theorem test_register_write : after (.registerWrite .hostA (regAddr .hostA Pg.AIR Reg.HDR_EVT_EN) 0xFFFFFFFF 2) up
    (fun t => decide (rd t.c.regs Pg.AIR Reg.HDR_EVT_EN &&& 0xFFFF00FF = rd up.c.regs Pg.AIR Reg.HDR_EVT_EN &&& 0xFFFF00FF)) = true := by
  decide +kernel

/-- A LOCK bit is set and a write of 0 does not clear it (R471). -/
theorem test_lock_write : after (.lockWrite .hostA Pg.CLASP 1) up (fun t => rb t.c.regs Pg.CLASP Reg.HDR_LOCK 0 &&
    after (.lockWrite .hostA Pg.CLASP 0) t (fun u => rb u.c.regs Pg.CLASP Reg.HDR_LOCK 0)) = true := by decide +kernel

/-- LT moves on to the time of the input. -/
theorem test_time_input : after (.timeInput 1000000256) up (fun t => decide (t.c.lt = 1000000256)) = true := by decide +kernel

/-- An idle step is a tick of 1 ns. -/
theorem test_idle_step : (match step up with | .next t => decide (t.c.lt = 1000000001) | _ => false) = true := by decide +kernel

/-- A centre frequency outside the tuning range leaves LO_FREQ and sets LO_RANGE (R79). -/
theorem test_lo_range : after (.loFreqWrite .hostA .s 40801) up (fun t => rb t.c.regs Pg.RFS Reg.HDR_ERR_STICKY 0 &&
    decide (t.c.rfS.retuneReq = none)) = true := by decide +kernel

/-- A launch that is too late with DISCARD counts as MISSED (R94, R97). -/
theorem test_launch_missed : after (.launchArrival .m 0) (sends { launch0 with lt := 5 })
    (fun t => decide (rd t.c.regs Pg.RFM Reg.RF_MISSED = 1)) = true := by decide +kernel

/-- A SET of an address enters the pending list (R173). -/
theorem test_pending_set : after .pendingListSet (aired fun a => { a with updates := [.set false 0x1234] })
    (fun t => decide (t.c.air.list = [0x2468])) = true := by decide +kernel

/-- A thread that is resumed is READY (R401); a signal to an object without a waiter counts up (R402). -/
theorem test_resume : after (.resume .a 0 1023 0) (withA up fun _ => dThreads .suspended)
    (fun t => decide (t.a.disp.ready = [1023])) = true := by decide +kernel
theorem test_signal : after (.signal .a 0 96 0) (withA up fun _ => dThreads .ready)
    (fun t => decide ((t.a.disp.objs.find 96).map (·.count) = some 1)) = true := by decide +kernel

/-- Host port A takes semaphore 63 with its ID 1 (R411, table of IDs), and core software of side B may not release it (R413). -/
theorem test_semaphore : after (.semAcq .hostA 63) up (fun t => decide (rf t.c.regs Pg.SEM (Reg.SEM_SEM + 252) 10 8 = 1) &&
    after (.semRel .hostB 63) t (fun u => decide (rf u.c.regs Pg.SEM (Reg.SEM_SEM + 252) 10 8 = 1))) = true := by decide +kernel

/-- RENEW with the TOKEN sets EXPIRY one LEASE_TO ahead, with another TOKEN not (R420). -/
theorem test_renew : after (.renew 1) up (fun t => decide (t.c.clasp.r0.expiry = up.c.lt + leaseNs up.c)) = true ∧
    after (.renew 2) up (fun t => decide (t.c.clasp.r0.expiry = 2000000000)) = true := by decide +kernel

/-- The shadow alone passes its self-check: it takes the lease with the next TOKEN (R429). -/
theorem test_takeover :
    (let m : Mismatch := { cause := 1, memberA := none, memberB := none, resA := none, resB := none, start := 0 }
     let u := verdict (checking 1) m .a false true
     decide (u.c.clasp.holder = some .b) && decide (u.c.clasp.token = 2) && decide (u.c.bezel.stB = .alone)) = true := by decide +kernel

/-- Chapter 17, enumeration step 2: an unaddressed unit with CHN_ENI high takes address 1 and raises CHN_ENO. -/
theorem test_enumeration : after (.setAddress (chain0 [3, 1]) true) (onChain 0 true)
    (fun t => decide (t.c.chain.addr = 1) && t.c.chain.eno) = true := by decide +kernel

/-- A frame with a bad FCS is dropped and counted (R505). -/
theorem test_eth_bad : after (.ethFrameRx false (ethBytes 0x86DD) false 0) ethUp
    (fun t => decide (rd t.c.regs Pg.ETH0 Reg.ETH_RX_BAD = 1)) = true := by decide +kernel

/-- Out of reset PORST_N rises: both sides start, and the straps stand (R551, R557). -/
theorem test_release : after (.porstRelease 5 0) State.reset (fun t => decide (t.c.bezel.stA = .boot) && decide (t.c.bezel.stB = .boot) &&
    decide (t.c.sys.straps = 5)) = true := by decide +kernel

/-- A lost reference of PCIe is recorded (R549). -/
theorem test_clock_loss : after (.clockLoss .pcieRef) up (fun t => decide (rd t.c.regs Pg.CLK Reg.CLK_REFCLK_LOSS = 1)) = true := by
  decide +kernel

/-- The voted replicas repair one that differs (R418). -/
theorem test_replica : after (.replicaDisagree 0 2 7 5) up (fun t => decide (t.c.clasp.r0 = t.c.clasp.r1) &&
    decide (rd t.c.regs Pg.CLASP Reg.CLASP_VOTE_FIX = 1)) = true := by decide +kernel

/-- A read of WAIT_CUM_LO of DISP latches WAIT_CUM_HI (R417). -/
theorem test_disp_latch :
    (let d := Side.reset.updDisp fun k => { k with stats := [(0, ⟨1, 3 * 2 ^ 32 + 7, 0, 0⟩)] }
     decide (viewDisp d Reg.DISP_WAIT_CUM_HI 0 = 0#32) &&
     decide (viewDisp (d.latchHi Pg.DISP Reg.DISP_WAIT_CUM_LO) Reg.DISP_WAIT_CUM_HI 0 = 3#32)) = true := by decide +kernel

end Sys2Proof.Tests
end

section
/-! PROOFS. The access codes of register fields (R10): what a field is written with and what it holds afterwards, one
equation for each access code; the bits of W1C and W1S fields. -/

namespace Sys2Proof.Machine

open Sys2Proof

/-! ## Bits of words -/

@[simp] theorem bitOf_and (v w : Word) (n : Nat) : bitOf (v &&& w) n = (bitOf v n && bitOf w n) := by
  simp [bitOf]

@[simp] theorem bitOf_or (v w : Word) (n : Nat) : bitOf (v ||| w) n = (bitOf v n || bitOf w n) := by
  simp [bitOf]

theorem bitOf_not (v : Word) (n : Nat) (h : n < 32) : bitOf (~~~v) n = !bitOf v n := by
  simp only [bitOf, BitVec.testBit_toNat, BitVec.getLsbD_not, h, decide_true, Bool.true_and]

/-- A field cut from a word and placed in a zero word reads as it was cut. -/
theorem fld_setFld_zero_fld (v : Word) (hi lo : Nat) (h : lo ≤ hi) (h2 : hi < 32) :
    fld (setFld 0#32 hi lo (fld v hi lo)) hi lo = fld v hi lo := by
  rw [fld_setFld_zero hi lo _ h h2, fld_mod]

/-- Within the field, the bits of a word whose field was cut out and placed in a zero word are the bits of the word. -/
theorem bitOf_setFld_zero_fld (v : Word) (hi lo b : Nat) (h : lo ≤ hi) (h2 : hi < 32) (hb : b ≤ hi - lo) :
    bitOf (setFld 0#32 hi lo (fld v hi lo)) (lo + b) = bitOf v (lo + b) := by
  rw [← fld_testBit _ hi lo b h hb, fld_setFld_zero_fld v hi lo h h2, fld_testBit v hi lo b h hb]

namespace RegField

/-! ## What a field is written with -/

/-- The field reads and writes: its code is RW or RWL. -/
def readsAndWrites (f : RegField) : Prop := f.acc = .rw ∨ f.acc = .rwl

/-- The field is written with the enabled bits of the word as they stand, whatever it held: its code is W1C, W1S or WO. -/
def takesWrittenBits (f : RegField) : Prop := f.acc = .w1c ∨ f.acc = .w1s ∨ f.acc = .wo

theorem open_iff (f : RegField) (locked : Bool) :
    f.open_ locked = true ↔ f.acc = .rw ∨ (f.acc = .rwl ∧ locked = false) := by
  simp [open_]

theorem clamp_of_no_lim (f : RegField) (n : Nat) (h : f.lim = none) : f.clamp n = n := by
  simp only [clamp, h]

section
variable (f : RegField) (locked : Bool) (old v : Word) (be : Nat)

/-- An open field that an enabled byte touches is written with the merged word's field, moved into the field's range. -/
theorem effect_of_open (ho : f.open_ locked = true) (hm : f.mask &&& beMask be ≠ 0) :
    f.effect locked old v be = f.clamp (fld (mergeBytes old v be) f.hi f.lo) := by
  rcases (open_iff f locked).1 ho with h | ⟨h, -⟩ <;>
    simp only [effect, h, ho, Bool.true_and, decide_eq_true hm, if_true]

/-- A field that is locked, or that no enabled byte touches, is written with what it holds. -/
theorem effect_of_kept (ha : f.readsAndWrites) (hk : f.open_ locked = false ∨ f.mask &&& beMask be = 0) :
    f.effect locked old v be = fld old f.hi f.lo := by
  rcases ha with h | h <;> rcases hk with hk | hk <;> simp [effect, h, hk]

theorem effect_of_takesWrittenBits (ha : f.takesWrittenBits) :
    f.effect locked old v be = fld (v &&& beMask be) f.hi f.lo := by
  rcases ha with h | h | h <;> simp only [effect, h]

/-! ## What a field holds after the write -/

theorem after_of_readsAndWrites (w : Word) (ha : f.readsAndWrites) : f.after old w = fld w f.hi f.lo := by
  rcases ha with h | h <;> simp only [after, h]

theorem after_of_ro (w : Word) (ha : f.acc = .ro) : f.after old w = fld old f.hi f.lo := by simp only [after, ha]

theorem after_of_wo (w : Word) (ha : f.acc = .wo) : f.after old w = 0 := by simp only [after, ha]

theorem after_of_w1c (w : Word) (ha : f.acc = .w1c) : f.after old w = fld (old &&& ~~~w) f.hi f.lo := by
  simp only [after, ha]

theorem after_of_w1s (w : Word) (ha : f.acc = .w1s) : f.after old w = fld (old ||| w) f.hi f.lo := by
  simp only [after, ha]

/-- What the field holds after the word `v` is written with the byte enables `be`, where the register held `old`. -/
def written : Nat := f.after old (setFld 0#32 f.hi f.lo (f.effect locked old v be))

variable (hlo : f.lo ≤ f.hi) (hhi : f.hi < 32)
include hlo hhi

/-- An RW field, or an RWL field that is not locked, takes the enabled bytes, moved into its range (R602). -/
theorem written_of_open (ho : f.open_ locked = true) (hm : f.mask &&& beMask be ≠ 0) :
    f.written locked old v be = f.clamp (fld (mergeBytes old v be) f.hi f.lo) % 2 ^ (f.hi + 1 - f.lo) := by
  have ha : f.readsAndWrites := ((open_iff f locked).1 ho).imp_right And.left
  rw [written, after_of_readsAndWrites f old _ ha, effect_of_open f locked old v be ho hm,
    fld_setFld_zero _ _ _ hlo hhi]

/-- Without a range the enabled bytes are taken as they are written. -/
theorem written_of_open_of_no_lim (ho : f.open_ locked = true) (hm : f.mask &&& beMask be ≠ 0) (hl : f.lim = none) :
    f.written locked old v be = fld (mergeBytes old v be) f.hi f.lo := by
  rw [written_of_open f locked old v be hlo hhi ho hm, clamp_of_no_lim f _ hl, fld_mod]

/-- A field that is locked, or that no enabled byte touches, keeps its value. -/
theorem written_of_kept (ha : f.readsAndWrites) (hk : f.open_ locked = false ∨ f.mask &&& beMask be = 0) :
    f.written locked old v be = fld old f.hi f.lo := by
  rw [written, after_of_readsAndWrites f old _ ha, effect_of_kept f locked old v be ha hk,
    fld_setFld_zero_fld _ _ _ hlo hhi]

/-- The enabled bits written with 1 clear the bits of a W1C field; the others stay. -/
theorem nbit_written_of_w1c (b : Nat) (hb : b ≤ f.hi - f.lo) (ha : f.acc = .w1c) :
    nbit (f.written locked old v be) b = (bitOf old (f.lo + b) && !bitOf (v &&& beMask be) (f.lo + b)) := by
  have hw := bitOf_setFld_zero_fld (v &&& beMask be) f.hi f.lo b hlo hhi hb
  rw [written, after_of_w1c f old _ ha, effect_of_takesWrittenBits f locked old v be (.inl ha), nbit,
    fld_testBit _ _ _ _ hlo hb, bitOf_and old, bitOf_not _ _ (by omega), hw]

/-- The enabled bits written with 1 set the bits of a W1S field; the others stay. -/
theorem nbit_written_of_w1s (b : Nat) (hb : b ≤ f.hi - f.lo) (ha : f.acc = .w1s) :
    nbit (f.written locked old v be) b = (bitOf old (f.lo + b) || bitOf (v &&& beMask be) (f.lo + b)) := by
  have hw := bitOf_setFld_zero_fld (v &&& beMask be) f.hi f.lo b hlo hhi hb
  rw [written, after_of_w1s f old _ ha, effect_of_takesWrittenBits f locked old v be (.inr (.inl ha)), nbit,
    fld_testBit _ _ _ _ hlo hb, bitOf_or old, hw]

end

end RegField

/-- Settles O9, one clause for each access code of R10. -/
theorem accessCodes : Obligations.AccessCodes := by
  intro f locked old v be hlo hhi
  refine ⟨?ro, ?wo, ?writable, ?untouched, ?locked, ?w1c, ?w1s⟩
  case ro => exact f.after_of_ro old _
  case wo => exact f.after_of_wo old _
  case writable =>
    intro ho hl hm
    exact f.written_of_open_of_no_lim locked old v be hlo hhi ((f.open_iff locked).2 ho) hm hl
  case untouched =>
    intro ha hm
    exact f.written_of_kept locked old v be hlo hhi ha (.inr hm)
  case locked =>
    rintro ⟨ha, hlk⟩
    have hclosed : f.open_ locked = false := by simp [RegField.open_, ha, hlk]
    exact f.written_of_kept locked old v be hlo hhi (.inr ha) (.inl hclosed)
  case w1c => exact f.nbit_written_of_w1c locked old v be hlo hhi
  case w1s => exact f.nbit_written_of_w1s locked old v be hlo hhi

end Sys2Proof.Machine
end

section
/-! PROOFS. The pending list (R29, R30, R173, R176): what an update makes of the list and its status, the one command of the oldest
passed update, and what a write of PL_QCMD with GO answers. -/

namespace Sys2Proof.Machine

open Sys2Proof

/-! ## Rising lists of numbers -/

@[simp] theorem mem_insNat (n j : Nat) (l : List Nat) : j ∈ insNat n l ↔ j = n ∨ j ∈ l := by
  induction l with
  | nil => simp [insNat]
  | cons k t ih =>
    unfold insNat
    split
    case isTrue => simp
    case isFalse =>
      split
      case isTrue h => simp [h]
      case isFalse => simp [ih, or_left_comm]

@[simp] theorem mem_delNat (n j : Nat) (l : List Nat) : j ∈ delNat n l ↔ j ≠ n ∧ j ∈ l := by
  simp [delNat, and_comm]

/-! ## An update of the list (table "Pending-list updates") -/

theorem plApply_set_present (l : List Nat) (ext : Bool) (a : Nat) (h : plKey ext a ∈ l) :
    plApply l (.set ext a) = (l, 1) := by
  simp [plApply, h]

theorem plApply_set_room (l : List Nat) (ext : Bool) (a : Nat) (h : plKey ext a ∉ l) (hroom : l.length < plMax) :
    plApply l (.set ext a) = (insNat (plKey ext a) l, 0) := by
  simp [plApply, h, Nat.not_le.2 hroom]

theorem plApply_set_full (l : List Nat) (ext : Bool) (a : Nat) (h : plKey ext a ∉ l) (hfull : plMax ≤ l.length) :
    plApply l (.set ext a) = (l, 3) := by
  simp [plApply, h, hfull]

theorem plApply_clear_status (l : List Nat) (ext : Bool) (a : Nat) :
    (plApply l (.clear ext a)).2 = if l.contains (plKey ext a) then 0 else 2 := by
  simp only [plApply]
  split <;> rfl

theorem mem_plApply_clear (l : List Nat) (ext : Bool) (a j : Nat) :
    j ∈ (plApply l (.clear ext a)).1 ↔ j ≠ plKey ext a ∧ j ∈ l := by
  by_cases h : plKey ext a ∈ l
  · simp [plApply, h]
  · have hne : j ∈ l → j ≠ plKey ext a := fun hj e => h (e ▸ hj)
    simpa [plApply, h] using hne

/-- The commons after the oldest passed update, before its completion is offered: the rest of the updates wait, the list and its
peak follow the update, and a full list is counted (R173). -/
def Commons.plPerformed (c : Commons) (op : PlOp) (rest : List PlOp) : Commons :=
  let r := plApply c.air.list op
  let d := { c with air := { c.air with updates := rest, list := r.1, listPeak := max c.air.listPeak r.1.length } }
  if r.2 = 3 then d.count Pg.AIR Reg.AIR_PL_FULL else d

@[simp] theorem Commons.plPerformed_list (c : Commons) (op : PlOp) (rest : List PlOp) :
    (c.plPerformed op rest).air.list = (plApply c.air.list op).1 := by
  unfold plPerformed; dsimp only; split <;> rfl

@[simp] theorem Commons.plPerformed_updates (c : Commons) (op : PlOp) (rest : List PlOp) :
    (c.plPerformed op rest).air.updates = rest := by
  unfold plPerformed; dsimp only; split <;> rfl

theorem plUpdate_of_wanted (s : State) (want : PlOp → Bool) (op : PlOp) (rest : List PlOp) (hq : s.c.air.updates = op :: rest)
    (hw : want op = true) :
    plUpdate s want =
      (s.updC fun c => c.plPerformed op rest).offer .units (.plDone op (plApply s.c.air.list op).2) := by
  simp only [plUpdate, hq, hw, if_true]
  rfl

theorem sameSides_updC (s : State) (f : Commons → Commons) : sameSides s (s.updC f) := ⟨rfl, rfl, rfl, rfl⟩

/-! ## The commands -/

/-- The command of the table that performs an update. -/
def PlOp.instr : PlOp → Instr
  | .set _ _ => .pendingListSet
  | .clear _ _ => .pendingListClear
  | .clearAll => .pendingListClearAll

/-- A row of the table that takes the oldest update performs it and offers its completion, as one input for both sides. -/
theorem plUpdate_row (s : State) (want : PlOp → Bool) (op : PlOp) (rest : List PlOp) (hup : commonsUp s = true)
    (hq : s.c.air.updates = op :: rest) (hw : want op = true) :
    (.next (if commonsUp s then fin (plUpdate s want) else s) : Host.Outcome State Fault Refusal) =
      .next (fin ((s.updC fun c => c.plPerformed op rest).offer .units (.plDone op (plApply s.c.air.list op).2))) := by
  rw [if_pos hup, plUpdate_of_wanted s want op rest hq hw]

/-- The command of the oldest passed update gives the list and its completion's status as the table says of the operation; the sides,
the queue and the variant are as before when the completion is offered. -/
theorem exec_instr_of_oldest (s : State) (op : PlOp) (rest : List PlOp) (hup : commonsUp s = true)
    (hq : s.c.air.updates = op :: rest) :
    ∃ u, exec op.instr s = .next (fin (u.offer .units (.plDone op (plApply s.c.air.list op).2))) ∧ sameSides s u ∧
      u.c.air.list = (plApply s.c.air.list op).1 ∧ u.c.air.updates = rest := by
  refine ⟨s.updC fun c => c.plPerformed op rest, ?_, sameSides_updC s _, by simp, by simp⟩
  cases op with
  | set ext a => exact plUpdate_row s _ _ rest hup hq rfl
  | clear ext a => exact plUpdate_row s _ _ rest hup hq rfl
  | clearAll => exact plUpdate_row s _ _ rest hup hq rfl

/-! ## A query (R176) -/

theorem beMask_all : beMask 15 = BitVec.allOnes 32 := by decide

@[simp] theorem mergeBytes_all (old v : Word) : mergeBytes old v 15 = v := by
  rw [mergeBytes, beMask_all, BitVec.not_allOnes, BitVec.and_zero, BitVec.zero_or, BitVec.and_allOnes]

theorem regRow_plQcmd : regRow Pg.AIR Reg.AIR_PL_QCMD =
    some ⟨Reg.AIR_PL_QCMD, 1, 0, false, 0, [⟨0, 0, .rw, none⟩, ⟨1, 1, .wo, none⟩]⟩ := by decide

/-- A whole write to PL_QCMD takes its mode and GO as written, whatever the register held. -/
theorem wordTaken_plQcmd (s : State) (v : Word) : wordTaken s Pg.AIR Reg.AIR_PL_QCMD v = w32 (v.toNat % 4) := by
  have hmode (locked old) : (⟨0, 0, .rw, none⟩ : RegField).effect locked old v 15 = fld v 0 0 := by
    rw [RegField.effect_of_open _ _ _ _ _ ((RegField.open_iff _ _).2 (.inl rfl)) (by decide), RegField.clamp_of_no_lim _ _ rfl,
      mergeBytes_all]
  have hgo (locked old) : (⟨1, 1, .wo, none⟩ : RegField).effect locked old v 15 = fld v 1 1 := by
    rw [RegField.effect_of_takesWrittenBits _ _ _ _ _ (.inr (.inr rfl)), beMask_all, BitVec.and_allOnes]
  simp only [wordTaken, regRow_plQcmd, RegRow.effect, List.foldl, hmode, hgo]
  refine congrArg w32 ?_
  simp only [setFld, fld, toNat_w32, BitVec.toNat_zero]
  omega

theorem bitOf_wordTaken_plQcmd (s : State) (v : Word) (n : Nat) (hn : n < 2) :
    bitOf (wordTaken s Pg.AIR Reg.AIR_PL_QCMD v) n = bitOf v n := by
  have h4 : v.toNat % 4 % 2 ^ 32 = v.toNat % 2 ^ 2 := by omega
  rw [wordTaken_plQcmd, bitOf, toNat_w32, h4, Nat.testBit_mod_two_pow, decide_eq_true hn, Bool.true_and, bitOf]

/-- A query asked in this cycle has its answer at once. -/
@[simp] theorem AirState.answer_asked_now (a : AirState) (lt key : Nat) :
    ({ a with asked := some (lt, key) } : AirState).answer lt =
      { a with asked := some (lt, key), qres := some (a.listNow.contains key) } := by
  simp only [answer, if_true]
  rfl

/-- A query answers in the cycle of its GO, from the list with every update that has passed. -/
theorem plQuery_go (c : Commons) (v : Word) (h : bitOf v 1 = true) :
    (plQuery c v).air.list = c.air.list ∧ (plQuery c v).air.qres =
      some (c.air.listNow.contains (plKey (bitOf v 0) (rd64 c.regs Pg.AIR Reg.AIR_PL_QADDR_LO))) := by
  simp [plQuery, h]

/-- A port's write to PL_QCMD is counted and is a query. -/
theorem pageWrite_plQcmd (s : State) (r : Requester) (v : Word) (hw : wayFree s r)
    (ht : takesWrite s r Pg.AIR Reg.AIR_PL_QCMD) :
    pageWrite s r Pg.AIR Reg.AIR_PL_QCMD v =
      (posted s r).updC fun c => plQuery c (wordTaken s Pg.AIR Reg.AIR_PL_QCMD v) :=
  port_act s r _ _ v _ hw ht (by decide) (by decide) (by decide) (by decide) (by decide) (by decide) rfl

/-- Counting the write leaves the query address. -/
theorem posted_rd64_plQaddr (s : State) (r : Requester) :
    rd64 (posted s r).c.regs Pg.AIR Reg.AIR_PL_QADDR_LO = rd64 s.c.regs Pg.AIR Reg.AIR_PL_QADDR_LO := by
  have hpage : Pg.AIR ≠ Pg.HOSTA ∧ Pg.AIR ≠ Pg.HOSTB := by decide
  simp only [rd64, posted_rd s r Pg.AIR _ (by decide) (by decide : Reg.AIR_PL_QADDR_LO < 4096) (.inl hpage),
    posted_rd s r Pg.AIR _ (by decide) (by decide : Reg.AIR_PL_QADDR_LO + 4 < 4096) (.inl hpage)]

theorem sameSides_updC_posted (s : State) (r : Requester) (f : Commons → Commons) : sameSides s ((posted s r).updC f) := by
  simp [sameSides, sameMachine]

/-- Settles O32: an update by the table's effect and status of its operation, a query by the word that PL_QCMD takes. -/
theorem pendingList : Obligations.PendingList := by
  refine ⟨?set, ?clear, ?clearAll, ?query⟩
  case set =>
    intro s ext a rest hup hq
    obtain ⟨u, he, hs, hl, hr⟩ := exec_instr_of_oldest s (.set ext a) rest hup hq
    refine ⟨fun hk => ?present, fun hk hroom => ?room, fun hk hfull => ?full⟩
    case present =>
      rw [plApply_set_present _ _ _ hk] at he hl
      exact ⟨u, he, hs, hl, hr⟩
    case room =>
      rw [plApply_set_room _ _ _ hk hroom] at he hl
      exact ⟨u, he, hs, by simp [hl], hr⟩
    case full =>
      rw [plApply_set_full _ _ _ hk hfull] at he hl
      exact ⟨u, he, hs, hl, hr⟩
  case clear =>
    intro s ext a rest hup hq
    obtain ⟨u, he, hs, hl, hr⟩ := exec_instr_of_oldest s (.clear ext a) rest hup hq
    rw [plApply_clear_status] at he
    exact ⟨u, he, hs, fun j => hl ▸ mem_plApply_clear s.c.air.list ext a j, hr⟩
  case clearAll => exact fun s rest hup hq => exec_instr_of_oldest s .clearAll rest hup hq
  case query =>
    intro s r v hw ht hgo
    have hq := plQuery_go (posted s r).c (wordTaken s Pg.AIR Reg.AIR_PL_QCMD v)
      ((bitOf_wordTaken_plQcmd s v 1 (by decide)).trans hgo)
    rw [posted_air, bitOf_wordTaken_plQcmd s v 0 (by decide), posted_rd64_plQaddr] at hq
    exact ⟨_, congrArg (Host.Outcome.next <| fin ·) (pageWrite_plQcmd s r v hw ht), sameSides_updC_posted s r _, hq⟩

end Sys2Proof.Machine
end

section
/-! PROOFS. The verdict (R428 to R430): what records a result, what the verdict counts and raises, what the operations that it
is made of leave of Bezel and of the lease, and the four rows of the table "Verdicts". -/

namespace Sys2Proof.Machine

open Sys2Proof

/-! ## Bezel's seats -/

@[simp] theorem SideId.other_other (x : SideId) : x.other.other = x := by cases x <;> rfl

theorem SideId.other_ne (x : SideId) : x.other ≠ x := by cases x <;> decide

namespace BezelState

variable (z : BezelState) (x : SideId) (st : SideSt) (l : List (Nat × Txn))

@[simp] theorem st_setSt_same : (z.setSt x st).st x = st := by cases x <;> rfl
@[simp] theorem st_setSt_other : (z.setSt x st).st x.other = z.st x.other := by cases x <;> rfl
@[simp] theorem st_other_setSt : (z.setSt x.other st).st x = z.st x := by cases x <;> rfl
@[simp] theorem heldOf_setSt (y : SideId) : (z.setSt x st).heldOf y = z.heldOf y := by cases x <;> cases y <;> rfl
@[simp] theorem hold_setSt : (z.setSt x st).hold = z.hold := by cases x <;> rfl
@[simp] theorem dead_setSt : (z.setSt x st).dead = z.dead := by cases x <;> rfl
@[simp] theorem refill_setSt : (z.setSt x st).refill = z.refill := by cases x <;> rfl

@[simp] theorem st_dropHeld (y : SideId) : (z.dropHeld x).st y = z.st y := by cases x <;> cases y <;> rfl
@[simp] theorem heldOf_other_dropHeld : (z.dropHeld x.other).heldOf x = z.heldOf x := by cases x <;> rfl
@[simp] theorem hold_dropHeld : (z.dropHeld x).hold = z.hold := by cases x <;> rfl
@[simp] theorem dead_dropHeld : (z.dropHeld x).dead = z.dead := by cases x <;> rfl
@[simp] theorem refill_dropHeld : (z.dropHeld x).refill = z.refill := by cases x <;> rfl

@[simp] theorem st_setHeld (y : SideId) : (z.setHeld x l).st y = z.st y := by cases x <;> cases y <;> rfl
@[simp] theorem heldOf_setHeld_same : (z.setHeld x l).heldOf x = l := by cases x <;> rfl
@[simp] theorem hold_setHeld : (z.setHeld x l).hold = z.hold := by cases x <;> rfl
@[simp] theorem dead_setHeld : (z.setHeld x l).dead = z.dead := by cases x <;> rfl
@[simp] theorem refill_setHeld : (z.setHeld x l).refill = z.refill := by cases x <;> rfl

/-- A refill in hand. -/
def beginRefill (r : Refill) : BezelState := { z with refill := some r }

@[simp] theorem st_beginRefill (r : Refill) : (z.beginRefill r).st x = z.st x := by cases x <;> rfl
@[simp] theorem heldOf_beginRefill (r : Refill) : (z.beginRefill r).heldOf x = z.heldOf x := by cases x <;> rfl
@[simp] theorem hold_beginRefill (r : Refill) : (z.beginRefill r).hold = z.hold := rfl
@[simp] theorem dead_beginRefill (r : Refill) : (z.beginRefill r).dead = z.dead := rfl
@[simp] theorem refill_beginRefill (r : Refill) : (z.beginRefill r).refill = some r := rfl

end BezelState

/-! ## The count and the event of a verdict -/

/-- The registers of the BEZEL page read as before. -/
def sameBezelPage (t t' : Tab Word) : Prop := ∀ off, off < 4096 → rd t' Pg.BEZEL off = rd t Pg.BEZEL off

theorem sameBezelPage.refl (t : Tab Word) : sameBezelPage t t := fun _ _ => rfl

theorem sameBezelPage.trans {t u v : Tab Word} (h : sameBezelPage t u) (k : sameBezelPage u v) : sameBezelPage t v :=
  fun off ho => (k off ho).trans (h off ho)

/-- A register of another page set leaves the BEZEL page. -/
theorem sameBezelPage_wr (t : Tab Word) (p o : Nat) (v : Word) (hp : p ≠ Pg.BEZEL) (hp' : p < 128) (ho : o < 4096) :
    sameBezelPage t (wr t p o v) :=
  fun off hoff => rd_wr_other _ _ _ _ _ _ fun hk => hp (rkey_inj _ _ _ _ _ _ hoff (by decide) ho hp' hk).1.symm

/-- The semaphores that a move of the lease hands over leave the BEZEL page. -/
theorem sameBezelPage_moveSems (t : Tab Word) (owner : Nat) : sameBezelPage t (moveSems t owner) := by
  refine List.foldlRecOn (motive := sameBezelPage t) _ _ (sameBezelPage.refl t) fun u hu n hn => ?_
  have hn64 : n < 64 := List.mem_range.1 hn
  dsimp only
  split
  · exact hu.trans (sameBezelPage_wr _ _ _ _ (by decide) (by decide) (by simp only [Reg.SEM_SEM]; omega))
  · exact hu

@[simp] theorem bitOf_bitMask (n : Nat) (h : n < 32) : bitOf (bitMask n) n = true := by
  rw [bitOf, bitMask, toNat_w32, Nat.mod_eq_of_lt (Nat.pow_lt_pow_right (by decide) h), Nat.testBit_two_pow_self]

/-- A verdict has counted in a counter of the BEZEL page and raised an event of it. -/
structure Recorded (off ev : Nat) (s u : State) : Prop where
  counted : counts Pg.BEZEL off s.c.regs u.c.regs
  raised : rb u.c.regs Pg.BEZEL Reg.HDR_EVT_STAT ev = true

theorem Recorded.of_sameBezelPage {off ev : Nat} {s t u : State} (h : Recorded off ev s t) (ho : off < 4096)
    (k : sameBezelPage t.c.regs u.c.regs) : Recorded off ev s u where
  counted := (k off ho).trans h.counted
  raised := by rw [rb, k _ (by decide)]; exact h.raised

/-- What every verdict begins with: the hold ends, the outcome is counted and its event is raised (R429, R430). -/
def endHold (s : State) (off ev : Nat) : State :=
  ((s.updZ fun z => { z with hold := none }).bumpC Pg.BEZEL off).event Pg.BEZEL ev

@[simp] theorem endHold_bezel (s : State) (off ev : Nat) :
    (endHold s off ev).c.bezel = { s.c.bezel with hold := none } := rfl
@[simp] theorem endHold_clasp (s : State) (off ev : Nat) : (endHold s off ev).c.clasp = s.c.clasp := rfl

theorem endHold_recorded (s : State) (off ev : Nat) (ho : off < 4096) (hne : off ≠ Reg.HDR_EVT_STAT) (hev : ev < 32) :
    Recorded off ev s (endHold s off ev) where
  counted := by
    have hk : rkey Pg.BEZEL off 0 ≠ rkey Pg.BEZEL Reg.HDR_EVT_STAT 0 := fun hk =>
      hne (rkey_inj _ _ _ _ _ _ ho (by decide) (by decide) (by decide) hk).2.1
    exact (rd_wr_other _ _ _ _ _ _ hk).trans (rd_bump_same _ _ _)
  raised := by
    have hw : rd (endHold s off ev).c.regs Pg.BEZEL Reg.HDR_EVT_STAT = _ ||| bitMask ev := rd_wr_same _ _ _ _
    rw [rb, hw, bitOf_or, bitOf_bitMask ev hev, Bool.or_true]

/-! ## Operations that leave Bezel's sides as they are -/

/-- What a verdict reads and writes of Bezel is as before: the sides' states and held members, the hold, the refill, the BEZEL
page; so are the variant and LT. -/
structure SameSeats (s u : State) : Prop where
  st : ∀ x, u.c.bezel.st x = s.c.bezel.st x
  heldOf : ∀ x, u.c.bezel.heldOf x = s.c.bezel.heldOf x
  hold : u.c.bezel.hold = s.c.bezel.hold
  dead : u.c.bezel.dead = s.c.bezel.dead
  refill : u.c.bezel.refill = s.c.bezel.refill
  page : sameBezelPage s.c.regs u.c.regs
  variant : u.variant = s.variant
  lt : u.c.lt = s.c.lt

theorem SameSeats.refl (s : State) : SameSeats s s :=
  ⟨fun _ => rfl, fun _ => rfl, rfl, rfl, rfl, sameBezelPage.refl _, rfl, rfl⟩

theorem sequence_sameSeats (s : State) (i : Input) : SameSeats s (s.sequence i) :=
  ⟨fun x => by cases x <;> rfl, fun x => by cases x <;> rfl, rfl, rfl, rfl, sameBezelPage.refl _, rfl, rfl⟩

theorem notice_sameSeats (s : State) (n : Notice) : SameSeats s (s.notice n) := by
  unfold State.notice State.offer
  split
  · exact ⟨fun x => by cases x <;> rfl, fun x => by cases x <;> rfl, rfl, rfl, rfl, sameBezelPage.refl _, rfl, rfl⟩
  · exact sequence_sameSeats s _

@[simp] theorem notice_clasp (s : State) (n : Notice) : (s.notice n).c.clasp = s.c.clasp := by
  unfold State.notice State.offer
  split <;> rfl

@[simp] theorem endDrill_bezel (s : State) : (endDrill s).c.bezel = s.c.bezel := by
  unfold endDrill
  split <;> rfl

@[simp] theorem endDrill_holder (s : State) : (endDrill s).c.clasp.holder = s.c.clasp.holder := by
  unfold endDrill
  split <;> rfl

@[simp] theorem endDrill_token (s : State) : (endDrill s).c.clasp.token = s.c.clasp.token := by
  unfold endDrill
  split <;> rfl

theorem endDrill_sameBezelPage (s : State) : sameBezelPage s.c.regs (endDrill s).c.regs := by
  unfold endDrill
  split
  · exact sameBezelPage_wr _ _ _ _ (by decide) (by decide) (by decide)
  · exact sameBezelPage.refl _

/-! ## The lease -/

@[simp] theorem ClaspState.holder_setReady (k : ClaspState) (x : SideId) (r : Bool) : (k.setReady x r).holder = k.holder := by
  cases x <;> rfl

@[simp] theorem ClaspState.token_setReady (k : ClaspState) (x : SideId) (r : Bool) : (k.setReady x r).token = k.token := by
  cases x <;> rfl

theorem ClaspState.holder_of_agree (k : ClaspState) (h : k.r0 = k.r1) :
    k.holder = if k.r0.holder = 1 then some .a else if k.r0.holder = 2 then some .b else none := by
  simp [ClaspState.holder, ClaspState.vote, h]

theorem ClaspState.token_of_agree (k : ClaspState) (h : k.r0 = k.r1) : k.token = k.r0.token := by
  simp [ClaspState.token, ClaspState.vote, h]

theorem grant_holder (s : State) (x : SideId) (marker : Bool) : (grant s x marker).c.clasp.holder = some x := by
  have hr : (grant s x marker).c.clasp.r0.holder = x.num := rfl
  rw [ClaspState.holder_of_agree _ rfl, hr]
  cases x <;> rfl

theorem grant_token (s : State) (x : SideId) (marker : Bool) :
    (grant s x marker).c.clasp.token = nextToken s.c.clasp.token := ClaspState.token_of_agree _ rfl

theorem revoke_holder (s : State) : (revoke s).c.clasp.holder = none := by
  have hr : (revoke s).c.clasp.r0.holder = 0 := rfl
  rw [ClaspState.holder_of_agree _ rfl, hr]
  rfl

theorem grant_regs (s : State) (x : SideId) (marker : Bool) : (grant s x marker).c.regs =
    moveSems ((s.c.count Pg.CLASP Reg.CLASP_GRANTS).event Pg.CLASP 0).regs (x.num + 2) := by
  simp [grant, State.sequence]

theorem grant_sameSeats (s : State) (x : SideId) (marker : Bool) : SameSeats s (grant s x marker) where
  st y := by cases y <;> rfl
  heldOf y := by cases y <;> rfl
  hold := rfl
  dead := rfl
  refill := rfl
  page := by
    have hcount : sameBezelPage s.c.regs (s.c.count Pg.CLASP Reg.CLASP_GRANTS).regs :=
      sameBezelPage_wr _ _ _ _ (by decide) (by decide) (by decide)
    have hevent : sameBezelPage (s.c.count Pg.CLASP Reg.CLASP_GRANTS).regs
        ((s.c.count Pg.CLASP Reg.CLASP_GRANTS).event Pg.CLASP 0).regs :=
      sameBezelPage_wr _ _ _ _ (by decide) (by decide) (by decide)
    rw [grant_regs]
    exact (hcount.trans hevent).trans (sameBezelPage_moveSems _ _)
  variant := rfl
  lt := rfl

/-- The winner has the lease: it keeps it, or it is granted it. -/
def giveLease (s : State) (w : SideId) : State := if s.c.clasp.holder = some w then s else grant s w false

theorem giveLease_holder (s : State) (w : SideId) : (giveLease s w).c.clasp.holder = some w := by
  unfold giveLease
  split
  · assumption
  · exact grant_holder s w false

theorem giveLease_sameSeats (s : State) (w : SideId) : SameSeats s (giveLease s w) := by
  unfold giveLease
  split
  · exact SameSeats.refl s
  · exact grant_sameSeats s w false

/-! ## Both sides stop -/

theorem halt_holder (s : State) : (halt s).c.clasp.holder = none := revoke_holder _

theorem halt_bezel (s : State) : (halt s).c.bezel =
    { s.c.bezel with
      dead := true, hold := none, heldA := [], heldB := [], refill := none
      stA := if s.c.bezel.stA = .off then .off else .stopped
      stB := if s.c.bezel.stB = .off then .off else .stopped } := by
  simp [halt, revoke]

theorem halt_sameBezelPage (s : State) : sameBezelPage s.c.regs (halt s).c.regs := endDrill_sameBezelPage s

/-! ## One side wins -/

/-- The winner's member of the pair is the next to pass. -/
def offerMember (s : State) (m : Mismatch) (w : SideId) : State :=
  match m.member w with
  | some t => s.updZ fun z => z.setHeld w ((s.c.lt, t) :: z.heldOf w)
  | none => s

/-- Both sides are in their self-checks; there is no double failure and no refill. -/
structure InSelfCheck (s : State) : Prop where
  full : s.variant.full = true
  checks : ∀ x, s.c.bezel.st x = .selfCheck
  alive : s.c.bezel.dead = false
  noRefill : s.c.bezel.refill = none

theorem InSelfCheck.of_sameSeats {s u : State} (h : InSelfCheck s) (k : SameSeats s u) : InSelfCheck u where
  full := by rw [k.variant, h.full]
  checks x := (k.st x).trans (h.checks x)
  alive := k.dead.trans h.alive
  noRefill := k.refill.trans h.noRefill

/-- The member of the pair that a side offered stands first in what Bezel holds of it. -/
def memberFirst (m : Mismatch) (w : SideId) (lt : Nat) (z : BezelState) : Prop :=
  ∀ t, m.member w = some t → (z.heldOf w).head? = some (lt, t)

theorem offerMember_inSelfCheck (s : State) (m : Mismatch) (w : SideId) (h : InSelfCheck s) :
    InSelfCheck (offerMember s m w) := by
  obtain ⟨hv, hc, hd, hr⟩ := h
  unfold offerMember
  split <;> constructor <;> simpa

theorem offerMember_first (s : State) (m : Mismatch) (w : SideId) :
    memberFirst m w s.c.lt (offerMember s m w).c.bezel := by
  intro t ht
  simp [offerMember, ht]

@[simp] theorem offerMember_clasp (s : State) (m : Mismatch) (w : SideId) : (offerMember s m w).c.clasp = s.c.clasp := by
  unfold offerMember
  split <;> rfl

@[simp] theorem offerMember_regs (s : State) (m : Mismatch) (w : SideId) : (offerMember s m w).c.regs = s.c.regs := by
  unfold offerMember
  split <;> rfl

@[simp] theorem offerMember_hold (s : State) (m : Mismatch) (w : SideId) :
    (offerMember s m w).c.bezel.hold = s.c.bezel.hold := by
  unfold offerMember
  split <;> simp

/-- A side serves alone, and a refill of the other can begin. -/
structure ServesAlone (w : SideId) (u : State) : Prop where
  full : u.variant.full = true
  alone : u.c.bezel.st w = .alone
  released : u.c.bezel.hold = none
  alive : u.c.bezel.dead = false
  noRefill : u.c.bezel.refill = none

theorem ServesAlone.of_sameSeats {w : SideId} {s u : State} (h : ServesAlone w s) (k : SameSeats s u) : ServesAlone w u where
  full := by rw [k.variant, h.full]
  alone := (k.st w).trans h.alone
  released := k.hold.trans h.released
  alive := k.dead.trans h.alive
  noRefill := k.refill.trans h.noRefill

/-- A side leaves its self-check: the other serves alone, with what Bezel holds of it. -/
theorem leave_bezel_of_selfCheck (s : State) (w : SideId) (h : s.c.bezel.st w = .selfCheck) :
    (leave s w.other).c.bezel = ((s.c.bezel.setSt w.other .off).dropHeld w.other).setSt w .alone := by
  simp [leave, h]

theorem leave_servesAlone (s : State) (w : SideId) (h : InSelfCheck s) (hh : s.c.bezel.hold = none) :
    ServesAlone w (leave s w.other) := by
  have hz := leave_bezel_of_selfCheck s w (h.checks w)
  exact
    { full := by simpa using h.full
      alone := by simp [hz]
      released := by simpa [hz] using hh
      alive := by simpa [hz] using h.alive
      noRefill := by simpa [hz] using h.noRefill }

theorem leave_heldOf (s : State) (w : SideId) (h : InSelfCheck s) :
    (leave s w.other).c.bezel.heldOf w = s.c.bezel.heldOf w := by
  simp [leave_bezel_of_selfCheck s w (h.checks w)]

@[simp] theorem leave_holder (s : State) (x : SideId) : (leave s x).c.clasp.holder = s.c.clasp.holder := by simp [leave]

@[simp] theorem leave_token (s : State) (x : SideId) : (leave s x).c.clasp.token = s.c.clasp.token := by simp [leave]

theorem leave_sameBezelPage (s : State) (x : SideId) : sameBezelPage s.c.regs (leave s x).c.regs := by
  simpa [leave] using endDrill_sameBezelPage s

/-- While the other side serves alone and no refill is in progress, a refill begins with the side's restart (R433). -/
theorem startRefill_eq (s : State) (x : SideId) (tries : Nat) (fwu : Bool) (hv : s.variant.full = true)
    (ho : s.c.bezel.st x.other = .alone) (hr : s.c.bezel.refill = none) :
    startRefill s x tries fwu = bootSide (s.updZ fun z => z.beginRefill
      { side := x, tries := tries, phase := 1, fwu := fwu, retryAt := none, copy := 0 }) x false := by
  simp [startRefill, hv, ho, hr, BezelState.refilling, BezelState.beginRefill]

@[simp] theorem bootSide_bezel (s : State) (x : SideId) (keepRoot : Bool) :
    (bootSide s x keepRoot).c.bezel = (s.c.bezel.setSt x .boot).dropHeld x := by simp [bootSide]

@[simp] theorem bootSide_clasp (s : State) (x : SideId) (keepRoot : Bool) :
    (bootSide s x keepRoot).c.clasp = s.c.clasp.setReady x false := by simp [bootSide]

@[simp] theorem bootSide_regs (s : State) (x : SideId) (keepRoot : Bool) : (bootSide s x keepRoot).c.regs = s.c.regs := by
  simp [bootSide]

/-- A verdict has gone to a side: the commons go on, it holds the lease and serves alone, its member of the pair is the next to
pass, and the other side restarts in the first phase of a refill. -/
structure SettledFor (m : Mismatch) (w : SideId) (lt : Nat) (u : State) : Prop where
  goesOn : u.c.bezel.held = false
  holder : u.c.clasp.holder = some w
  alone : u.c.bezel.st w = .alone
  restarts : u.c.bezel.st w.other = .boot
  refills : (u.c.bezel.refill.map fun r => (r.side, r.phase)) = some (w.other, 1)
  passes : memberFirst m w lt u.c.bezel

/-- The winner serves alone and holds the lease; the other side is out and its refill has not begun. -/
def beforeRefill (s : State) (m : Mismatch) (w : SideId) : State := giveLease (leave (offerMember s m w) w.other) w

theorem beforeRefill_servesAlone (s : State) (m : Mismatch) (w : SideId) (h : InSelfCheck s)
    (hh : s.c.bezel.hold = none) : ServesAlone w (beforeRefill s m w) :=
  (leave_servesAlone _ w (offerMember_inSelfCheck s m w h) (by simpa using hh)).of_sameSeats (giveLease_sameSeats _ w)

theorem beforeRefill_holder (s : State) (m : Mismatch) (w : SideId) :
    (beforeRefill s m w).c.clasp.holder = some w := giveLease_holder _ w

theorem beforeRefill_first (s : State) (m : Mismatch) (w : SideId) (h : InSelfCheck s) :
    memberFirst m w s.c.lt (beforeRefill s m w).c.bezel := by
  intro t ht
  rw [beforeRefill, (giveLease_sameSeats _ w).heldOf, leave_heldOf _ w (offerMember_inSelfCheck s m w h)]
  exact offerMember_first s m w t ht

theorem beforeRefill_sameBezelPage (s : State) (m : Mismatch) (w : SideId) :
    sameBezelPage s.c.regs (beforeRefill s m w).c.regs := by
  have hleave := leave_sameBezelPage (offerMember s m w) w.other
  rw [offerMember_regs] at hleave
  exact hleave.trans (giveLease_sameSeats _ w).page

/-- Settling for a side ends with the other side's restart in a refill (R433). -/
theorem settleFor_eq (s : State) (m : Mismatch) (w : SideId) (h : InSelfCheck s) (hh : s.c.bezel.hold = none) :
    settleFor s m w = bootSide ((beforeRefill s m w).updZ fun z => z.beginRefill
      { side := w.other, tries := 0, phase := 1, fwu := false, retryAt := none, copy := 0 }) w.other false := by
  have ha := beforeRefill_servesAlone s m w h hh
  exact startRefill_eq (beforeRefill s m w) w.other 0 false ha.full (by rw [SideId.other_other, ha.alone]) ha.noRefill

section
variable (s : State) (m : Mismatch) (w : SideId) (h : InSelfCheck s) (hh : s.c.bezel.hold = none)
include h hh

theorem settleFor_settledFor : SettledFor m w s.c.lt (settleFor s m w) := by
  obtain ⟨-, halone, hheld, halive, -⟩ := beforeRefill_servesAlone s m w h hh
  rw [settleFor_eq s m w h hh]
  exact
    { goesOn := by simp [BezelState.held, hheld, halive]
      holder := by simpa using beforeRefill_holder s m w
      alone := by simpa using halone
      restarts := by simp
      refills := by simp
      passes := fun t ht => by simpa using beforeRefill_first s m w h t ht }

theorem settleFor_sameBezelPage : sameBezelPage s.c.regs (settleFor s m w).c.regs := by
  simpa [settleFor_eq s m w h hh] using beforeRefill_sameBezelPage s m w

theorem settleFor_token : (settleFor s m w).c.clasp.token =
    if s.c.clasp.holder = some w then s.c.clasp.token else nextToken s.c.clasp.token := by
  simp only [settleFor_eq s m w h hh, bootSide_clasp, State.updZ_c, ClaspState.token_setReady, beforeRefill, giveLease,
    leave_holder, offerMember_clasp]
  split
  · simp
  · simp [grant_token]

end

/-! ## The table "Verdicts" (R429) -/

section
variable (s : State) (m : Mismatch) (h : SideId)

theorem verdict_both_fail : verdict s m h false false = halt (endHold s Reg.BEZEL_BOTH_FAIL 3) := rfl

theorem verdict_active_fails : verdict s m h false true =
    settleFor ((endHold s Reg.BEZEL_TAKEOVERS 0).notice (.takeover h.other)) m h.other := rfl

theorem verdict_shadow_fails : verdict s m h true false =
    settleFor ((endHold s Reg.BEZEL_SHADOW_FAIL 1).notice (.sideOut h.other)) m h := rfl

theorem verdict_both_pass_data (hc : m.cause = 1) : verdict s m h true true =
    settleFor ((endHold s Reg.BEZEL_TRANSIENT 2).notice .transient) m h := by simp [verdict, hc, endHold]

theorem verdict_both_pass (hc : m.cause ≠ 1) : verdict s m h true true =
    ((endHold s Reg.BEZEL_TRANSIENT 2).notice .transient).updZ fun z => { z with stA := .compared, stB := .compared } := by
  simp [verdict, hc, endHold]

end

theorem endHold_inSelfCheck (s : State) (off ev : Nat) (h : InSelfCheck s) : InSelfCheck (endHold s off ev) where
  full := h.full
  checks x := by
    have hx := h.checks x
    cases x <;> exact hx
  alive := h.alive
  noRefill := h.noRefill

theorem inSelfCheck_iff (s : State) : InSelfCheck s ↔ s.variant.full = true ∧ s.c.bezel.stA = .selfCheck ∧
    s.c.bezel.stB = .selfCheck ∧ s.c.bezel.dead = false ∧ s.c.bezel.refill = none := by
  constructor
  · exact fun ⟨hv, hc, hd, hr⟩ => ⟨hv, hc .a, hc .b, hd, hr⟩
  · rintro ⟨hv, ha, hb, hd, hr⟩
    refine ⟨hv, fun x => ?_, hd, hr⟩
    cases x with
    | a => exact ha
    | b => exact hb

/-- The verdict told to the sides: the hold has ended, its outcome is recorded, and a side can be settled for. -/
theorem notice_endHold (s : State) (off ev : Nat) (n : Notice) (h : InSelfCheck s) (ho : off < 4096)
    (hne : off ≠ Reg.HDR_EVT_STAT) (hev : ev < 32) :
    InSelfCheck ((endHold s off ev).notice n) ∧ ((endHold s off ev).notice n).c.bezel.hold = none ∧
      Recorded off ev s ((endHold s off ev).notice n) :=
  have hn := notice_sameSeats (endHold s off ev) n
  ⟨(endHold_inSelfCheck s off ev h).of_sameSeats hn, hn.hold,
    (endHold_recorded s off ev ho hne hev).of_sameBezelPage ho hn.page⟩

/-- A verdict that goes to a side: the outcome is recorded, the side is settled for, and the TOKEN stays if it held the lease. -/
theorem settleFor_notice_endHold (s : State) (m : Mismatch) (w : SideId) (off ev : Nat) (n : Notice) (h : InSelfCheck s)
    (ho : off < 4096) (hne : off ≠ Reg.HDR_EVT_STAT) (hev : ev < 32) :
    let u := settleFor ((endHold s off ev).notice n) m w
    SettledFor m w s.c.lt u ∧ Recorded off ev s u ∧
      u.c.clasp.token = if s.c.clasp.holder = some w then s.c.clasp.token else nextToken s.c.clasp.token := by
  obtain ⟨hc, hh, hrec⟩ := notice_endHold s off ev n h ho hne hev
  have hlt : ((endHold s off ev).notice n).c.lt = s.c.lt := (notice_sameSeats _ n).lt
  have htok := settleFor_token _ m w hc hh
  rw [notice_clasp, endHold_clasp] at htok
  exact ⟨hlt ▸ settleFor_settledFor _ m w hc hh, hrec.of_sameBezelPage ho (settleFor_sameBezelPage _ m w hc hh), htok⟩

section
variable {s : State} {m : Mismatch} {h : SideId} (hc : InSelfCheck s)
include hc

/-- Both fail: both sides stop, nobody holds the lease, the commons stay held. -/
theorem verdict_both_fail_stops :
    let u := verdict s m h false false
    u.c.bezel.dead = true ∧ u.c.clasp.holder = none ∧ u.c.bezel.stA = .stopped ∧ u.c.bezel.stB = .stopped ∧
      Recorded Reg.BEZEL_BOTH_FAIL 3 s u := by
  have hA : s.c.bezel.stA = .selfCheck := hc.checks .a
  have hB : s.c.bezel.stB = .selfCheck := hc.checks .b
  have hrec := (endHold_recorded s Reg.BEZEL_BOTH_FAIL 3 (by decide) (by decide) (by decide)).of_sameBezelPage (by decide)
    (halt_sameBezelPage _)
  rw [verdict_both_fail]
  exact ⟨by simp [halt_bezel], halt_holder _, by simp [halt_bezel, hA], by simp [halt_bezel, hB], hrec⟩

/-- The active fails: the shadow is settled for, and the lease moves to it. -/
theorem verdict_active_fails_takeover (hk : s.c.clasp.holder = some h) :
    let u := verdict s m h false true
    SettledFor m h.other s.c.lt u ∧ u.c.clasp.token = nextToken s.c.clasp.token ∧ Recorded Reg.BEZEL_TAKEOVERS 0 s u := by
  rw [verdict_active_fails]
  obtain ⟨hs, hrec, htok⟩ := settleFor_notice_endHold s m h.other Reg.BEZEL_TAKEOVERS 0 (.takeover h.other) hc
    (by decide) (by decide) (by decide)
  have hne : s.c.clasp.holder ≠ some h.other := by simpa [hk] using (SideId.other_ne h).symm
  rw [if_neg hne] at htok
  exact ⟨hs, htok, hrec⟩

/-- The shadow fails: the active is settled for, and keeps the lease with its TOKEN. -/
theorem verdict_shadow_fails_out (hk : s.c.clasp.holder = some h) :
    let u := verdict s m h true false
    SettledFor m h s.c.lt u ∧ u.c.clasp.token = s.c.clasp.token ∧ Recorded Reg.BEZEL_SHADOW_FAIL 1 s u := by
  rw [verdict_shadow_fails]
  obtain ⟨hs, hrec, htok⟩ := settleFor_notice_endHold s m h Reg.BEZEL_SHADOW_FAIL 1 (.sideOut h.other) hc
    (by decide) (by decide) (by decide)
  rw [if_pos hk] at htok
  exact ⟨hs, htok, hrec⟩

/-- Both pass after a mismatch that was not of DATA: comparison goes on, and the lease is as it was. -/
theorem verdict_both_pass_goes_on (hm : m.cause ≠ 1) :
    let u := verdict s m h true true
    u.c.bezel.held = false ∧ u.c.bezel.compares = true ∧ u.c.clasp = s.c.clasp ∧ Recorded Reg.BEZEL_TRANSIENT 2 s u := by
  obtain ⟨hc', hh, hrec⟩ := notice_endHold s Reg.BEZEL_TRANSIENT 2 .transient hc (by decide) (by decide) (by decide)
  rw [verdict_both_pass s m h hm]
  refine ⟨?_, rfl, notice_clasp _ _, hrec.of_sameBezelPage (by decide) (sameBezelPage.refl _)⟩
  simp [BezelState.held, hh, hc'.alive]

/-- Both pass after a mismatch of DATA: the active is settled for. -/
theorem verdict_both_pass_data_out (hm : m.cause = 1) :
    let u := verdict s m h true true
    SettledFor m h s.c.lt u ∧ Recorded Reg.BEZEL_TRANSIENT 2 s u := by
  rw [verdict_both_pass_data s m h hm]
  obtain ⟨hs, hrec, -⟩ := settleFor_notice_endHold s m h Reg.BEZEL_TRANSIENT 2 .transient hc
    (by decide) (by decide) (by decide)
  exact ⟨hs, hrec⟩

end

/-! ## The results (R428) -/

/-- A result recorded: what Bezel has of the two results is `m`. -/
def withResults (s : State) (m : Mismatch) : State := s.updZ fun z => { z with hold := some m }

theorem judge_of_unknown (s : State) (m : Mismatch) (x : SideId) (h : m.res x = none) :
    judge (withResults s m) = withResults s m := by
  cases x with
  | a =>
    have hA : m.resA = none := h
    simp [judge, withResults, hA]
  | b =>
    have hB : m.resB = none := h
    cases hA : m.resA <;> simp [judge, withResults, hA, hB]

theorem judge_of_known (s : State) (m : Mismatch) (h : SideId) (p q : Bool) (hk : s.c.clasp.holder = some h)
    (hp : m.res h = some p) (hq : m.res h.other = some q) :
    judge (withResults s m) = verdict (withResults s m) m h p q := by
  cases h with
  | a =>
    have hA : m.resA = some p := hp
    have hB : m.resB = some q := hq
    simp [judge, withResults, hA, hB, hk]
  | b =>
    have hB : m.resB = some p := hp
    have hA : m.resA = some q := hq
    simp [judge, withResults, hA, hB, hk]

section
variable (s : State) (x : SideId) (ok : SelfCheck) (m : Mismatch)

theorem exec_selfCheckReport : exec (.selfCheckReport x ok) s = .next (fin (selfCheckReport s x ok)) := rfl

theorem exec_selfCheckTimeout : exec (.selfCheckTimeout x) s = .next (fin (selfCheckTimeout s x)) := rfl

variable (hm : s.c.bezel.hold = some m)
include hm

theorem selfCheckReport_of_checking (hx : s.c.bezel.st x = .selfCheck) : selfCheckReport s x ok =
    judge (withResults s (m.setRes x (ok.digestOk && ok.logicOk && ok.scanOk))) := by
  simp [selfCheckReport, hx, hm, withResults, State.updZ, State.updC]

theorem selfCheckTimeout_of_due (hx : s.c.bezel.st x = .selfCheck) (ht : 200000 + m.start ≤ s.c.lt) :
    selfCheckTimeout s x = judge (withResults s (m.setRes x false)) := by
  simp [selfCheckTimeout, hx, hm, ht, withResults]

theorem selfCheckTimeout_of_early (ht : s.c.lt < 200000 + m.start) : selfCheckTimeout s x = s := by
  simp [selfCheckTimeout, hm, Nat.not_le.2 ht]

theorem selfCheckTimeout_of_not_checking (hx : s.c.bezel.st x ≠ .selfCheck) : selfCheckTimeout s x = s := by
  simp [selfCheckTimeout, hm, hx]

end

theorem selfCheckReport_of_not_checking (s : State) (x : SideId) (ok : SelfCheck) (hx : s.c.bezel.st x ≠ .selfCheck) :
    selfCheckReport s x ok = s := if_neg hx

/-- Of a command that records a result: it is kept until the other side's is known, and with both known the verdict falls. -/
theorem exec_of_judge (i : Instr) (s : State) (m : Mismatch) (x : SideId)
    (hi : exec i s = .next (fin (judge (withResults s m)))) :
    (m.res x = none → exec i s = .next (fin (withResults s m))) ∧
    (∀ h p q, s.c.clasp.holder = some h → m.res h = some p → m.res h.other = some q →
      exec i s = .next (fin (verdict (withResults s m) m h p q))) :=
  ⟨fun hn => by rw [hi, judge_of_unknown s m x hn], fun h p q hk hp hq => by rw [hi, judge_of_known s m h p q hk hp hq]⟩

/-- Settles O48: a result is kept until both are known, and each row of the table "Verdicts" by its own lemma. -/
theorem verdicts : Obligations.Verdicts := by
  refine ⟨?results, ?table⟩
  case results =>
    intro s x ok m hm
    refine ⟨fun hx => ⟨?reportIdle, ?timeoutIdle⟩, fun ht => ?early, fun hx => ⟨?report, fun ht => ?timeout⟩⟩
    case reportIdle => rw [exec_selfCheckReport, selfCheckReport_of_not_checking s x ok hx]
    case timeoutIdle => rw [exec_selfCheckTimeout, selfCheckTimeout_of_not_checking s x m hm hx]
    case early => rw [exec_selfCheckTimeout, selfCheckTimeout_of_early s x m hm ht]
    case report =>
      refine exec_of_judge _ s _ x.other ?_
      rw [exec_selfCheckReport, selfCheckReport_of_checking s x ok m hm hx]
    case timeout =>
      refine exec_of_judge _ s _ x.other ?_
      rw [exec_selfCheckTimeout, selfCheckTimeout_of_due s x m hm hx ht]
  case table =>
    intro s m h hv hk hA hB hd hr
    have hc : InSelfCheck s := (inSelfCheck_iff s).2 ⟨hv, hA, hB, hd, hr⟩
    refine ⟨?bothFail, ?activeFails, ?shadowFails, fun hm => ?bothPass, fun hm => ?bothPassData⟩
    case bothFail =>
      obtain ⟨hdead, hnone, ha, hb, hrec⟩ := verdict_both_fail_stops (m := m) (h := h) hc
      exact ⟨hdead, hnone, ha, hb, hrec.counted, hrec.raised⟩
    case activeFails =>
      obtain ⟨⟨hgo, hholder, halone, hboot, hrefill, hpass⟩, htok, hrec⟩ := verdict_active_fails_takeover (m := m) hc hk
      rw [SideId.other_other] at hboot hrefill
      exact ⟨hgo, hholder, halone, hboot, htok, hrec.counted, hrec.raised, hrefill, hpass⟩
    case shadowFails =>
      obtain ⟨⟨hgo, hholder, halone, hboot, hrefill, hpass⟩, htok, hrec⟩ := verdict_shadow_fails_out (m := m) hc hk
      exact ⟨hgo, hholder, halone, hboot, htok, hrec.counted, hrec.raised, hrefill, hpass⟩
    case bothPass =>
      obtain ⟨hgo, hcmp, hclasp, hrec⟩ := verdict_both_pass_goes_on (h := h) hc hm
      exact ⟨hgo, hcmp, hclasp, hrec.counted, hrec.raised⟩
    case bothPassData =>
      obtain ⟨⟨hgo, hholder, halone, hboot, hrefill, hpass⟩, hrec⟩ := verdict_both_pass_data_out (h := h) hc hm
      exact ⟨hgo, hholder, halone, hboot, hrec.counted, hrec.raised, hrefill, hpass⟩

end Sys2Proof.Machine
end
